-- ==== Sys2Proof/Word.lean ====
section
/-! DEFINITION. The word types and their plainest arithmetic: bit fields, little-endian bytes, ceilings. -/

namespace Sys2Proof

abbrev Byte := BitVec 8
abbrev W32 := BitVec 32
abbrev W64 := BitVec 64
/-- One core instruction word, 128 bits (R98). -/
abbrev W128 := BitVec 128
/-- One 64-byte descriptor (R216), byte 0 in bits [7:0]. -/
abbrev W512 := BitVec 512

/-- Bits `[lo + len - 1 : lo]` of a number, as a number. -/
def field (w lo len : Nat) : Nat := (w / 2 ^ lo) % 2 ^ len

/-- Bit `i` of a number. -/
def bitOf (w i : Nat) : Bool := (w / 2 ^ i) % 2 == 1

/-- `w` with bits `[lo + len - 1 : lo]` replaced by the low `len` bits of `v`. -/
def setField (w lo len v : Nat) : Nat :=
  w - (field w lo len) * 2 ^ lo + (v % 2 ^ len) * 2 ^ lo

/-- 1 for true, 0 for false. -/
def b2n (b : Bool) : Nat := if b then 1 else 0

/-- `ceil (a / b)`. -/
def ceilDiv (a b : Nat) : Nat := (a + b - 1) / b

/-- `a` rounded up to a multiple of `b`. -/
def roundUp (a b : Nat) : Nat := ceilDiv a b * b

/-- The low `n` bytes of `v`, least significant first. -/
def leBytes : (n v : Nat) → List Byte
  | 0, _ => []
  | n + 1, v => BitVec.ofNat 8 v :: leBytes n (v / 256)

/-- The number that little-endian bytes spell. -/
def ofLe : List Byte → Nat
  | [] => 0
  | b :: bs => b.toNat + 256 * ofLe bs

/-- The signed reading of the low `n` bits of `v`. -/
def signed (n v : Nat) : Int :=
  let u : Int := ((v % 2 ^ n : Nat) : Int)
  if 2 * u < ((2 ^ n : Nat) : Int) then u else u - ((2 ^ n : Nat) : Int)

/-- The low `n` bits of an integer, in two's complement. -/
def unsignedOf (n : Nat) (v : Int) : Nat := (v % ((2 ^ n : Nat) : Int)).toNat

/-- Saturating increment of a 32-bit count (the counters the spec says saturate at 0xFFFF_FFFF). -/
def satInc32 (n : Nat) : Nat := if n < 4294967295 then n + 1 else 4294967295

/-- Wrap-around comparison of 64-bit values: `(int64)(a - b)` as an integer (R212, R228, R229). -/
def diff64 (a b : Nat) : Int := signed 64 (a + 2 ^ 64 - b % 2 ^ 64)

/-- Wrap-around comparison of 32-bit values: `(int32)(a - b)` as an integer (R296, R326, R403). -/
def diff32 (a b : Nat) : Int := signed 32 (a + 2 ^ 32 - b % 2 ^ 32)

end Sys2Proof
end

