-- ==== Sys2Proof/Syntax.lean ====
section
/-! DEFINITION. The commands of the block: `Instr` has one constructor per row of spec/opcode_table.json, and beside it
stand the operand types: what a partner, a sink, a pin or a standard outside the spec contributes to a step. -/

namespace Sys2Proof

/-- A received Qanat packet (R295): its 32-byte header with byte 0 in bits [7:0], its payload, and the source addresses of its frame. -/
structure QPacket where
  hdr : BitVec 256
  payload : List Byte
  /-- Source IP address, byte 0 of the record's field lowest (R311), and source MAC address (R293). -/
  srcIp : BitVec 128
  srcMac : BitVec 48
  deriving DecidableEq, Repr

/-- The profiles of R332, and any other. -/
inductive MediaProfile where
  | av1Main | av1High | hevcMain | hevcMain10 | hevcMain42210 | hevcMain44410 | avcHigh | avcHigh10 | avcHigh422 | other
  deriving DecidableEq, Repr

/-- Chroma formats: 4:0:0, 4:2:0, 4:2:2 and 4:4:4. -/
inductive Chroma where
  | c400 | c420 | c422 | c444
  deriving DecidableEq, Repr

/-- What a media engine's parser finds in a bitstream (R333, R336): codecs are other standards. -/
structure DecodeReport where
  profile : MediaProfile
  /-- Ten times the level: 61 for level 6.1. -/
  level : Nat
  depth : Nat
  chroma : Chroma
  /-- It uses an item that R333 leaves out. -/
  unsupported : Bool
  /-- The picture's size in pixels. -/
  width : BitVec 16
  height : BitVec 16
  syntaxError : Bool
  /-- Slots that the codec still needs as a reference, and the one nearest to this picture. -/
  refs : W32
  nearest : Byte
  /-- Slot whose picture is next in display order, 0xFF while the reorder rules hold it back, and the count then reported. -/
  nextSlot : Byte
  order : W32
  deriving DecidableEq, Repr

/-- Response codes of a page request group (R192). -/
inductive PrgCode where
  | success | invalid | failure | unsupported
  deriving DecidableEq, Repr

/-- The host's answer to an ATS translation request (R191, R192). -/
inductive AtsAnswer where
  /-- Its target, and the size of the page: 2^size pages of 4 KiB, up to 1 GiB (R190). -/
  | translated (page : Nat) (write : Bool) (size : Fin 19)
  | notPresent
  | aborted
  deriving DecidableEq, Repr

/-- What met an uncorrectable memory error (R174). -/
inductive MemUser where
  | transfer (l : Nat)
  | cdcFill (l : Nat)
  | descriptor (q i : Nat)
  deriving DecidableEq, Repr

/-- The device read that a host answer concerns (R286). -/
inductive ReadUser where
  /-- A descriptor: the device address of the first byte not moved, and its offset. -/
  | descriptor (q i va off : Nat)
  /-- A launch on physical region `r`: a transfer entry (source 0) or an unplanned access (source 1). -/
  | launch (l r : Nat) (source : Fin 2) (index va off : Nat)
  | ring (q : Nat)
  deriving DecidableEq, Repr

/-- A poisoned completion: what asked for it, and its header. -/
structure BadRead where
  user : ReadUser
  hdr : List Byte
  deriving DecidableEq, Repr

/-- An IDE check that failed: the reads whose data was lost, and the TLP's header. -/
structure LostReads where
  users : List ReadUser
  hdr : List Byte
  deriving DecidableEq, Repr

/-- Where a CDC parity error stands (R169). -/
inductive ParitySite where
  | cleanData (way set lg : Nat)
  | dirtyData (way set : Nat)
  | tagState (way set : Nat)
  | evictEntry (n : Nat)
  | scratch
  deriving DecidableEq, Repr

/-- A unit whose hardware fails (R397, R398). -/
inductive HwUnit where
  | region (r : Fin 16)
  | clusterCheck (cl : Fin 128)
  | dieFabric (d : Fin 2)
  | diePll (d : Fin 2)
  | frontEnd
  | port (b : Fin 2)
  | head (h : Fin 4)
  | media (e : Fin 4)
  deriving DecidableEq, Repr

/-- A unit that reports by itself at start-up (R374). -/
inductive BootUnit where
  | head (h : Fin 4)
  | media (e : Fin 4)
  | port (b : Fin 2)
  deriving DecidableEq, Repr

/-- What the host's configuration writes leave set once the link answers, for the bits whose writes are no row of the table: NumVFs with
VF Enable (0: clear), Enable Relaxed Ordering, ATS Enable of every function, DOE Interrupt Enable (log entry 37). -/
structure HostCfg where
  vfs : Fin 64
  relaxed : Bool
  ats : Bool
  doeIrq : Bool
  /-- BAR4 is 256 MiB times 2^bar4, set before Memory Space Enable (R274). -/
  bar4 : Fin 12
  /-- Maximum payload and read request sizes, 128 bytes times a power of two (R266). -/
  mps : Fin 3
  mrrs : Fin 6
  ctoOff : Bool
  /-- Routing ID of the physical function (R271). -/
  rid : BitVec 16
  deriving DecidableEq, Repr

/-- Where a core's memory failed (R96): a register, or a tile-store byte; `clearing` when the device met it in a clear of R23 or R118. -/
structure EccPlace where
  clearing : Bool
  tsAddr : Option Nat
  deriving DecidableEq, Repr

/-- What the two supply connectors' sense pins declare (R414). -/
structure Senses where
  a : Fin 5
  b : Fin 5
  deriving DecidableEq, Repr

/-- A wake from DORMANT (R357): its WAKE_CAUSE, and a bit of the Cistern that did not keep its value (R361). -/
structure WakeUp where
  cause : Fin 5
  upset : Option Nat
  deriving DecidableEq, Repr

/-- A write of a function's Command register (R274, R280): Memory Space Enable, and a size that the host gave BAR4 just before. -/
structure CommandWrite where
  fn : Fin 64
  mem : Bool
  bar4 : Option (Fin 12)
  deriving DecidableEq, Repr

/-- A write of a function's MSI-X Message Control that sets Enable, with the Function Mask (R279). -/
structure MsixWrite where
  fn : Fin 64
  mask : Bool
  deriving DecidableEq, Repr

/-- A request or completion in error (R286): its requester, and its header with its prefixes. -/
structure BadTlp where
  req : BitVec 16
  hdr : List Byte
  deriving DecidableEq, Repr

/-- A PFC frame (R309): its priority, and whether it pauses it or ends the pause. -/
structure PfcFrame where
  pri : Fin 8
  pause : Bool
  deriving DecidableEq, Repr

/-- What an IDE_KM message asks of a stream (R288). -/
inductive IdeKm where
  /-- Keys, with the stream's RID association and its address associations as the host has set them. -/
  | setKeys (rid : BitVec 16) (addrs : List (W64 × W64))
  | go
  | stop
  deriving DecidableEq, Repr

/-- A secured IDE_KM message of the DOE mailbox, with its bytes. -/
structure IdeKmMessage where
  kind : IdeKm
  bytes : List Byte
  deriving DecidableEq, Repr

/-- A sink's reply on AUX (R318). -/
inductive AuxReply where
  | ack | nak | defer | none
  deriving DecidableEq, Repr

/-- An inbound RoCEv2 request (R309): 0 SEND, 1 WRITE, 2 READ. -/
structure RoceReq where
  op : Fin 3
  qpn : Nat
  rkey : W32
  va : W64
  len : Nat
  data : List Byte
  ce : Bool
  icrcOk : Bool
  deriving DecidableEq, Repr

/-- An inbound RoCEv2 response (R310). -/
inductive RoceResp where
  | ack
  | nak
  | rnr
  | data (bytes : List Byte)
  deriving DecidableEq, Repr

/-- Why a received frame is invalid (R308, R312). -/
inductive BadFrame where
  | fec
  | macsec
  | header (src : W32)
  deriving DecidableEq, Repr

/-- Why a model image could not be read (R260). -/
inductive MemFail where
  | unmapped
  | dataError
  deriving DecidableEq, Repr

/-- The commands, in the table's order. `q` names a queue (0x10_0000 the admin queue), `i` a descriptor number in it,
`c` a core, `g` a lane group, `w` an instruction word, `r` a region, `l` a launch, `h` a head, `cl` a cluster, `f` a function. -/
inductive Instr where
  /-- NOP (R219). -/
  | nop (q : Nat) (i : Nat)
  /-- FENCE_REGISTER (R227). -/
  | fenceRegister (q : Nat) (i : Nat)
  /-- FENCE_RELEASE (R227). -/
  | fenceRelease (q : Nat) (i : Nat)
  /-- CTX_QUERY (R222). -/
  | ctxQuery (q : Nat) (i : Nat)
  /-- LAUNCH (R220). -/
  | launch (q : Nat) (i : Nat)
  /-- PLAN_LOAD (R239). -/
  | planLoad (q : Nat) (i : Nat)
  /-- PLAN_PATCH (R239). -/
  | planPatch (q : Nat) (i : Nat)
  /-- PLAN_FREE (R239). -/
  | planFree (q : Nat) (i : Nat)
  /-- PLAN_RESIDENCY (R241). -/
  | planResidency (q : Nat) (i : Nat)
  /-- COPY (R221). -/
  | copy (q : Nat) (i : Nat)
  /-- FILL (R221). -/
  | fill (q : Nat) (i : Nat)
  /-- MEM_ALLOC (R238). -/
  | memAlloc (q : Nat) (i : Nat)
  /-- MEM_FREE (R238). -/
  | memFree (q : Nat) (i : Nat)
  /-- MEM_MAP (R238). -/
  | memMap (q : Nat) (i : Nat)
  /-- MEM_UNMAP (R238). -/
  | memUnmap (q : Nat) (i : Nat)
  /-- MIGRATE (R195). -/
  | migrate (q : Nat) (i : Nat)
  /-- ADVISE (R196). -/
  | advise (q : Nat) (i : Nat)
  /-- DISP_COMMIT (R320). -/
  | dispCommit (q : Nat) (i : Nat)
  /-- COMMIT_VALIDATION_DONE (R321). -/
  | commitValidationDone (h : Fin 4)
  /-- MEDIA_DECODE (R336). -/
  | mediaDecode (q : Nat) (i : Nat) (x : DecodeReport)
  /-- MEDIA_ENCODE (R338). -/
  | mediaEncode (q : Nat) (i : Nat)
  /-- NODE_SET (R294). -/
  | nodeSet (q : Nat) (i : Nat)
  /-- NODE_CLEAR (R294). -/
  | nodeClear (q : Nat) (i : Nat)
  /-- NODE_QUERY (R311). -/
  | nodeQuery (q : Nat) (i : Nat)
  /-- EXPORT (R299). -/
  | exportRange (q : Nat) (i : Nat)
  /-- UNEXPORT (R301). -/
  | unexportRange (q : Nat) (i : Nat)
  /-- QP_CREATE (R311). -/
  | qpCreate (q : Nat) (i : Nat)
  /-- QP_DESTROY (R311). -/
  | qpDestroy (q : Nat) (i : Nat)
  /-- ROCE_SEND (R310). -/
  | roceSend (q : Nat) (i : Nat)
  /-- ROCE_WRITE (R310). -/
  | roceWrite (q : Nat) (i : Nat)
  /-- ROCE_READ (R310). -/
  | roceRead (q : Nat) (i : Nat)
  /-- ROCE_RECV (R310). -/
  | roceRecv (q : Nat) (i : Nat)
  /-- CTX_CREATE (R233). -/
  | ctxCreate (q : Nat) (i : Nat)
  /-- CTX_DESTROY (R242). -/
  | ctxDestroy (q : Nat) (i : Nat)
  /-- QUEUE_CREATE (R235). -/
  | queueCreate (q : Nat) (i : Nat)
  /-- QUEUE_DESTROY (R237). -/
  | queueDestroy (q : Nat) (i : Nat)
  /-- KICK (R213). -/
  | kick (f : Fin 64) (off : Nat) (size : Nat) (v : W32) (wr : List Host.Cell)
  /-- SWEEP (R214). -/
  | sweep (wr : List Host.Cell)
  /-- DESCRIPTOR_READ (R212). -/
  | descriptorRead (q : Nat)
  /-- DESCRIPTOR_HEAD (R217). -/
  | descriptorHead (q : Nat)
  /-- DESCRIPTOR_RELEASE (R218). -/
  | descriptorRelease (q : Nat)
  /-- WAIT_REEVALUATION (R228). -/
  | waitReevaluation (fence : Nat)
  /-- WAIT_TIMEOUT (R232). -/
  | waitTimeout (q : Nat)
  /-- DESCRIPTOR_COMPLETE (R224). -/
  | descriptorComplete (q : Nat) (i : Nat)
  /-- IRQ_MODERATION_TIMEOUT (R278). -/
  | irqModerationTimeout (vec : Nat)
  /-- LC_START (R245). -/
  | lcStart (r : Fin 16)
  /-- BE_START (R247). -/
  | beStart
  /-- BE_SLICE_EXPIRY (R248). -/
  | beSliceExpiry (l : Nat)
  /-- SLIP_POINT (R118). -/
  | slipPoint (r : Fin 16)
  /-- SAVE_COMPLETE (R252). -/
  | saveComplete (l : Nat)
  /-- RESTORE (R253). -/
  | restore (l : Nat)
  /-- STEP_END (R22). -/
  | stepEnd (l : Nat)
  /-- CROSS_MODULE_STEP_START (R303). -/
  | crossModuleStepStart (l : Nat)
  /-- STEP_OVERRUN (R62). -/
  | stepOverrun (l : Nat)
  /-- HARD_STOP (R242). -/
  | hardStop (r : Fin 16)
  /-- DRAIN (R262). -/
  | drainRegion (r : Fin 16)
  /-- FORCE (R262). -/
  | forceRegion (r : Fin 16)
  /-- RETURN (R262). -/
  | returnRegion (r : Fin 16)
  /-- REGION_SELF_TEST_DONE (R262). -/
  | regionSelfTestDone (r : Fin 16) (failedClusters : BitVec 8) (unitFailed : Bool)
  /-- REGION_NAP (R356). -/
  | regionNap (r : Fin 16)
  /-- NAP_EXIT (R356). -/
  | napExit (r : Fin 16)
  /-- REGION_GROUPS_WRITE (R67). -/
  | regionGroupsWrite (v : W32)
  /-- LC_ENABLE_WRITE (R346). -/
  | lcEnableWrite (v : W32)
  /-- RES_CTRL_WRITE (R265). -/
  | resCtrlWrite (v : W32)
  /-- CAP_WRITE (R63). -/
  | capWrite (v : W32)
  /-- CTRL_NOP (R425). -/
  | ctrlNop (c : Fin 512) (g : Fin 32) (w : W128)
  /-- CTRL_BR (R102). -/
  | ctrlBr (c : Fin 512) (g : Fin 32) (w : W128)
  /-- CTRL_BAR (R103). -/
  | ctrlBar (c : Fin 512) (g : Fin 32) (w : W128)
  /-- CTRL_SLIP (R118). -/
  | ctrlSlip (c : Fin 512) (g : Fin 32) (w : W128)
  /-- CTRL_END (R97). -/
  | ctrlEnd (c : Fin 512) (g : Fin 32) (w : W128)
  /-- SCALAR_SMOV (R425). -/
  | scalarSmov (c : Fin 512) (g : Fin 32) (w : W128)
  /-- SCALAR_SADD (R425). -/
  | scalarSadd (c : Fin 512) (g : Fin 32) (w : W128)
  /-- SCALAR_SSUB (R425). -/
  | scalarSsub (c : Fin 512) (g : Fin 32) (w : W128)
  /-- SCALAR_SMUL (R425). -/
  | scalarSmul (c : Fin 512) (g : Fin 32) (w : W128)
  /-- SCALAR_SAND (R425). -/
  | scalarSand (c : Fin 512) (g : Fin 32) (w : W128)
  /-- SCALAR_SOR (R425). -/
  | scalarSor (c : Fin 512) (g : Fin 32) (w : W128)
  /-- SCALAR_SXOR (R425). -/
  | scalarSxor (c : Fin 512) (g : Fin 32) (w : W128)
  /-- SCALAR_SNOT (R425). -/
  | scalarSnot (c : Fin 512) (g : Fin 32) (w : W128)
  /-- SCALAR_SSHL (R425). -/
  | scalarSshl (c : Fin 512) (g : Fin 32) (w : W128)
  /-- SCALAR_SSHR (R425). -/
  | scalarSshr (c : Fin 512) (g : Fin 32) (w : W128)
  /-- SCALAR_SSAR (R425). -/
  | scalarSsar (c : Fin 512) (g : Fin 32) (w : W128)
  /-- SCALAR_SCMP (R425). -/
  | scalarScmp (c : Fin 512) (g : Fin 32) (w : W128)
  /-- SCALAR_SUCMP (R425). -/
  | scalarSucmp (c : Fin 512) (g : Fin 32) (w : W128)
  /-- VALU_FADD (R89). -/
  | valuFadd (c : Fin 512) (g : Fin 32) (w : W128)
  /-- VALU_FSUB (R89). -/
  | valuFsub (c : Fin 512) (g : Fin 32) (w : W128)
  /-- VALU_FMUL (R89). -/
  | valuFmul (c : Fin 512) (g : Fin 32) (w : W128)
  /-- VALU_FFMA (R89). -/
  | valuFfma (c : Fin 512) (g : Fin 32) (w : W128)
  /-- VALU_FMIN (R89). -/
  | valuFmin (c : Fin 512) (g : Fin 32) (w : W128)
  /-- VALU_FMAX (R89). -/
  | valuFmax (c : Fin 512) (g : Fin 32) (w : W128)
  /-- VALU_FABS (R425). -/
  | valuFabs (c : Fin 512) (g : Fin 32) (w : W128)
  /-- VALU_FNEG (R425). -/
  | valuFneg (c : Fin 512) (g : Fin 32) (w : W128)
  /-- VALU_FCMP (R425). -/
  | valuFcmp (c : Fin 512) (g : Fin 32) (w : W128)
  /-- VALU_HADD2 (R89). -/
  | valuHadd2 (c : Fin 512) (g : Fin 32) (w : W128)
  /-- VALU_HMUL2 (R89). -/
  | valuHmul2 (c : Fin 512) (g : Fin 32) (w : W128)
  /-- VALU_HFMA2 (R89). -/
  | valuHfma2 (c : Fin 512) (g : Fin 32) (w : W128)
  /-- VALU_BADD2 (R89). -/
  | valuBadd2 (c : Fin 512) (g : Fin 32) (w : W128)
  /-- VALU_BMUL2 (R89). -/
  | valuBmul2 (c : Fin 512) (g : Fin 32) (w : W128)
  /-- VALU_BFMA2 (R89). -/
  | valuBfma2 (c : Fin 512) (g : Fin 32) (w : W128)
  /-- VALU_HMIN2 (R89). -/
  | valuHmin2 (c : Fin 512) (g : Fin 32) (w : W128)
  /-- VALU_HMAX2 (R89). -/
  | valuHmax2 (c : Fin 512) (g : Fin 32) (w : W128)
  /-- VALU_IADD (R425). -/
  | valuIadd (c : Fin 512) (g : Fin 32) (w : W128)
  /-- VALU_ISUB (R425). -/
  | valuIsub (c : Fin 512) (g : Fin 32) (w : W128)
  /-- VALU_IMUL (R425). -/
  | valuImul (c : Fin 512) (g : Fin 32) (w : W128)
  /-- VALU_IMULHI (R425). -/
  | valuImulhi (c : Fin 512) (g : Fin 32) (w : W128)
  /-- VALU_IMULHU (R425). -/
  | valuImulhu (c : Fin 512) (g : Fin 32) (w : W128)
  /-- VALU_IADDS (R425). -/
  | valuIadds (c : Fin 512) (g : Fin 32) (w : W128)
  /-- VALU_ISUBS (R425). -/
  | valuIsubs (c : Fin 512) (g : Fin 32) (w : W128)
  /-- VALU_SHL (R425). -/
  | valuShl (c : Fin 512) (g : Fin 32) (w : W128)
  /-- VALU_SHR (R425). -/
  | valuShr (c : Fin 512) (g : Fin 32) (w : W128)
  /-- VALU_SAR (R425). -/
  | valuSar (c : Fin 512) (g : Fin 32) (w : W128)
  /-- VALU_AND (R425). -/
  | valuAnd (c : Fin 512) (g : Fin 32) (w : W128)
  /-- VALU_OR (R425). -/
  | valuOr (c : Fin 512) (g : Fin 32) (w : W128)
  /-- VALU_XOR (R425). -/
  | valuXor (c : Fin 512) (g : Fin 32) (w : W128)
  /-- VALU_NOT (R425). -/
  | valuNot (c : Fin 512) (g : Fin 32) (w : W128)
  /-- VALU_ICMP (R425). -/
  | valuIcmp (c : Fin 512) (g : Fin 32) (w : W128)
  /-- VALU_UCMP (R425). -/
  | valuUcmp (c : Fin 512) (g : Fin 32) (w : W128)
  /-- VALU_IADD4 (R425). -/
  | valuIadd4 (c : Fin 512) (g : Fin 32) (w : W128)
  /-- VALU_ISUB4 (R425). -/
  | valuIsub4 (c : Fin 512) (g : Fin 32) (w : W128)
  /-- VALU_IADDS4 (R425). -/
  | valuIadds4 (c : Fin 512) (g : Fin 32) (w : W128)
  /-- VALU_ISUBS4 (R425). -/
  | valuIsubs4 (c : Fin 512) (g : Fin 32) (w : W128)
  /-- VALU_IDOT4 (R425). -/
  | valuIdot4 (c : Fin 512) (g : Fin 32) (w : W128)
  /-- VALU_MOV (R425). -/
  | valuMov (c : Fin 512) (g : Fin 32) (w : W128)
  /-- VALU_SEL (R425). -/
  | valuSel (c : Fin 512) (g : Fin 32) (w : W128)
  /-- VALU_SHFL (R425). -/
  | valuShfl (c : Fin 512) (g : Fin 32) (w : W128)
  /-- VALU_BCAST (R425). -/
  | valuBcast (c : Fin 512) (g : Fin 32) (w : W128)
  /-- VFUNC_RCP (R104). -/
  | vfuncRcp (c : Fin 512) (g : Fin 32) (w : W128)
  /-- VFUNC_SQRT (R104). -/
  | vfuncSqrt (c : Fin 512) (g : Fin 32) (w : W128)
  /-- VFUNC_RSQ (R104). -/
  | vfuncRsq (c : Fin 512) (g : Fin 32) (w : W128)
  /-- VFUNC_EXP2 (R104). -/
  | vfuncExp2 (c : Fin 512) (g : Fin 32) (w : W128)
  /-- VFUNC_LOG2 (R104). -/
  | vfuncLog2 (c : Fin 512) (g : Fin 32) (w : W128)
  /-- VFUNC_SINPI (R104). -/
  | vfuncSinpi (c : Fin 512) (g : Fin 32) (w : W128)
  /-- VFUNC_COSPI (R104). -/
  | vfuncCospi (c : Fin 512) (g : Fin 32) (w : W128)
  /-- VFUNC_TANH (R104). -/
  | vfuncTanh (c : Fin 512) (g : Fin 32) (w : W128)
  /-- VFUNC_SIGM (R104). -/
  | vfuncSigm (c : Fin 512) (g : Fin 32) (w : W128)
  /-- VCVT_CVT (R425). -/
  | vcvtCvt (c : Fin 512) (g : Fin 32) (w : W128)
  /-- VCVT_CVTMX (R425). -/
  | vcvtCvtmx (c : Fin 512) (g : Fin 32) (w : W128)
  /-- TS_LD (R106). -/
  | tsLd (c : Fin 512) (g : Fin 32) (w : W128)
  /-- TS_ST (R106). -/
  | tsSt (c : Fin 512) (g : Fin 32) (w : W128)
  /-- MAT_MMA (R108). -/
  | matMma (c : Fin 512) (g : Fin 32) (w : W128)
  /-- ACC_CLEAR (R109). -/
  | accClear (c : Fin 512) (g : Fin 32) (w : W128)
  /-- ACC_LOAD (R109). -/
  | accLoad (c : Fin 512) (g : Fin 32) (w : W128)
  /-- ACC_STORE (R111). -/
  | accStore (c : Fin 512) (g : Fin 32) (w : W128)
  /-- SEM_SIG (R113). -/
  | semSig (c : Fin 512) (g : Fin 32) (w : W128)
  /-- SEM_WAIT (R113). -/
  | semWait (c : Fin 512) (g : Fin 32) (w : W128)
  /-- SEM_TRY (R113). -/
  | semTry (c : Fin 512) (g : Fin 32) (w : W128)
  /-- UNP_LD (R115). -/
  | unpLd (c : Fin 512) (g : Fin 32) (w : W128)
  /-- UNP_ST (R115). -/
  | unpSt (c : Fin 512) (g : Fin 32) (w : W128)
  /-- UNP_ATOM_ADD (R164). -/
  | unpAtomAdd (c : Fin 512) (g : Fin 32) (w : W128)
  /-- UNP_ATOM_FADD (R164). -/
  | unpAtomFadd (c : Fin 512) (g : Fin 32) (w : W128)
  /-- UNP_ATOM_SMIN (R164). -/
  | unpAtomSmin (c : Fin 512) (g : Fin 32) (w : W128)
  /-- UNP_ATOM_SMAX (R164). -/
  | unpAtomSmax (c : Fin 512) (g : Fin 32) (w : W128)
  /-- UNP_ATOM_UMIN (R164). -/
  | unpAtomUmin (c : Fin 512) (g : Fin 32) (w : W128)
  /-- UNP_ATOM_UMAX (R164). -/
  | unpAtomUmax (c : Fin 512) (g : Fin 32) (w : W128)
  /-- UNP_ATOM_AND (R164). -/
  | unpAtomAnd (c : Fin 512) (g : Fin 32) (w : W128)
  /-- UNP_ATOM_OR (R164). -/
  | unpAtomOr (c : Fin 512) (g : Fin 32) (w : W128)
  /-- UNP_ATOM_XOR (R164). -/
  | unpAtomXor (c : Fin 512) (g : Fin 32) (w : W128)
  /-- UNP_ATOM_EXCH (R164). -/
  | unpAtomExch (c : Fin 512) (g : Fin 32) (w : W128)
  /-- UNP_ATOM_CAS (R164). -/
  | unpAtomCas (c : Fin 512) (g : Fin 32) (w : W128)
  /-- UNP_LFILL (R165). -/
  | unpLfill (c : Fin 512) (g : Fin 32) (w : W128)
  /-- UNP_WB (R167). -/
  | unpWb (c : Fin 512) (g : Fin 32) (w : W128)
  /-- UNP_INV (R166). -/
  | unpInv (c : Fin 512) (g : Fin 32) (w : W128)
  /-- XFER_START (R112). -/
  | xferStart (c : Fin 512) (g : Fin 32) (w : W128)
  /-- XFER_WAIT (R112). -/
  | xferWait (c : Fin 512) (g : Fin 32) (w : W128)
  /-- GFX_NEXT (R146). -/
  | gfxNext (c : Fin 512) (g : Fin 32) (w : W128)
  /-- GFX_VOUT (R146). -/
  | gfxVout (c : Fin 512) (g : Fin 32) (w : W128)
  /-- GFX_ATTR (R146). -/
  | gfxAttr (c : Fin 512) (g : Fin 32) (w : W128)
  /-- GFX_FOUT (R146). -/
  | gfxFout (c : Fin 512) (g : Fin 32) (w : W128)
  /-- GFX_KILL (R146). -/
  | gfxKill (c : Fin 512) (g : Fin 32) (w : W128)
  /-- GFX_SAMPLE (R140). -/
  | gfxSample (c : Fin 512) (g : Fin 32) (w : W128)
  /-- GFX_USAMPLE (R142). -/
  | gfxUsample (c : Fin 512) (g : Fin 32) (w : W128)
  /-- GFX_TWAIT (R146). -/
  | gfxTwait (c : Fin 512) (g : Fin 32) (w : W128)
  /-- AUTO_TRANSFER_START (R202). -/
  | autoTransferStart (r : Fin 16) (n : Nat)
  /-- TRANSFER_COMPLETE (R112). -/
  | transferComplete (r : Fin 16)
  /-- CDC_MISS_COMPLETE (R162). -/
  | cdcMissComplete (cl : Fin 128)
  /-- EVICTION_WRITE_COMPLETE (R163). -/
  | evictionWriteComplete (cl : Fin 128)
  /-- PASS_START (R127). -/
  | passStart (c : Fin 512)
  /-- BIN_POOL_FULL (R136). -/
  | binPoolFull (r : Fin 16)
  /-- TILE_STAGING_DONE (R141). -/
  | tileStagingDone (c : Fin 512)
  /-- FRAGMENT_BLENDED (R132). -/
  | fragmentBlended (c : Fin 512)
  /-- TILE_WRITE_OUT_DONE (R149). -/
  | tileWriteOutDone (c : Fin 512)
  /-- ATS_INVALIDATE (R191). -/
  | atsInvalidate (f : Fin 64) (pasid : Option (BitVec 20))
  /-- PAGE_REQUEST_RESPONSE (R192). -/
  | pageRequestResponse (prg : Nat) (code : PrgCode)
  /-- PAGE_REQUEST_TIMEOUT (R192). -/
  | pageRequestTimeout (prg : Nat)
  /-- PRI_ENABLE_WRITE (R192). -/
  | priEnableWrite (f : Fin 64) (on : Bool)
  /-- FRAME_SCRUBBED (R188). -/
  | frameScrubbed (frame : Fin 4718592)
  /-- MEM_CORRECTED_ERROR (R174). -/
  | memCorrectedError (k : Fin 8)
  /-- MEM_UNCORRECTABLE_ERROR (R174). -/
  | memUncorrectableError (frame : Fin 4718592) (user : MemUser)
  /-- STACK_FAILURE (R178). -/
  | stackFailure (k : Fin 8)
  /-- MIRROR_REBUILD_DONE (R178). -/
  | mirrorRebuildDone (die : Fin 2)
  /-- LTA_ERROR (R175). -/
  | ltaError (die : Fin 2) (entry : Nat) (both : Bool)
  /-- CORE_ECC_ERROR (R96): one core's error, in its registers or its tile store. -/
  | coreEccError (c : Fin 512) (corrected : Bool) (place : EccPlace)
  /-- CDC_PARITY_ERROR (R169). -/
  | cdcParityError (cl : Fin 128) (c : Fin 512) (site : ParitySite)
  /-- UNIT_HARDWARE_FAULT (R397). -/
  | unitHardwareFault (u : HwUnit)
  /-- FAULT_HANDLING_END (R401). -/
  | faultHandlingEnd (seq : Nat)
  /-- COLLECTOR_SELF_FAULT (R402). -/
  | collectorSelfFault (intact : Bool)
  /-- FLT_ACK_WRITE (R403). -/
  | fltAckWrite (v : W32)
  /-- SAFE_EXIT (R405). -/
  | safeExit
  /-- ACCT_MODE_WRITE (R408). -/
  | acctModeWrite (v : W32)
  /-- ACCT_CLEAR (R408). -/
  | acctClear
  /-- ENERGY_SAMPLE (R408). -/
  | energySample (watts : BitVec 10)
  /-- PERST_ASSERT (R369). -/
  | perstAssert
  /-- PERST_DEASSERT (R373). -/
  | perstDeassert (conns : Senses) (upset : Option Nat)
  /-- HOT_RESET (R34). -/
  | hotReset
  /-- LINK_DISABLE (R34). -/
  | linkDisable
  /-- DL_DOWN (R270). -/
  | dlDown
  /-- LINK_TRAINED (R374). -/
  | linkTrained (speed : Fin 7) (width : Fin 17) (flit : Bool) (cfg : HostCfg)
  /-- BOOT_IMAGE_LOADED (R379). -/
  | bootImageLoaded (readErrA : Bool) (readErrB : Bool)
  /-- FE_READY (R374). -/
  | feReady
  /-- STACK_TRAINING_DONE (R374). -/
  | stackTrainingDone (k : Fin 8) (ok : Bool)
  /-- UNIT_READY (R374). -/
  | unitReady (u : BootUnit) (ok : Bool)
  /-- VF_FLR (R282). -/
  | vfFlr (f : Fin 64)
  /-- PF_FLR (R283). -/
  | pfFlr
  /-- VF_ENABLE_CLEAR (R283). -/
  | vfEnableClear
  /-- D3HOT_ENTRY (R281). -/
  | d3hotEntry
  /-- DORMANT_EXIT (R358). -/
  | dormantExit (w : WakeUp)
  /-- STACK_READY (R358). -/
  | stackReady (k : Fin 8) (ok : Bool)
  /-- MAIN_POWER_LOSS (R357). -/
  | mainPowerLoss
  /-- BUS_MASTER_ENABLE_SET (R280). -/
  | busMasterEnableSet (w : CommandWrite)
  /-- BUS_MASTER_ENABLE_CLEAR (R280). -/
  | busMasterEnableClear (w : CommandWrite)
  /-- MSIX_ENABLE (R279). -/
  | msixEnable (w : MsixWrite)
  /-- MSIX_TABLE_WRITE (R279). -/
  | msixTableWrite (f : Fin 64) (off : Nat) (size : Nat) (v : W64)
  /-- ASPM_L1_ENTRY (R269). -/
  | aspmL1Entry
  /-- DOE_DISCOVERY (R287). -/
  | doeDiscovery (m : List Byte)
  /-- DOE_ABORT (R287). -/
  | doeAbort
  /-- DOE_RESPONSE_READY (R287). -/
  | doeResponseReady
  /-- GET_VERSION (R392). -/
  | getVersion (m : List Byte)
  /-- GET_CAPABILITIES (R392). -/
  | getCapabilities (m : List Byte)
  /-- NEGOTIATE_ALGORITHMS (R392). -/
  | negotiateAlgorithms (m : List Byte)
  /-- GET_DIGESTS (R392). -/
  | getDigests (m : List Byte)
  /-- GET_CERTIFICATE (R392). -/
  | getCertificate (m : List Byte)
  /-- CHALLENGE (R392). -/
  | challenge (m : List Byte)
  /-- GET_MEASUREMENTS (R392). -/
  | getMeasurements (m : List Byte)
  /-- KEY_EXCHANGE (R392). -/
  | keyExchange (m : List Byte)
  /-- FINISH (R392). -/
  | finish (m : List Byte)
  /-- HEARTBEAT (R392). -/
  | heartbeat (m : List Byte)
  /-- KEY_UPDATE (R392). -/
  | keyUpdate (m : List Byte)
  /-- END_SESSION (R392). -/
  | endSession (m : List Byte)
  /-- IDE_KM_MESSAGE (R288). -/
  | ideKmMessage (k : Fin 8) (m : IdeKmMessage)
  /-- MCTP_CONTROL_MESSAGE (R419). -/
  | mctpControlMessage (m : List Byte)
  /-- PLDM_MONITORING_REQUEST (R419). -/
  | pldmMonitoringRequest (m : List Byte)
  /-- MALFORMED_TLP (R286). -/
  | malformedTlp (x : BadTlp)
  /-- UNSUPPORTED_REQUEST (R286). -/
  | unsupportedRequest (x : BadTlp) (atomic : Bool)
  /-- POISONED_WRITE (R286). -/
  | poisonedWrite (x : BadTlp)
  /-- POISONED_COMPLETION (R286). -/
  | poisonedCompletion (x : BadRead)
  /-- ERROR_COMPLETION (R286). -/
  | errorCompletion (user : ReadUser)
  /-- UNEXPECTED_COMPLETION (R286). -/
  | unexpectedCompletion (x : BadTlp)
  /-- COMPLETION_TIMEOUT (R286). -/
  | completionTimeout (user : ReadUser)
  /-- IDE_CHECK_FAILED (R288). -/
  | ideCheckFailed (k : Fin 8) (x : LostReads)
  /-- UNALIGNED_BAR0_ACCESS (R6). -/
  | unalignedBar0Access (f : Fin 64) (off : Nat) (size : Nat) (write : Bool)
  /-- BAR4_READ (R275). -/
  | bar4Read (off : Nat) (n : Nat)
  /-- BAR4_WRITE (R275). -/
  | bar4Write (off : Nat) (data : List (Option Byte))
  /-- REGISTER_WRITE (R8). -/
  | registerWrite (f : Fin 64) (off : Nat) (v : W32)
  /-- ADMIN_CTRL_WRITE (R244). -/
  | adminCtrlWrite (v : W32)
  /-- HEAD_ENABLE (R317). -/
  | headEnable (h : Fin 4) (v : W32)
  /-- HEAD_DISABLE (R317). -/
  | headDisable (h : Fin 4) (v : W32)
  /-- TIMING_WRITE (R315). -/
  | timingWrite (h : Fin 4) (off : Nat) (v : W32)
  /-- RETRAIN (R331). -/
  | retrain (h : Fin 4)
  /-- LINK_TRAINING_COMPLETE (R318). -/
  | linkTrainingComplete (h : Fin 4) (ok : Bool)
  /-- AUX_REQUEST (R331). -/
  | auxRequest (h : Fin 4) (v : W32)
  /-- AUX_COMPLETE (R318). -/
  | auxComplete (h : Fin 4) (reply : AuxReply) (data : List Byte)
  /-- HPD_LOW (R318). -/
  | hpdLow (h : Fin 4)
  /-- HPD_RISE (R318). -/
  | hpdRise (h : Fin 4)
  /-- IRQ_HPD (R318). -/
  | irqHpd (h : Fin 4)
  /-- FRAME_START (R316). -/
  | frameStart (h : Fin 4)
  /-- VBLANK_START (R326). -/
  | vblankStart (h : Fin 4)
  /-- WRITEBACK_DONE (R329). -/
  | writebackDone (h : Fin 4)
  /-- SIGNATURE_LATCH (R330). -/
  | signatureLatch (h : Fin 4) (r : Fin 16)
  /-- SUBPORT_ENABLE (R291). -/
  | subportEnable (p : Fin 4) (v : W32)
  /-- SUBPORT_DISABLE (R298). -/
  | subportDisable (p : Fin 4) (v : W32)
  /-- SAK_INSTALL (R308). -/
  | sakInstall (p : Fin 4) (v : W32)
  /-- QANAT_DATA (R300). -/
  | qanatData (p : Fin 4) (pk : QPacket)
  /-- QANAT_READ_REQ (R300). -/
  | qanatReadReq (p : Fin 4) (pk : QPacket)
  /-- QANAT_READ_RESP (R296). -/
  | qanatReadResp (p : Fin 4) (pk : QPacket)
  /-- QANAT_ACK (R297). -/
  | qanatAck (p : Fin 4) (pk : QPacket)
  /-- QANAT_NAK (R312). -/
  | qanatNak (p : Fin 4) (pk : QPacket)
  /-- QANAT_HELLO (R298). -/
  | qanatHello (p : Fin 4) (pk : QPacket)
  /-- QANAT_BYE (R298). -/
  | qanatBye (p : Fin 4) (pk : QPacket)
  /-- QANAT_TRANSIT (R306). -/
  | qanatTransit (p : Fin 4) (pk : QPacket)
  /-- RETRANSMISSION_TIMEOUT (R297). -/
  | retransmissionTimeout (node : W32)
  /-- HELLO_TIMER (R298). -/
  | helloTimer
  /-- PEER_TIMEOUT (R298). -/
  | peerTimeout (node : W32)
  /-- ROCE_REQUEST_RECEIVED (R309). -/
  | roceRequestReceived (p : Fin 4) (x : RoceReq)
  /-- ROCE_RESPONSE_RECEIVED (R310). -/
  | roceResponseReceived (qpn : Nat) (x : RoceResp)
  /-- ROCE_RETRY_TIMEOUT (R310). -/
  | roceRetryTimeout (qpn : Nat) (rnr : Bool)
  /-- CNP_RECEIVED (R309). -/
  | cnpReceived (p : Fin 4)
  /-- XTAL_TRIP (R351). -/
  | xtalTrip
  /-- XTAL_LPO_TRIP (R351). -/
  | xtalLpoTrip
  /-- REFCLK_TRIP (R351). -/
  | refclkTrip
  /-- IBO_TRIP (R351). -/
  | iboTrip
  /-- LOCK_TRIP (R351). -/
  | lockTrip (pll : Fin 15)
  /-- PLL_RELOCK (R318). -/
  | pllRelock (pll : Fin 15)
  /-- PLL_RELOCK_TIMEOUT (R351). -/
  | pllRelockTimeout (pll : Fin 15)
  /-- IBO_READY (R354). -/
  | iboReady
  /-- IBO_START_TIMEOUT (R354). -/
  | iboStartTimeout
  /-- CLOCK_SWITCH (R353). -/
  | clockSwitch (v : W32)
  /-- CORE_CTRL_WRITE (R346). -/
  | coreCtrlWrite (die : Fin 2) (v : W32)
  /-- FAB_CTRL_WRITE (R346). -/
  | fabCtrlWrite (v : W32)
  /-- FE_CTRL_WRITE (R346). -/
  | feCtrlWrite (v : W32)
  /-- THERMAL_LIMIT_REACHED (R348). -/
  | thermalLimitReached (die : Fin 2) (temp : Byte) (mhz : Nat)
  /-- THERMAL_LIMIT_CLEARED (R348). -/
  | thermalLimitCleared (die : Fin 2) (temp : Byte)
  /-- THERMAL_EMERGENCY_END (R348). -/
  | thermalEmergencyEnd
  /-- PWRBRK_N_LOW (R415). -/
  | pwrbrkNLow (mhz : Nat)
  /-- INPUT_OVERCURRENT (R415). -/
  | inputOvercurrent (mhz : Nat)
  /-- BRAKE_RELEASE (R415). -/
  | brakeRelease
  /-- THERMAL_TRIP (R417). -/
  | thermalTrip
  /-- BLOWER_STALL (R418). -/
  | blowerStall (rpm : BitVec 16)
  /-- TEMPERATURE_MEASUREMENT (R367). -/
  | temperatureMeasurement (t : Fin 2) (now : Byte)
  /-- AUX_BELOW_THRESHOLD (R368). -/
  | auxBelowThreshold (mv : Nat)
  /-- LPO_CAL_UPDATE (R365). -/
  | lpoCalUpdate (cal : BitVec 20)
  /-- CMP_ARM (R366). -/
  | cmpArm (n : Fin 4) (hi : W32)
  /-- COMPARE_FIRE (R366). -/
  | compareFire (n : Fin 4)
  /-- CLK_TRIP_CLEAR (R372). -/
  | clkTripClear
  /-- PAD_RELEASE (R363). -/
  | padRelease
  /-- READY_COPY_WRITE (R377). -/
  | readyCopyWrite (hi : Bool) (v : W32)
  /-- OTP_ARM (R383). -/
  | otpArm (v : W32)
  /-- OTP_GO (R383). -/
  | otpGo (v : W32)
  /-- OTP_CHANGE_DONE (R385). -/
  | otpChangeDone (verified : Nat)
  /-- FLASH_READ (R381). -/
  | flashRead (v : W32)
  /-- FLASH_PROGRAM (R381). -/
  | flashProgram (v : W32)
  /-- FLASH_ERASE (R381). -/
  | flashErase (v : W32)
  /-- FLASH_OP_DONE (R381). -/
  | flashOpDone
  /-- VOLTAGE_GLITCH (R393). -/
  | voltageGlitch
  /-- TAMPER (R393). -/
  | tamper
  /-- ALARM_CLEAR (R395). -/
  | alarmClear (v : W32) (tripping : BitVec 4)
  /-- AUX_POWER_UP (R364). -/
  | auxPowerUp
  /-- MAIN_POWER_UP (R373). -/
  | mainPowerUp (conns : Senses) (upset : Option Nat)
  /-- XTAL25_RESTART (R352). -/
  | xtal25Restart
  /-- MATRIX_OP_COMPLETE (R110). -/
  | matrixOpComplete (c : Fin 512) (store : Bool)
  /-- BATCH_BINNED (R133). -/
  | batchBinned (r : Fin 16)
  /-- MODEL_LOAD_COMPLETE (R260). -/
  | modelLoadComplete (l : Nat) (fail : Option MemFail)
  /-- ATS_TRANSLATION_COMPLETION (R191). -/
  | atsTranslationCompletion (f : Fin 64) (pasid : Option (BitVec 20)) (page : Nat) (ans : AtsAnswer)
  /-- SUBPORT_LINK_UP (R313). -/
  | subportLinkUp (p : Fin 4)
  /-- SUBPORT_LINK_DOWN (R313). -/
  | subportLinkDown (p : Fin 4)
  /-- INVALID_FRAME_RECEIVED (R312). -/
  | invalidFrameReceived (p : Fin 4) (why : BadFrame)
  /-- PFC_FRAME_RECEIVED (R291). -/
  | pfcFrameReceived (p : Fin 4) (x : PfcFrame)
  /-- OSFP_MODULE_INSERTION (R411). -/
  | osfpModuleInsertion (b : Bool) (plugged : Bool) (watts : Nat)
  /-- HABOOB_SEED_BURNED (R394). -/
  | haboobSeedBurned
  /-- UART_CONSOLE_INPUT (R384). -/
  | uartConsoleInput (m : List Byte)
  /-- STACK_TEMPERATURE_85C (R180). -/
  | stackTemperature85c (k : Fin 8) (above : Bool)
  deriving DecidableEq, Repr

end Sys2Proof
end

