-- ==== Sys2Proof/Decode.lean ====
section
/-! DEFINITION. Commands from words. The table gives no row any bits: commands reach the block as register accesses, packets,
pins and descriptors, and core instruction words stand whole in their row's operand. So no word spells a command. -/

namespace Sys2Proof

/-- The command that a word of the table's bits spells: none, since no row of the table has bits. -/
def decodeTableWord (_nbits _w : Nat) : Option Instr := none

end Sys2Proof
end

