-- ==== Sys2Proof/Config.lean ====
section
/-! DEFINITION. What one module fixes and the spec leaves open: opaque constants with no body, so that no proof can see a
value of them, and the plain numbers of the spec that several files use. -/

namespace Sys2Proof.Config

/-- The stream of free values: the step takes `freeValue s.free` and advances `s.free` (log entry 3). -/
opaque freeValue : Nat → W64

/-- The VFUNC result for an operation and an input, where R104 gives only an error bound: used where it keeps the bound (log entry 13). -/
opaque vfunc : (op : Nat) → W32 → W32

/-- Interpolated attribute value as a function of what R143 names: tile, pixel, primitive and attribute (log entry 14). -/
opaque interpolate : List Nat → W32

/-- The map from clip space to the render area of a size, of which the spec says nothing: x becomes `k₁ x + k₂ w` and y `k₃ y + k₄ w`, in
1/256 pixel (R133; log entry 93). -/
opaque viewport : (width height : Nat) → Int × Int × Int × Int
/-- Whether snapping a quotient that is no integer takes the neighbour above it (R133; log entry 93). -/
opaque snapUp : (numerator denominator : Int) → Bool
/-- The window polygon of a triangle with a position that is not finite (R133; log entry 93). -/
opaque setupPoly : List Nat → List (Int × Int)

/-- The level of detail from the differences across a quad, times 2^24 (R140; log entry 14). -/
opaque quadLod : List Nat → Int

/-- The stencil byte a RESOLVE of several samples writes, of which R145 gives only the FP32 channels (log entry 14). -/
opaque resolveStencil : List Nat → Byte

/-- Filtered texture result for a channel (R140); the spec gives the texels and the level, not the filter's rounding (log entry 14). -/
opaque filterTexels : List Nat → W32

/-- The sum of a table filter's products in FP32 (R322, R323): the spec rounds every operation and gives no order of the sum (log
entry 21). -/
opaque scalerSum : List W32 → W32

/-- The quantised value of a composed channel above 1.0 without DITHER, which needs more than BPC bits (R323; log entry 21). -/
opaque quantOver : (bits : Nat) → W32 → Nat

/-- SHA-256 and ECDSA P-256 verification, standards the spec names and does not restate (log entry 9). -/
opaque sha256 : List Byte → BitVec 256
opaque ecdsaVerify : (key : List Byte) → (digest : BitVec 256) → (signature : List Byte) → Bool

/-- The responder's answer to an SPDM, DOE or management message, as the named standards give it (log entry 9). -/
opaque protocolReply : (code : Nat) → (request : List Byte) → (state : Nat) → List Byte
/-- A PLDM event is pending at these sensor figures, as the management standards give it (R412, R419; log entry 9). -/
opaque pldmEventPending : (sensors : Nat) → Bool

/-- A certificate chain in an identity area verifies against the identity key; the certificate of the attestation key that the identity key
signs (R390; log entry 9). -/
opaque chainVerifies : (area : List Byte) → (identity : BitVec 256) → Bool
opaque signCert : (identity attest : BitVec 256) → List Byte
/-- A byte of the identity areas that a provisioning image writes for the seed of a slot (R391; log entry 9). -/
opaque identityByte : (slot : Nat) → (k : Nat) → Byte

/-- Key derivation of R390 (HKDF-SHA-256 over P-256; log entry 9). -/
opaque deriveKey : (seed : BitVec 256) → (info : List Byte) → BitVec 256

/-- The random draw of a provisioning image (R391). -/
opaque randomSeed : Nat → BitVec 256

/-- SHA-256 of each OTP key slot's public key (R389). -/
opaque otpKeyHash : Nat → BitVec 256

/-- Shipped contents of the 64 MiB flash (log entry 8). -/
opaque shippedFlash : Nat → Byte

/-- The blower's duty in % and its speed, which the device sets from the hottest junction (R418) by a map the spec does not give. -/
opaque blowerDuty : (tempC : Nat) → Nat
opaque blowerRpm : (duty : Nat) → Nat

/-- Shipped and provisioned values (log entry 8): node identifier, base MAC address, SVN of the shipped image, cooling
variant from straps, calibrated power floor, active seed. -/
opaque shippedNodeId : W32
opaque shippedMacBase : BitVec 48
opaque shippedSvn : BitVec 8
opaque strapVariant : BitVec 2
opaque powerFloorW : BitVec 16
opaque shippedSeed : BitVec 256
opaque bootRomDigest : BitVec 256

/-- A sample of the picture that a decoder makes (R336), and whether a syntax error loses it: functions of the codec's inputs (log entry 15). -/
opaque codecSample : List Nat → Nat → BitVec 10
opaque codecLost : List Nat → Nat → Bool
/-- The bytes and the size of a unit of an encoded picture, fixed functions of its record and its stream state, and whether a zero byte leads
its start code (R338; log entry 15). -/
opaque codecBytes : List Nat → Nat → Byte
opaque codecSize : List Nat → Nat
opaque zeroByte : List Nat → Bool
/-- Whether a picture's size, rate and bits lie within a level of a codec, 10 times its number (R332; log entry 15). -/
opaque withinLevel : (codec level width height fpsMilli bitrate : Nat) → Bool

end Sys2Proof.Config

namespace Sys2Proof

/-- Frames of device memory (R172). -/
def nFrames : Nat := 4718592
/-- Frames of one stack (R172). -/
def framesPerStack : Nat := 589824
/-- Reserved frames at the top of each stack (R177). -/
def reservedPerStack : Nat := 2496
/-- Entries of one LTA replica (R36). -/
def nLta : Nat := 8388608
/-- The admin queue's name in records and logs (R244). -/
def adminQid : Nat := 1048576
/-- One sweep period in FE cycles (R214). -/
def sweepPeriod : Nat := 102400
/-- The host aperture's first device address (R182). -/
def hostBase : Nat := 2 ^ 56
/-- The caravan window's first device address (R182). -/
def caravanBase : Nat := 2 ^ 55
/-- The end of the local range (R182). -/
def localEnd : Nat := 2 ^ 39

end Sys2Proof
end

