-- ==== Sys2Proof/Machine/Float.lean ====
section
/-! DEFINITION. Number formats and their arithmetic (spec 03): exact values as integers times powers of two, one rounding
on write-out, nearest-even or seeded stochastic, the MX scales, the ACC224 image, CRC-32C. -/

namespace Sys2Proof.Machine

/-- The value an element carries: NaN, an infinity (its sign), or exactly `m * 2^e` (R70, R71: both zeros are zero). -/
inductive FVal where
  | nan
  | inf (neg : Bool)
  | fin (m : Int) (e : Int)
  deriving DecidableEq, Repr

/-- A floating-point layout of R70: exponent and mantissa bits, bias, code of the largest finite magnitude, and whether it
holds infinities and NaN. -/
structure FFmt where
  exp : Nat
  man : Nat
  bias : Nat
  maxCode : Nat
  hasInf : Bool
  hasNan : Bool
  nanCode : Nat
  deriving DecidableEq, Repr

def fp32 : FFmt := ⟨8, 23, 127, 0x7F7FFFFF, true, true, 0x7FC00000⟩
def bf16 : FFmt := ⟨8, 7, 127, 0x7F7F, true, true, 0x7FC0⟩
def fp16 : FFmt := ⟨5, 10, 15, 0x7BFF, true, true, 0x7E00⟩
def e4m3 : FFmt := ⟨4, 3, 7, 0x7E, false, true, 0x7F⟩
def e5m2 : FFmt := ⟨5, 2, 15, 0x7B, true, true, 0x7E⟩
def e2m3 : FFmt := ⟨2, 3, 1, 0x1F, false, false, 0⟩
def e3m2 : FFmt := ⟨3, 2, 3, 0x1F, false, false, 0⟩
def e2m1 : FFmt := ⟨2, 1, 1, 0x7, false, false, 0⟩

/-- The floating-point layout of a format code (R69); the MX codes name their element format. -/
def fmtOf (code : Nat) : Option FFmt :=
  match code with
  | 0x00 => some fp32
  | 0x01 => some bf16
  | 0x02 => some fp16
  | 0x03 | 0x0A => some e4m3
  | 0x04 | 0x0B => some e5m2
  | 0x05 | 0x0C => some e2m3
  | 0x06 | 0x0D => some e3m2
  | 0x07 | 0x0E => some e2m1
  | _ => none

/-- Element width in bits of a format code (R69). -/
def elemBits (code : Nat) : Nat :=
  match code with
  | 0x00 | 0x09 => 32
  | 0x01 | 0x02 => 16
  | 0x05 | 0x06 | 0x0C | 0x0D => 6
  | 0x07 | 0x0E => 4
  | 0x10 => 256
  | _ => 8

def isMx (code : Nat) : Bool := decide (0x0A ≤ code) && decide (code ≤ 0x0F)

/-- Formats whose products go to the long accumulator (R75). -/
def isLongFmt (code : Nat) : Bool :=
  (decide (0x03 ≤ code) && decide (code ≤ 0x08)) || isMx code

/-- Pairings that a matrix operation may take (R69). -/
def pairOk (a b : Nat) : Bool :=
  let narrow := fun c => (decide (0x03 ≤ c) && decide (c ≤ 0x07)) || (decide (0x0A ≤ c) && decide (c ≤ 0x0E))
  let int := fun c => c == 0x08 || c == 0x0F
  (a == 1 && b == 1) || (a == 2 && b == 2) || (narrow a && narrow b) || (int a && int b)

/-- Value of an encoded floating-point element (R70). -/
def decodeF (f : FFmt) (w : Nat) : FVal :=
  let mag := w % 2 ^ (f.exp + f.man)
  let neg := bitOf w (f.exp + f.man)
  let e := mag / 2 ^ f.man
  let m := mag % 2 ^ f.man
  let sgn : Int := if neg then -1 else 1
  let umin : Int := 1 - (f.bias : Int) - (f.man : Int)
  if f.hasInf && e == 2 ^ f.exp - 1 then (if m == 0 then .inf neg else .nan)
  else if f.hasNan && !f.hasInf && mag == 2 ^ (f.exp + f.man) - 1 then .nan
  else if e == 0 then .fin (sgn * (m : Int)) umin
  else .fin (sgn * ((m + 2 ^ f.man : Nat) : Int)) (umin + (e : Int) - 1)

/-- `m * 2^k` for an integer exponent, rounded toward minus infinity where `k` is negative. -/
def shiftI (m : Int) (k : Int) : Int :=
  if 0 ≤ k then m * ((2 ^ k.toNat : Nat) : Int) else m / ((2 ^ (-k).toNat : Nat) : Int)

/-- Exact sum of two finite values. -/
def addF (m1 e1 m2 e2 : Int) : Int × Int :=
  if e1 ≤ e2 then (m1 + shiftI m2 (e2 - e1), e1) else (shiftI m1 (e1 - e2) + m2, e2)

/-- The exact result of a sum with IEEE 754 special values. -/
def fvAdd : FVal → FVal → FVal
  | .nan, _ => .nan
  | _, .nan => .nan
  | .inf a, .inf b => if a = b then .inf a else .nan
  | .inf a, .fin _ _ => .inf a
  | .fin _ _, .inf b => .inf b
  | .fin m1 e1, .fin m2 e2 => let (m, e) := addF m1 e1 m2 e2; .fin m e

def fvNeg : FVal → FVal
  | .nan => .nan
  | .inf a => .inf (!a)
  | .fin m e => .fin (-m) e

def fvAbs : FVal → FVal
  | .nan => .nan
  | .inf _ => .inf false
  | .fin m e => .fin (m.natAbs : Int) e

/-- The exact product with special values: infinity times zero is NaN. -/
def fvMul : FVal → FVal → FVal
  | .nan, _ => .nan
  | _, .nan => .nan
  | .inf a, .inf b => .inf (a != b)
  | .inf a, .fin m _ => if m = 0 then .nan else .inf (a != decide (m < 0))
  | .fin m _, .inf b => if m = 0 then .nan else .inf (b != decide (m < 0))
  | .fin m1 e1, .fin m2 e2 => .fin (m1 * m2) (e1 + e2)

/-- Exact comparison of finite values: -1, 0 or 1 by the sign of the difference. -/
def cmpF (m1 e1 m2 e2 : Int) : Int := (addF m1 e1 (-m2) e2).1.sign

/-- Whether a value is strictly below another; false with a NaN. -/
def fvLt : FVal → FVal → Bool
  | .nan, _ => false
  | _, .nan => false
  | .inf a, .inf b => a && !b
  | .inf a, .fin _ _ => a
  | .fin _ _, .inf b => !b
  | .fin m1 e1, .fin m2 e2 => decide (cmpF m1 e1 m2 e2 < 0)

def fvEq : FVal → FVal → Bool
  | .nan, _ => false
  | _, .nan => false
  | .inf a, .inf b => a == b
  | .fin m1 e1, .fin m2 e2 => decide (cmpF m1 e1 m2 e2 = 0)
  | _, _ => false

/-- How a write-out rounds: to nearest-even, or by the 16 key bits of R84. -/
inductive Rounding where
  | rne
  | stochastic (r : Nat)
  deriving DecidableEq, Repr

/-- Round a non-negative `n / 2^k` to an integer (R83, R84). -/
def roundShift (n k : Nat) : Rounding → Nat
  | .rne =>
    let q := n / 2 ^ k
    let r := n % 2 ^ k
    if 2 * r > 2 ^ k || (2 * r == 2 ^ k && q % 2 == 1) then q + 1 else q
  | .stochastic key =>
    let q := n / 2 ^ k
    let r := n % 2 ^ k
    if (r * 65536) / 2 ^ k + key ≥ 65536 then q + 1 else q

/-- Condition bits that a conversion raises, in the bit places of the arithmetic flags word (R88). -/
abbrev AFlags := Nat
def flScaleLow : AFlags := 1
def flScaleHigh : AFlags := 2
def flOutScale : AFlags := 4
def flNan : AFlags := 8
def flInf : AFlags := 16
def flOverflow : AFlags := 32
def flNanZero : AFlags := 64
def flMxSat : AFlags := 128
def flUnderflow : AFlags := 256
def flFp32Ovf : AFlags := 512

/-- The magnitude code of `n * 2^e` (n > 0) in a format with an unbounded exponent range: mantissa count above the
subnormal unit. Codes above `maxCode` overflow. -/
def roundMag (f : FFmt) (n : Nat) (e : Int) (r : Rounding) : Nat :=
  let umin : Int := 1 - (f.bias : Int) - (f.man : Int)
  let u0 : Int := e + (n.log2 : Int) - (f.man : Int)
  let u : Int := if u0 < umin then umin else u0
  let q : Nat := if e < u then roundShift n (u - e).toNat r else n * 2 ^ (e - u).toNat
  (u - umin).toNat * 2 ^ f.man + q

/-- The sign bit of a format. -/
def signBit (f : FFmt) (neg : Bool) : Nat := if neg then 2 ^ (f.exp + f.man) else 0

/-- Write-out of a value to a floating-point format (R86): the code and the flags raised. -/
def encodeF (f : FFmt) (sat : Bool) (r : Rounding) : FVal → Nat × AFlags
  | .nan => if f.hasNan then (f.nanCode, flNan) else (0, flNan ||| flNanZero)
  | .inf neg =>
    if sat || !f.hasNan then (signBit f neg + f.maxCode, flInf)
    else if f.hasInf then (signBit f neg + (2 ^ f.exp - 1) * 2 ^ f.man, flInf)
    else (f.nanCode, flInf ||| flNan)
  | .fin m e =>
    if m = 0 then (0, 0)
    else
      let neg := decide (m < 0)
      let c := roundMag f m.natAbs e r
      if c = 0 then (0, flUnderflow)
      else if c ≤ f.maxCode then (signBit f neg + c, 0)
      else if sat || !f.hasNan then (signBit f neg + f.maxCode, flOverflow)
      else if f.hasInf then (signBit f neg + (2 ^ f.exp - 1) * 2 ^ f.man, flOverflow ||| flInf)
      else (f.nanCode, flOverflow ||| flNan)

/-- Write-out to a two's-complement integer of `n` bits: saturates whatever SAT says (R86). `scale` shifts the value
left first (6 for MXINT8 elements, R73; 0 otherwise). -/
def encodeI (n : Nat) (scale : Nat) (r : Rounding) : FVal → Nat × AFlags
  | .nan => (0, flNan ||| flNanZero)
  | .inf neg => (if neg then 2 ^ (n - 1) else 2 ^ (n - 1) - 1, flInf)
  | .fin m e0 =>
    let e := e0 + (scale : Int)
    let k := m.natAbs
    let q : Nat := if e < 0 then roundShift k (-e).toNat r else k * 2 ^ e.toNat
    if m = 0 then (0, 0)
    else if q = 0 then (0, flUnderflow)
    else if m < 0 then
      (if q ≤ 2 ^ (n - 1) then (unsignedOf n (-(q : Int)), 0) else (2 ^ (n - 1), flOverflow))
    else (if q < 2 ^ (n - 1) then (q, 0) else (2 ^ (n - 1) - 1, flOverflow))

/-- Write-out of a value in a plain (not MX, not ACC224) format (R83 to R86). -/
def encodeVal (code : Nat) (sat : Bool) (r : Rounding) (v : FVal) : Nat × AFlags :=
  match fmtOf code with
  | some f => encodeF f sat r v
  | none => if code == 0x09 then encodeI 32 0 r v else encodeI 8 0 r v

/-- Element value of a format code: floats by R70, integers by R72, MXINT8 as the integer times 2^-6 (R73). -/
def decodeElem (code w : Nat) : FVal :=
  match fmtOf code with
  | some f => decodeF f w
  | none =>
    if code == 0x09 then .fin (signed 32 w) 0
    else if code == 0x0F then .fin (signed 8 w) (-6)
    else .fin (signed 8 w) 0

/-- The scale an E8M0 code applies and the flag it raises (R74); `none` is NaN. -/
def mxScale (c : Nat) : Option Int × AFlags :=
  if c == 255 then (none, flNan)
  else if c < 96 then (some (-31), flScaleLow)
  else if c ≤ 158 then (some ((c : Int) - 127), 0)
  else (some 31, flScaleHigh)

/-- A value times its block's scale. -/
def scaled (v : FVal) (s : Option Int) : FVal :=
  match s, v with
  | none, _ => .nan
  | some k, .fin m e => .fin m (e + k)
  | some _, w => w

/-! FP32, FP16 and BF16 vector arithmetic (R89): the exact result rounded once. -/

/-- Flags that an FP32 result raises (R88): NaN and infinity seen, and overflow of a finite exact result. -/
def fp32Flags (v : FVal) (code : Nat) : AFlags :=
  match v with
  | .nan => flNan
  | .inf _ => flInf
  | .fin _ _ => if decodeF fp32 code = .inf false || decodeF fp32 code = .inf true then flFp32Ovf ||| flInf else 0

/-- Round an exact value to FP32 (R89). -/
def toFp32 (v : FVal) : Nat := (encodeF fp32 false .rne v).1
/-- An FP32 code as the device writes it: the canonical NaN, and +0 for both zeros (R71). A free FP32 value is held to it. -/
def canon32 (w : Nat) : Nat := toFp32 (decodeF fp32 w)
/-- Round an exact value to FP16, and to BF16 by way of FP32 (R89). -/
def toFp16 (v : FVal) : Nat := (encodeF fp16 false .rne v).1
def toBf16 (v : FVal) : Nat := (encodeF bf16 false .rne (decodeF fp32 (toFp32 v))).1

def fadd (a b : Nat) : Nat := toFp32 (fvAdd (decodeF fp32 a) (decodeF fp32 b))
def fsub (a b : Nat) : Nat := toFp32 (fvAdd (decodeF fp32 a) (fvNeg (decodeF fp32 b)))
def fmul (a b : Nat) : Nat := toFp32 (fvMul (decodeF fp32 a) (decodeF fp32 b))
/-- Fused multiply-add, one rounding (R89). -/
def ffma (a b c : Nat) : Nat :=
  toFp32 (fvAdd (fvMul (decodeF fp32 a) (decodeF fp32 b)) (decodeF fp32 c))

/-- Minimum and maximum: the non-NaN operand when exactly one is NaN (R89). -/
def fvMin (a b : FVal) : FVal :=
  match a, b with
  | .nan, y => y
  | x, .nan => x
  | x, y => if fvLt y x then y else x
def fvMax (a b : FVal) : FVal :=
  match a, b with
  | .nan, y => y
  | x, .nan => x
  | x, y => if fvLt x y then y else x

/-- Integer square root by bits, `k` of them: the largest `r < 2^k` above the accumulated one with `r^2 ≤ n`. -/
def isqrtBits (n : Nat) : (k acc : Nat) → Nat
  | 0, acc => acc
  | k + 1, acc =>
    let t := acc + 2 ^ k
    isqrtBits n k (if t * t ≤ n then t else acc)

/-- Correctly rounded FP32 square root (R104): a root of 40 or more bits with a sticky bit, rounded once. -/
def fsqrt (a : Nat) : Nat :=
  match decodeF fp32 a with
  | .nan => fp32.nanCode
  | .inf neg => if neg then fp32.nanCode else 0x7F800000
  | .fin m e =>
    if m < 0 then fp32.nanCode
    else if m = 0 then 0
    else
      let k : Nat := if e % 2 = 0 then 80 else 81
      let n := m.natAbs * 2 ^ k
      let r := isqrtBits n 56 0
      let sticky : Int := if r * r = n then 0 else 1
      toFp32 (.fin (2 * (r : Int) + sticky) ((e - (k : Int)) / 2 - 1))

/-- Exact test that FP32 code `c` lies within 1 ulp (the spacing of `c`) of `1 / x`, for finite non-zero x = m * 2^e. -/
def rcpWithinUlp (m e : Int) (c : Nat) : Bool :=
  match decodeF fp32 c with
  | .fin mc ec =>
    -- | c * x - 1 | ≤ 2^ec * | x |
    match fvAdd (.fin (mc * m) (ec + e)) (.fin (-1) 0) with
    | .fin md ed => !fvLt (.fin (m.natAbs : Int) (ec + e)) (.fin (md.natAbs : Int) ed)
    | _ => false
  | _ => false

/-- Exact test that a positive FP32 code lies within 1 ulp of `1 / sqrt x`, for finite positive x = m * 2^e. -/
def rsqWithinUlp (m e : Int) (c : Nat) : Bool :=
  match decodeF fp32 c with
  | .fin mc ec =>
    !fvLt (.fin 1 0) (.fin ((mc - 1) * (mc - 1) * m) (2 * ec + e))
      && !fvLt (.fin ((mc + 1) * (mc + 1) * m) (2 * ec + e)) (.fin 1 0)
  | _ => false

/-! The long accumulator (R75 to R79). VALUE is a 224-bit two's-complement number of units of 2^-94. -/

/-- The VALUE of an image as an integer. -/
def accValue (img : Nat) : Int := signed 224 img

/-- An image from its value and its NAN, POS_INF and NEG_INF bits. -/
def accImage (v : Int) (fl : Nat) : Nat := unsignedOf 224 v + (fl % 8) * 2 ^ 224

/-- The flag bits of an image: an image read with a non-zero reserved bit counts as NAN (R79). -/
def accFlags (img : Nat) : Nat :=
  let fl := field img 224 3
  if field img 227 29 = 0 then fl else fl ||| 1

/-- One product added to a long accumulator (R75, R78): value and flag bits. -/
def accAdd (acc : Int × Nat) (p : FVal) : Int × Nat :=
  match p with
  | .nan => (acc.1, acc.2 ||| 1)
  | .inf neg => (acc.1, acc.2 ||| (if neg then 4 else 2))
  | .fin m e => (acc.1 + shiftI m (e + 94), acc.2)

/-- Two partial images combined (R79). -/
def accCombine (a b : Nat) : Nat := accImage (accValue a + accValue b) (accFlags a ||| accFlags b)

/-- The exact value a long accumulator holds (R78: both infinities count as NaN). -/
def accVal (img : Nat) : FVal :=
  let fl := accFlags img
  if bitOf fl 0 || (bitOf fl 1 && bitOf fl 2) then .nan
  else if bitOf fl 1 then .inf false
  else if bitOf fl 2 then .inf true
  else .fin (accValue img) (-94)

/-- One k-block of the FP32 accumulation (R80): the exact sum of the accumulator and the products, rounded once. -/
def fp32Block (acc : Nat) (prods : List FVal) : Nat :=
  toFp32 (prods.foldl fvAdd (decodeF fp32 acc))

/-- One level of the canonical tree (R81). -/
def treeLevel : List Nat → List Nat
  | a :: b :: r => fadd a b :: treeLevel r
  | l => l

/-- The root of the canonical tree over chunk results (R81); `fuel` bounds the levels. -/
def treeRoot : (fuel : Nat) → List Nat → Nat
  | _, [] => 0
  | _, [a] => a
  | 0, a :: _ => a
  | n + 1, l => treeRoot n (treeLevel l)

/-! Stochastic rounding keys (R84). -/

def mix64 (z0 : W64) : W64 :=
  let z1 := (z0 ^^^ (z0 >>> 30)) * 0xBF58476D1CE4E5B9#64
  let z2 := (z1 ^^^ (z1 >>> 27)) * 0x94D049BB133111EB#64
  z2 ^^^ (z2 >>> 31)

/-- The 16 key bits of an output element. -/
def srBits (seed : W64) (tensor row col : Nat) : Nat :=
  let h := mix64 (seed ^^^ BitVec.ofNat 64 tensor)
  (mix64 (h ^^^ BitVec.ofNat 64 ((row % 2 ^ 32) * 2 ^ 32 + col % 2 ^ 32)) >>> 48).toNat

/-! MX write-out (R87). -/

/-- Floor of log2 of a finite non-zero magnitude. -/
def log2F (m e : Int) : Int := e + (m.natAbs.log2 : Int)

/-- The exponent offset `e` of R87 for an MX format code. -/
def mxEmax (code : Nat) : Int :=
  match code with
  | 0x0A => 8
  | 0x0B => 15
  | 0x0C => 2
  | 0x0D => 4
  | 0x0E => 2
  | _ => 0

/-- An MX block of values written out: the element codes, the scale code and the flags. Rounding is given per element. A saturated
element raises MX_ELEM_SAT and not OVERFLOW too (DESIGN CHOICE, log entry 86). -/
def encodeMx (code : Nat) (vals : List (FVal × Rounding)) : List Nat × Nat × AFlags :=
  let special := vals.foldl (fun fl p => match p.1 with
    | .nan => fl ||| flNan
    | .inf _ => fl ||| flInf
    | .fin _ _ => fl) 0
  if special ≠ 0 then (vals.map (fun _ => 0), 255, special)
  else
    let top := vals.foldl (fun (o : Option Int) p => match p.1 with
      | .fin m e => if m = 0 then o else
          match o with
          | none => some (log2F m e)
          | some t => some (if t < log2F m e then log2F m e else t)
      | _ => o) none
    match top with
    | none => (vals.map (fun _ => 0), 127, 0)
    | some t =>
      let s0 := t - mxEmax code
      let s : Int := if s0 < -31 then -31 else if 31 < s0 then 31 else s0
      let f0 := if s = s0 then 0 else flOutScale
      let enc := vals.map (fun p => match p.1 with
        | .fin m e => (match fmtOf code with
            | some f => encodeF f true p.2 (.fin m (e - s))
            | none => encodeI 8 6 p.2 (.fin m (e - s)))
        | _ => (0, 0))
      let fl := enc.foldl (fun a p => a ||| (if p.2 &&& flOverflow ≠ 0 then flMxSat else 0) ||| (p.2 &&& flUnderflow)) f0
      (enc.map (·.1), (s + 127).toNat, fl)

/-! CRC-32C, reflected, initial value and final XOR all ones (R39, R330). -/

def crcBits : (n : Nat) → W32 → W32
  | 0, c => c
  | n + 1, c => crcBits n (if c.getLsbD 0 then (c >>> 1) ^^^ 0x82F63B78#32 else c >>> 1)

def crcByte (c : W32) (b : Byte) : W32 := crcBits 8 (c ^^^ b.setWidth 32)

def crc32c (bs : List Byte) : W32 := (bs.foldl crcByte 0xFFFFFFFF#32) ^^^ 0xFFFFFFFF#32

end Sys2Proof.Machine
end

