-- ==== Sys2Proof/Machine/Map.lean ====
section
/-! DEFINITION. Sparse tables as plain data: lists of (key, value) pairs in one canonical form, keys strictly rising
and no entry equal to what an unlisted key reads as. Memories, register files and tables of records are such lists. -/

namespace Sys2Proof.Machine

/-- A sparse table with number keys. -/
abbrev Map (α : Type) := List (Nat × α)

/-- The value at a key; an unlisted key reads as `d`. -/
def mget {α : Type} (m : Map α) (d : α) (k : Nat) : α :=
  match m with
  | [] => d
  | (k', v) :: r => if k' = k then v else mget r d k

/-- The value at a key, if one is listed. -/
def mfind {α : Type} (m : Map α) (k : Nat) : Option α :=
  match m with
  | [] => none
  | (k', v) :: r => if k' = k then some v else mfind r k

/-- The table without a key. -/
def mdel {α : Type} (m : Map α) (k : Nat) : Map α :=
  match m with
  | [] => []
  | (k', v) :: r => if k' = k then mdel r k else (k', v) :: mdel r k

/-- The table with a key listed at a value, in rising order of keys. -/
def mins {α : Type} (m : Map α) (k : Nat) (v : α) : Map α :=
  match m with
  | [] => [(k, v)]
  | (k', v') :: r =>
    if k < k' then (k, v) :: (k', v') :: r
    else if k' = k then (k, v) :: r
    else (k', v') :: mins r k v

/-- Write a value at a key; writing what an unlisted key reads as removes the entry. -/
def mset {α : Type} [DecidableEq α] (m : Map α) (d : α) (k : Nat) (v : α) : Map α :=
  if v = d then mdel m k else mins m k v

/-- Apply a function to every listed value. -/
def mmap {α : Type} (m : Map α) (f : Nat → α → α) : Map α := m.map (fun p => (p.1, f p.1 p.2))

/-- The table without the entries a test selects. -/
def mdrop {α : Type} (m : Map α) (p : Nat → α → Bool) : Map α := m.filter (fun e => !(p e.1 e.2))

/-- The keys of the entries that a test selects, in rising order. -/
def mkeys {α : Type} (m : Map α) (p : Nat → α → Bool) : List Nat :=
  (m.filter (fun e => p e.1 e.2)).map (·.1)

/-- The keys rise strictly. -/
def mrising {α : Type} : Map α → Bool
  | [] => true
  | [_] => true
  | (k, _) :: (k', v') :: r => decide (k < k') && mrising ((k', v') :: r)

/-- The canonical form: rising keys, no entry equal to what an unlisted key reads as. -/
def mwf {α : Type} [DecidableEq α] (m : Map α) (d : α) : Bool :=
  mrising m && m.all (fun e => decide (e.2 ≠ d))

/-- The lowest key from `k` on, of at most `fuel` tried, that the table does not list. -/
def mfresh {α : Type} (m : Map α) : (fuel k : Nat) → Option Nat
  | 0, _ => none
  | n + 1, k => match mfind m k with
    | none => some k
    | some _ => mfresh m n (k + 1)

/-- `n` bytes read from `a` on, an unlisted byte reading as 0. -/
def bytesAt (m : Map Byte) : (n a : Nat) → List Byte
  | 0, _ => []
  | n + 1, a => mget m 0 a :: bytesAt m n (a + 1)

/-- Bytes written from `a` on. -/
def putBytes (m : Map Byte) (a : Nat) : List Byte → Map Byte
  | [] => m
  | b :: bs => putBytes (mset m 0 a b) (a + 1) bs

/-- The table without the keys from `a` to `a + n - 1`: those bytes read as zero. -/
def zeroRange {α : Type} (m : Map α) (a n : Nat) : Map α :=
  m.filter (fun e => !(decide (a ≤ e.1) && decide (e.1 < a + n)))

end Sys2Proof.Machine
end

