-- ==== Sys2Proof/Machine/State.lean ====
section
/-! DEFINITION. The state of the block as plain data, the reasons a command can stop, and the state right after reset.
Tables are canonical sparse lists (Machine/Map.lean). Each structure names the rules that give its fields. -/

namespace Sys2Proof.Machine

/-- The block raises no fault of the model: every fault of the spec is state (records, interrupts, ended launches). -/
inductive Fault where
  /-- Raised by no meaning. Safe: it never stops a command. -/
  | none
  deriving DecidableEq, Repr

/-- Why a command is refused. -/
inductive Refusal where
  /-- Raised by a dispatch arm whose command has no meaning yet. Safe: the model stops. -/
  | notModelled (mnemonic : String)
  /-- Raised by a core instruction row whose word has a reserved code or field, or is another row's word: R122 keeps such
  a word out of every program, so the spec gives it no effect. Safe: the model stops. -/
  | reservedWord
  deriving DecidableEq, Repr

/-! ## Plan containers (R39 to R46, R91, R121, R124, R137, R144, R200 to R206, R259, R302, R303) -/

/-- Step record (R42). -/
structure StepRec where
  graphics : Bool := false
  cross : Bool := false
  wcet : Nat := 0
  slipFirst : Nat := 0
  slipCount : Nat := 0
  code : Nat := 0
  xfer : Nat := 0
  resFirst : Nat := 0
  resCount : Nat := 0
  claim : Nat := 0
  unplanned : Nat := 0
  deriving DecidableEq, Repr

/-- Slip record (R43). -/
structure SlipRec where
  step : Nat
  offset : Nat
  live : Nat
  map : Nat
  deriving DecidableEq, Repr

/-- Resource record (R44). -/
structure ResRec where
  kind : Nat
  id : Nat
  count : Nat
  acquire : Nat
  release : Nat
  deriving DecidableEq, Repr

/-- Cost record (R45). -/
structure CostRec where
  cycles : Nat
  bytes : Nat
  energy : Nat
  deriving DecidableEq, Repr

/-- Envelope record (R46); an undeclared bound is `none`. -/
structure Envelope where
  prims : Option Nat := none
  overdraw : Option Nat := none
  seq : Option Nat := none
  batch : Option Nat := none
  deriving DecidableEq, Repr

/-- Program record with its code (R121). -/
structure Prog where
  words : List W128 := []
  lgs : Nat := 0
  tile64k : Nat := 0
  deriving DecidableEq, Repr

/-- Transfer record (R201). -/
structure XferRec where
  dir : Nat := 0
  auto : Bool := false
  afterEn : Bool := false
  rel : Nat := 0
  core : Nat := 0
  dstCore : Nat := 0
  slot : Nat := 0
  memOff : Nat := 0
  ts : Nat := 0
  ts2 : Nat := 0
  rowBytes : Nat := 64
  rows : Nat := 1
  memStride : Nat := 0
  tsStride : Nat := 0
  startAt : Nat := 0
  after : Nat := 0
  deriving DecidableEq, Repr

/-- Range-list record (R205). -/
structure RangeRec where
  rel : Nat
  core : Nat
  start : Nat
  len : Nat
  deriving DecidableEq, Repr

/-- Reduction node record (R206). -/
structure NodeRec where
  combine : Bool
  rel : Nat
  core : Nat
  step : Nat
  kStart : Nat
  kEnd : Nat
  a : Nat
  b : Nat
  deriving DecidableEq, Repr

/-- Directory entry of TRANSFERS with its records (R200). -/
structure DirRec where
  kind : Nat := 1
  cdcCfg : Option Nat := none
  xfers : List XferRec := []
  ranges : List RangeRec := []
  nodes : List NodeRec := []
  deriving DecidableEq, Repr

/-- Reduction record (R91). -/
structure RedRec where
  tensor : Nat
  k : Nat
  mode : Nat
  fmt : Nat
  stochastic : Bool
  sat : Bool
  node : Nat
  parts : Nat
  deriving DecidableEq, Repr

/-- Attachment record (R144). -/
structure Attach where
  layout : Nat
  loadOp : Nat
  storeOp : Nat
  blend : Bool
  argSurface : Nat
  argResolve : Nat
  st : Nat
  clear : Nat
  pitch : Nat
  deriving DecidableEq, Repr

/-- Sampler record (R137). -/
structure Sampler where
  argTex : Nat
  layout : Nat
  filter : Nat
  addrU : Nat
  addrV : Nat
  planned : Bool
  levels : Nat
  width : Nat
  height : Nat
  uvAttr : Nat
  minLod : Nat
  maxLod : Nat
  lodBias : Nat
  deriving DecidableEq, Repr

/-- Pass descriptor with its attachments, samplers and tile map (R124). -/
structure PassRec where
  step : Nat := 0
  binned : Bool := false
  network : Bool := false
  samplesLog2 : Nat := 0
  shape : Nat := 0
  halo : Nat := 0
  width : Nat := 1
  height : Nat := 1
  footBlocks : Nat := 0
  submitMax : Nat := 0
  tileEntries : Nat := 0
  binEntries : Nat := 0
  argDraws : Nat := 0
  argBins : Nat := 0
  argPrims : Nat := 0
  cull : Nat := 0
  frontCw : Bool := false
  depthClamp : Bool := false
  vin : Nat := 4
  vout : Nat := 16
  footBase : Nat := 0
  stageBase : Nat := 0
  scratchBase : Nat := 0
  scratchBytes : Nat := 0
  netBase : Nat := 0
  netBytes : Nat := 0
  keepMap : Nat := 0
  keepBytes : Nat := 0
  attach : List Attach := []
  samplers : List Sampler := []
  tileMap : List Nat := []
  deriving DecidableEq, Repr

/-- Model record (R259). -/
structure ModelRec where
  id : Nat
  slot : Nat
  base : Nat
  bytes : Nat
  deriving DecidableEq, Repr

/-- Menu record (R259). -/
structure MenuRec where
  slot : Nat
  chunk : Nat
  cap : Nat
  deriving DecidableEq, Repr

/-- Claim record (R204). -/
structure ClaimRec where
  near : Nat
  far : Nat
  deriving DecidableEq, Repr

/-- Peer record (R302). -/
structure PeerRec where
  slot : Nat
  rate400 : Bool
  hopsMax : Nat
  switchNs : Nat
  deriving DecidableEq, Repr

/-- Send record (R302). -/
structure SendRec where
  table : Nat
  record : Nat
  peer : Nat
  counter : Option Nat
  deriving DecidableEq, Repr

/-- Wait record (R302). -/
structure WaitRec where
  step : Nat
  slot : Nat
  counter : Nat
  expect : Nat
  budget : Nat
  deriving DecidableEq, Repr

/-- Place record (R302). -/
structure PlaceRec where
  list : Nat
  record : Nat
  peer : Nat
  deriving DecidableEq, Repr

/-- A validated plan container, section by section (R39 to R46). -/
structure Plan where
  totalBytes : Nat := 64
  regionCount : Nat := 1
  singleDie : Bool := false
  lc : Bool := false
  be : Bool := false
  render : Bool := false
  spans : Bool := false
  stochastic : Bool := false
  peakPower : Nat := 0
  seed : W64 := 0
  planId : Nat := 0
  steps : List StepRec := []
  /-- Program records of each step-code record (R121). -/
  code : List (List Prog) := []
  dirs : List DirRec := []
  /-- Placement table of SLOT_CLAIMS, empty without the section (R204). -/
  place : List Nat := []
  claims : List ClaimRec := []
  slips : List SlipRec := []
  res : List ResRec := []
  costs : List CostRec := []
  env : Envelope := {}
  passes : List PassRec := []
  models : List ModelRec := []
  menu : List MenuRec := []
  peers : List PeerRec := []
  sends : List SendRec := []
  waits : List WaitRec := []
  places : List PlaceRec := []
  reds : List RedRec := []
  /-- Highest tile-store byte its static addresses reach (R258). -/
  tsTop : Nat := 0
  /-- Largest stretches in core cycles, for an LC and for a BE launch (R47, R151, R152, R251), and the largest live set of a graphics
  point (R152). -/
  stretchLc : Nat := 0
  stretchBe : Nat := 0
  gfxLive : Nat := 0
  deriving DecidableEq, Repr

/-- A stored plan version (R239). -/
structure PlanVer where
  ctx : Nat
  slot : Nat
  num : Nat
  plan : Plan
  /-- Segment pages that carry the container, held at WRITABLE 0. -/
  firstPage : Nat
  pages : Nat
  /-- Still the slot's version (false once freed by PLAN_FREE). -/
  stored : Bool := true
  deriving DecidableEq, Repr

/-! ## Cores, regions and CDCs (04 to 06) -/

/-- Accumulator mode (R109). -/
inductive AccMode where
  | none | long | fp32
  deriving DecidableEq, Repr

/-- What a lane group is doing (R97, R103, R113, R118). -/
inductive LgState where
  | running
  | ended
  | atBar
  | atSlip (slip resume : Nat)
  | onSem
  deriving DecidableEq, Repr

/-- One 2x2 quad of a fragment item (R143): its corner, the coverage masks of its four pixels, its primitive. -/
structure Quad where
  x : Nat
  y : Nat
  cover : List Nat
  deriving DecidableEq, Repr

/-- A draw record (R126). -/
structure Draw where
  idx : Nat
  prims : Nat
  strip : Bool
  wide : Bool
  vtx : Nat
  count : Nat
  deriving DecidableEq, Repr

/-- A primitive that survived setup (R133): its SEQ, its draw and its three output vertices. -/
structure Prim where
  seq : Nat
  draw : Nat
  vtx : List (List W32)
  deriving DecidableEq, Repr

/-- A graphics item (R146): kind 0 vertex, 1 fragment, 2 network. `num` is a vertex item's first vertex in its batch, or a fragment
item's number in its tile. -/
structure GItem where
  kind : Nat
  pass : Nat
  draw : Nat := 0
  tile : Nat := 0
  num : Nat := 0
  seq : Nat := 0
  /-- Vertex indices of a vertex item; none for an empty lane. -/
  verts : List (Option Nat) := []
  quads : List Quad := []
  /-- The primitive's snapped window polygon and its three output vertices. -/
  poly : List (Int × Int) := []
  vtx : List (List W32) := []
  /-- FOUT colours, key `16*lane + 4... ` as `lane*64 + attachment*4 + channel`; depth at `lane*64 + 32`. -/
  outs : Map W32 := []
  /-- Lanes that emitted colour per attachment, and depth (bit 8). -/
  wrote : Map W32 := []
  killed : W32 := 0
  /-- The lane group has passed a TWAIT in this item (R147); it stands at one; outputs of it have been blended. -/
  twaited : Bool := false
  atWait : Bool := false
  blended : Bool := false
  /-- Per lane, the covered samples that passed depth and stencil before shading, where they are tested then (R143). -/
  early : Option (List Nat) := Option.none
  /-- Place of a vertex item's inputs among those the staging windows hold. -/
  win : Nat := 0
  done : Bool := false
  deriving DecidableEq, Repr

/-- Lane-group state of R96. Vector register r of lane i stands at key `32*r + i`. -/
structure Lg where
  v : Map W32 := []
  s : Map W64 := []
  p : Map W32 := []
  pc : Nat := 0
  loops : Map Nat := []
  st : LgState := .running
  item : Option GItem := Option.none
  /-- The texel reads of a SAMPLE or USAMPLE in work, with what they have read (R158, R162). -/
  smp : Option (List (Option Nat)) := Option.none
  deriving DecidableEq, Repr

/-- A queued matrix or write-out operation (R110): its word and the scalar operands it captured at issue. -/
structure MatOp where
  seq : Nat
  lg : Nat
  w : W128
  a : Nat
  b : Nat
  c : Nat
  d : Nat
  /-- A write-out of a GRAPHICS step stays where its lane group may write at its issue (R147). -/
  allowed : Bool := true
  deriving DecidableEq, Repr

/-- A tile whose inputs are staged: its slot, its footprint buffer with the directory, and what its staging window streams (R141). -/
structure Staged where
  tile : Nat
  slot : Nat
  buf : Nat
  foot : List (List Nat)
  window : List Prim
  deriving DecidableEq, Repr

/-- Graphics state of a core (R127, R136, R141, R143, R149). -/
structure CoreGfx where
  /-- Passes of the step still to take, the current one first; `256 + i` is a fragment round of pass i (R136). -/
  passes : List Nat := []
  started : Bool := false
  /-- Owned tiles of the pass not yet staged, ascending, and how many are. -/
  tiles : List Nat := []
  count : Nat := 0
  /-- The next tile, staged while the current one is shaded (R141). -/
  next : Option Staged := Option.none
  cur : Option Nat := Option.none
  slot : Nat := 0
  /-- Fragment items of the current tile not yet delivered, and those delivered or finished, in SEQ order. -/
  todo : List GItem := []
  active : List GItem := []
  /-- SEQ of the last fragment item delivered (R152). -/
  lastSeq : Nat := 0
  /-- Lane groups that still receive the tile's network item; `netOn` once it is issued, `netNew` until its first GFX.NEXT. -/
  netLeft : List Nat := []
  netOn : Bool := false
  netNew : Bool := false
  writing : Option Nat := Option.none
  wslot : Nat := 0
  /-- Covered pixels counted on the current tile (R143). -/
  overdraw : Nat := 0
  /-- Footprint directory of the current tile: (sampler, level, row, column) of each staged block, and its buffer (R141). -/
  foot : List (List Nat) := []
  footBuf : Nat := 0
  deriving DecidableEq, Repr

/-- Core state (R96). The FP32 value of an accumulator stands in the low bits; element e of tile t at key `256*t + e`. -/
structure Core where
  lgs : Map Lg := []
  acc : Map (BitVec 256) := []
  mode : List AccMode := [.none, .none, .none, .none]
  ts : Map Byte := []
  matQ : List MatOp := []
  woQ : List MatOp := []
  nextOp : Nat := 0
  gfx : CoreGfx := {}
  deriving DecidableEq, Repr

/-- A CDC line that is CLEAN or DIRTY (R158). `home` is the device byte address of the line, or `2^56 +` its host address. -/
structure CLine where
  line : Nat
  dirty : Bool := false
  mask : W64 := 0
  data : W512 := 0
  home : Nat := 0
  deriving DecidableEq, Repr

/-- One lane's unplanned access waiting on a miss (R162): kind 0 load, 1 store, 2 lock-fill, 3 a sampler's texel read. `src` 0 to 3 is
the core in its cluster, 4 the sampler, which reads for core `user` and puts what it reads at `dst` of the reads its lane group waits
for. -/
structure UAcc where
  src : Nat
  lg : Nat
  kind : Nat
  va : Nat
  /-- Physical address of the line, translated when the access started (R187). -/
  home : Nat
  size : Nat
  lanes : List Nat
  dst : Nat
  data : W64 := 0
  way : Nat := 0
  user : Nat := 0
  /-- A context walk has passed since it took its translation: the line it fills does not stay (R168, R187). -/
  old : Bool := false
  deriving DecidableEq, Repr

/-- CDC state (R154 to R163). Line of way w and set s at key `256*w + s`. -/
structure Cdc where
  lines : Map CLine := []
  scratch : Map Byte := []
  lfsr : Nat := 0
  cfg : Nat := 0x10
  queue : List UAcc := []
  miss : Option (Nat × Nat) := Option.none
  rot : Nat := 0
  evict : List CLine := []
  /-- Accesses in work whose line has been refetched for a parity error: core, lane group, line (R169). -/
  refetch : List (Nat × Nat × Nat) := []
  deriving DecidableEq, Repr

/-- Region states of R265. -/
inductive RgnState where
  | inService | draining | out | testing | failed
  deriving DecidableEq, Repr

/-- A started transfer entry (R187, R202): its index in the step's table, the memory pieces it translated at its start. -/
structure Started where
  entry : Nat
  /-- (physical byte address, length) pieces in entry order. -/
  mem : List (Nat × Nat) := []
  write : Bool := false
  /-- A caravan entry: node, export and offset in it (R189). -/
  peer : Option (Nat × Nat × Nat) := Option.none
  /-- Where a host translation stopped: status, detail and device address (R198). -/
  stop : Option (Nat × Nat × Nat) := Option.none
  stamp : Nat := 0
  /-- The job that moves a caravan entry's bytes (R295). -/
  job : Nat := 0
  deriving DecidableEq, Repr

/-- A lane group waiting on a semaphore, in arrival order (R113). -/
structure SemWait where
  sem : Nat
  core : Nat
  lg : Nat
  n : Nat
  deriving DecidableEq, Repr

/-- Binning unit of a region (R133 to R136). -/
structure Geo where
  /-- Passes whose geometry the step runs, the current first. -/
  passes : List Nat := []
  active : Bool := false
  /-- The batch in work; with `wait` it is not gathered before the fragment round is over (R136). -/
  batch : Nat := 0
  wait : Bool := false
  /-- Vertex items of the batch not yet delivered, the number not yet finished, and whether any has been delivered. -/
  items : List GItem := []
  outstanding : Nat := 0
  begun : Bool := false
  /-- Output vertices of the batch, word k of vertex v at `64*v + k`. -/
  vout : Map W32 := []
  /-- Chunks, primitive records and bin entries in this region's part, since its pools were last empty. -/
  chunks : Nat := 0
  prims : Nat := 0
  entries : Nat := 0
  /-- The pool is full, with the primitives of finished batches that found no room; the fragment round it forces has begun (R136). -/
  full : Bool := false
  extra : List Prim := []
  round : Bool := false
  /-- Bin entries of the passes whose geometry is done here. -/
  past : Map Nat := []
  /-- Surviving primitives of DIRECT passes, with their pass (R135). -/
  direct : List (Nat × Prim) := []
  deriving DecidableEq, Repr

/-- Region state (04, 06, 09, 14). -/
structure Region where
  st : RgnState := .testing
  launch : Option Nat := Option.none
  rel : Nat := 0
  lastCtx : Option Nat := Option.none
  clear : Bool := true
  cycles : Nat := 0
  /-- Cycle count at step start or at the last resume, and the slip OFFSET it stands for (R202). -/
  base : Nat := 0
  offset : Nat := 0
  coreCerr : Nat := 0
  cdcCerr : Nat := 0
  sems : Map Nat := []
  waiters : List SemWait := []
  fifo : List Started := []
  started : List Nat := []
  done : List Nat := []
  /-- Entries issued that wait for their AFTER entry (R202). -/
  after : List Nat := []
  /-- Standing at pre-emption point: slip index, or the step boundary (`none` inside). -/
  held : Option Nat := Option.none
  /-- Slip points of the step already passed (R118, R252). -/
  passed : Nat := 0
  napping : Bool := false
  /-- Its self-test follows a RETURN (R262). -/
  returning : Bool := false
  /-- Its last report of a step's completion: core cycles, and the front end's stamp (R24). -/
  report : Nat := 0
  reportStamp : Nat := 0
  idleSince : Nat := 0
  geo : Geo := {}
  deriving DecidableEq, Repr

/-! ## Launches, serving and admission (02, 09) -/

/-- Phase of a launch from its release on. -/
inductive Phase where
  /-- Admitted (LC) or released (BE), waiting for regions. -/
  | waiting
  /-- On its regions, its models loading (R260). -/
  | loading
  /-- Waiting at the start of a CROSS_MODULE step (R303). -/
  | peerWait
  | running
  /-- Asked to yield: running to its next pre-emption point, or saving there (R252). -/
  | yielding
  /-- Displaced, its live set saved (R119). -/
  | displaced
  /-- Assigned regions again, its live set not yet written back (R253). -/
  | restoring
  /-- Ended: its descriptor waits for its completion. -/
  | ended
  deriving DecidableEq, Repr

/-- A saved live range (R119). -/
structure Saved where
  rel : Nat
  core : Nat
  start : Nat
  bytes : List Byte
  deriving DecidableEq, Repr

/-- Kinds of pre-emption point (R47, R118, R151). -/
inductive Point where
  | slip | boundary | graphics
  deriving DecidableEq, Repr

/-- Graphics progress of one relative region: its binning unit, and per core its tiles and the lane groups standing at NEXT. -/
structure GfxSaved where
  rel : Nat
  geo : Geo
  cores : List (CoreGfx × Map Lg)
  deriving DecidableEq, Repr

/-- Transfer entries of one relative region at the point where its launch stands, for its place after a restore (R202): those started
since the last slip point, those completed in the step, the slip points passed, and the OFFSET of the last. -/
structure RgnMark where
  rel : Nat
  started : List Nat
  done : List Nat
  passed : Nat
  offset : Nat
  deriving DecidableEq, Repr

/-- A launch (R245 to R264). -/
structure Launch where
  q : Nat := 0
  i : Nat := 0
  ctx : Nat := 0
  fn : Nat := 0
  tag : Nat := 0
  ver : Nat := 0
  lc : Bool := false
  /-- Continued as BE after an envelope excess (R60). -/
  asBe : Bool := false
  prio : Nat := 0
  deadline : Nat := 0
  release : Nat := 0
  translated : Bool := false
  args : List Nat := []
  group : Nat := 0
  regions : List Nat := []
  step : Nat := 0
  started : Nat := 0
  stepStamp : Nat := 0
  phase : Phase := .waiting
  /-- Where it stands displaced or held: a slip point, a step boundary or a graphics point (R119, R151). -/
  point : Point := .boundary
  slip : Nat := 0
  marks : List RgnMark := []
  /-- Graphics progress of the regions of a launch displaced at a graphics point (R151, R152). -/
  gsaved : List GfxSaved := []
  saved : List Saved := []
  /-- The stacks whose units hold saved bytes (R178, R254). -/
  savedOn : List Nat := []
  /-- Save-pool units reserved, those it has on each stack, and those of a lost stack not yet replaced (R177, R178, R256). -/
  units : Nat := 0
  unitsAt : List Nat := List.replicate 8 0
  lcUnits : Bool := false
  lostUnits : Nat := 0
  flags : Nat := 0
  excess : Nat := 0
  breach : Nat := 0
  prims : Nat := 0
  /-- Passes of which a fragment round has been shaded (R136). -/
  rounded : List Nat := []
  pins : List Nat := []
  batch : Nat := 0
  /-- SLICE has run out since the launch last started or resumed (R248). -/
  sliceOver : Bool := false
  /-- A bound or emergency event accounts for a late end of the current step (R62, R168). -/
  excused : Bool := false
  /-- FE cycles of the current step that the watch of R62 excludes: displaced, or beyond a BUDGET or a host charge (R203, R263). -/
  excl : Nat := 0
  /-- When it was saved and left its regions (R62). -/
  leftAt : Nat := 0
  /-- Regions returned to service since it first started, which do not serve it (R262). -/
  barred : List Nat := []
  stop : Option (Nat × Nat) := Option.none
  deriving DecidableEq, Repr

/-- An entry of the residency set (R260). -/
structure ResEntry where
  ctx : Nat
  model : Nat
  regions : List Nat
  base : Nat
  bytes : Nat
  /-- Launches whose admission pins it. -/
  pins : List Nat := []
  loaded : Bool := false
  used : Nat := 0
  deriving DecidableEq, Repr

/-! ## Contexts, queues, fences and objects (07, 08) -/

inductive CtxState where
  | free | live | destroying
  deriving DecidableEq, Repr

/-- Translation fault record (R199). -/
structure FaultRec where
  va : Nat
  count : Nat
  status : Nat
  detail : Nat
  source : Nat
  region : Nat
  index : Nat
  offset : Nat
  deriving DecidableEq, Repr

/-- A context (R222, R233, R234). -/
structure Ctx where
  st : CtxState := .live
  fn : Nat := 0
  pasid : Option Nat := Option.none
  ltaBase : Nat := 0
  ltaCount : Nat := 1
  peerVa : Nat := 0
  peerCount : Nat := 0
  fenceMax : Nat := 0
  fault : Option FaultRec := Option.none
  cycles : Nat := 0
  bytes : Nat := 0
  energy : Nat := 0
  launches : Nat := 0
  resident : Bool := false
  deriving DecidableEq, Repr

/-- Memory object (R238), keyed by `2^23 * context + first page`. -/
structure Obj where
  count : Nat
  place : Nat
  writable : Bool
  s0 : Nat
  deriving DecidableEq, Repr

/-- How far a read descriptor has come (R212 to R225). -/
inductive DPhase where
  | read
  | head
  | released
  | done
  deriving DecidableEq, Repr

/-- A descriptor the device has copied (R212, R216). -/
structure Desc where
  raw : W512 := 0
  phase : DPhase := .read
  headStamp : Nat := 0
  /-- Host addresses of a descriptor, chained raw descriptor being served, and the chain's length. -/
  cur : W512 := 0
  chainLen : Nat := 1
  /-- Bound version (`none` before LAUNCH binds), selection error, and whether it is a menu's (R239, R261). -/
  ver : Option Nat := Option.none
  bindErr : Option (Nat × Nat) := Option.none
  menuEnd : Bool := false
  bound : Bool := false
  launch : Option Nat := Option.none
  /-- Outcome once done: status, detail, result, stamp. -/
  status : Nat := 0
  detail : Nat := 0
  result : Nat := 0
  stamp : Nat := 0
  /-- The descriptor ran (R224), and its fence signal is still to be applied (R209). -/
  ran : Bool := false
  /-- The media engine that has taken it (R339), and HOLD of a decode record as it read at release (R336). -/
  engine : Option Nat := Option.none
  hold : Option Nat := Option.none
  deriving DecidableEq, Repr

inductive QState where
  | active | stopped | destroyed
  deriving DecidableEq, Repr

/-- A queue (R210 to R215, R235). The admin queue has key `adminQid`. -/
structure Queue where
  ctx : Nat := 0
  fn : Nat := 0
  typ : Nat := 0
  serial : Bool := false
  ringsTranslated : Bool := false
  sizeLog2 : Nat := 4
  prio : Nat := 0
  vector : Nat := 0
  ringVa : Nat := 0
  dbVa : Nat := 0
  cplVa : Nat := 0
  stVa : Nat := 0
  budget : Nat := 0
  typeArg : Nat := 0
  producer : Nat := 0
  consumer : Nat := 0
  st : QState := .active
  resident : Bool := false
  idleSince : Nat := 0
  /-- Read descriptors not yet completed, by number. -/
  descs : Map Desc := []
  deriving DecidableEq, Repr

/-- Fence table entry (R226). -/
structure Fence where
  va : Nat
  value : Nat
  cause : Nat := 0
  abandoned : Bool := false
  ctx : Nat
  queue : Nat
  deriving DecidableEq, Repr

/-- Frame states of R176 (LOST follows from the stack's state); `held` is a released frame that a started access still uses
(R187), counted as ALLOCATED. -/
inductive FrameState where
  | scrubbing | free | allocated | held | reserved | retired | lost
  deriving DecidableEq, Repr

inductive StackState where
  | training | ready | failed | outOfService
  deriving DecidableEq, Repr

/-- One HBM4 stack (R174, R180, R208). -/
structure Stack where
  st : StackState := .training
  cerr : Nat := 0
  uerr : Nat := 0
  hot : Bool := false
  deriving DecidableEq, Repr

/-- A page request group outstanding (R192). -/
structure Prg where
  fn : Nat
  pasid : Option Nat
  page : Nat
  stamp : Nat
  /-- A Success response has already been used for this page. -/
  retried : Bool := false
  dead : Bool := false
  deriving DecidableEq, Repr

/-- A DTC entry (R191): tag, host page and translated page. -/
structure Dtc where
  fn : Nat
  pasid : Option Nat
  page : Nat
  target : Nat
  write : Bool
  /-- It covers 2^size pages of 4 KiB, up to 1 GiB (R190). -/
  size : Nat := 0
  deriving DecidableEq, Repr

/-- Device memory system (07). -/
structure MemSys where
  lta : Map W32 := []
  frames : Map FrameState := []
  marked : List Nat := []
  hbm : List Stack := List.replicate 8 {}
  /-- Reserved frames at the top of each stack (R177). -/
  shares : List Nat := List.replicate 8 2496
  mirrorLost : Bool := false
  /-- Dies whose own copy of the mirrored items is incomplete (R178). -/
  mirrorMissing : List Nat := []
  /-- Frames that a die has still to rebuild its copy into (R178). -/
  mirrorNeed : Map Nat := []
  dtc : List Dtc := []
  prgs : Map Prg := []
  /-- Functions stopped by a Response Failure (R192). -/
  stopped : List Nat := []
  /-- The LTA image in the reserved area: the entries that DORMANT took and its exit reloads (R28; log entry 95). -/
  ltaCopy : Map W32 := []
  /-- The image is held for an exit from DORMANT: some stack is still to report (R28, R358). -/
  ltaImage : Bool := false
  /-- The function that a held frame counts for (R186, R187). -/
  heldFn : Map Nat := []
  /-- The first LTA entry of the context that a held frame is still ALLOCATED to (R187, R222). -/
  heldLta : Map Nat := []
  deriving DecidableEq, Repr

/-- Front end (02, 08, 09). -/
structure Fe where
  ctxs : Map Ctx := []
  queues : Map Queue := []
  fences : Map Fence := []
  objs : Map Obj := []
  vers : Map PlanVer := []
  nextVer : Nat := 0
  /-- Resident plan versions, most recently used first (R241). -/
  resident : List Nat := []
  launches : Map Launch := []
  nextLaunch : Nat := 0
  residency : List ResEntry := []
  resTick : Nat := 0
  /-- BE bound by group (R426), and groups with a forced loss (R61). -/
  beBound : Map Nat := []
  lostGroups : List Nat := []
  refused : Nat := 0
  breaches : Nat := 0
  /-- Free save-pool units of the LC and of the BE part on each stack (R177, R256). -/
  lcFree : List Nat := List.replicate 8 1024
  beFree : List Nat := List.replicate 8 512
  sweepPos : Nat := 0
  /-- The cap before the last lowered one, drawn up to while CAP_DEFERRED reads 1 (R63). -/
  heldCap : Nat := 700
  deriving DecidableEq, Repr

/-! ## Faults, violations and accounting (16) -/

/-- Fault record (R399); `handling` until its reaction completes (R401). -/
structure FltRec where
  seq : Nat
  cls : Nat
  esc : Bool
  source : Nat
  unit : Nat
  code : Nat
  ctx : Nat
  count : Nat
  stamp : Nat
  info : Nat
  handling : Bool
  deriving DecidableEq, Repr

/-- Violation entry (R406). -/
structure ViolRec where
  kind : Nat
  fn : Nat
  answer : Nat
  count : Nat
  place : Nat
  stamp : Nat
  detail : Nat
  vseq : Nat
  deriving DecidableEq, Repr

/-- Fault collector (R399 to R405); histories keyed by slot. -/
structure Flt where
  hist : Map FltRec := []
  seq : Nat := 0
  ack : Nat := 0
  last : Map Nat := []
  safe : Bool := false
  self : Bool := false
  viols : Map ViolRec := []
  vseq : Nat := 0
  /-- Stamps of uncorrectable core errors by cluster and launch (R33). -/
  clusterErrs : List (Nat × Nat × Nat) := []
  deriving DecidableEq, Repr

/-- Measured and counted figures (R407, R408). -/
structure Acct where
  mode : Nat := 0
  energy : Nat := 0
  hubBytes : Nat := 0
  rgnCycles : Map Nat := []
  rgnBytes : Map Nat := []
  jobs : Map Nat := []
  descs : Map Nat := []
  deriving DecidableEq, Repr

/-! ## Messages sent -/

/-- Kinds of message the device sends. -/
inductive OutKind where
  | msix | aer | frs | pme | wake | atsRequest | pageRequest | invalidateCompletion | tlpAnswer | invalidFlr
  | qanat | roce | cnp | xon | uart | doe | smbus | flashPad | prsntPad | tripPad | l1 | ltr | aux
  deriving DecidableEq, Repr

/-- A message sent (log entry 4): its kind, two numbers as the kind gives, and bytes. -/
structure OutMsg where
  kind : OutKind
  a : Nat := 0
  b : Nat := 0
  bytes : List Byte := []
  deriving DecidableEq, Repr

/-! ## Host link (10) -/

/-- The context field of a queue that belongs to no context (R210, R244): no context identifier (R209) reaches it. -/
abbrev noContext : Nat := 65536

/-- Configuration bits of a function that the device acts on (R271, R279, R280, R191, R192). -/
structure Func where
  memSpace : Bool := false
  busMaster : Bool := false
  msixEnable : Bool := false
  functionMask : Bool := false
  atsEnable : Bool := false
  priEnable : Bool := false
  deriving DecidableEq, Repr

/-- MSI-X table entry (R279). -/
structure MsixEntry where
  addr : Nat := 0
  data : Nat := 0
  masked : Bool := true
  deriving DecidableEq, Repr

/-- Events of a moderated vector not yet sent, and the oldest one's stamp (R278). -/
structure ModState where
  count : Nat := 0
  oldest : Nat := 0
  deriving DecidableEq, Repr

/-- A record write that waits: for Bus Master Enable (R280), or for its translation (R191). -/
structure HeldWrite where
  fn : Nat
  /-- The context whose translation it needs; `none` for a bus address. -/
  ctx : Option Nat
  addr : Nat
  bytes : List Byte
  tag : Nat
  /-- The queue whose completion or status the record is (R236). -/
  q : Option Nat := Option.none
  /-- The vector whose event follows the record (R224, R268). -/
  irq : Option Nat := Option.none
  /-- PASID of a context that is gone: its record stands, and is translated by function and PASID alone (R191, R243). -/
  gone : Option (Option Nat) := Option.none
  /-- A completion record: its context, and the queue its descriptor created. The fences and the status entry of the one and the status
  block of the other are written before it (R224, R234, R235). -/
  behind : Option (Nat × Option Nat) := Option.none
  deriving DecidableEq, Repr

/-- The outcome of translating one address (R182 to R198). -/
inductive Tr where
  | ok (pa : Nat)
  | bad (status detail : Nat)
  /-- No translation present: an ATS or page request is outstanding (R191, R192). -/
  | wait (page : Nat)
  /-- In the caravan window: peer index and offset (R189). -/
  | peer (idx off : Nat)
  deriving DecidableEq, Repr

/-- A range translated piece by piece: (physical address, length) pieces up to the first piece that stopped. -/
structure Walk where
  pieces : List (Nat × Nat) := []
  moved : Nat := 0
  stop : Option Tr := Option.none
  deriving DecidableEq, Repr

/-- A host-aperture access that waits for its translation, and the DETAIL once its page request failed (R192). -/
structure HostWait where
  user : Nat
  fn : Nat
  pasid : Option Nat
  page : Nat
  fail : Option Nat := Option.none
  /-- The function's page request capacity was in use when its page was found not present (R190). -/
  full : Bool := false
  deriving DecidableEq, Repr

/-- What a DOE request does beside its answer: nothing, a message of the SPDM session with what it does to the transcript and the keys, or a
key message for an IDE stream (R287, R288, R392). -/
inductive DoeAct where
  | none
  | spdm (fresh : Bool) (session : Option Bool)
  | ide (stream : Nat) (kind : IdeKm)
  deriving DecidableEq, Repr

/-- A DOE request in progress. -/
structure DoeReq where
  code : Nat
  bytes : List Byte
  act : DoeAct
  deriving DecidableEq, Repr

/-- DOE mailbox (R287); Busy reads 1 while a request is in progress. -/
structure Doe where
  request : Option DoeReq := Option.none
  error : Bool := false
  ready : Bool := false
  response : List Byte := []
  deriving DecidableEq, Repr

inductive IdeState where
  | insecure | keyed | secure
  deriving DecidableEq, Repr

/-- Selective IDE stream (R288). -/
structure Ide where
  st : IdeState := .insecure
  rid : Nat := 0
  /-- Address associations: first and last host address, at most four. -/
  addrs : List (Nat × Nat) := []
  deriving DecidableEq, Repr

/-- Host link controller (R266 to R290). MSI-X entries and pending bits by global vector index (R278). -/
structure HostLink where
  speed : Nat := 0
  width : Nat := 0
  flit : Bool := false
  dlUp : Bool := false
  /-- Routing ID of the physical function, which the host gives (R271). -/
  rid : Nat := 0
  funcs : Map Func := []
  vfEnable : Bool := false
  numVfs : Nat := 0
  relaxed : Bool := false
  flrBusy : List Nat := []
  msix : Map MsixEntry := []
  pba : Map Bool := []
  mods : Map ModState := []
  held : List HeldWrite := []
  waits : List HostWait := []
  d3hot : Bool := false
  bar4Log2 : Nat := 28
  /-- Maximum payload and read request sizes that the host set (R266; log entry 60). -/
  mps : Nat := 128
  mrrs : Nat := 512
  /-- Completion Timeout Disable (R266). -/
  ctoOff : Bool := false
  /-- The latency tolerance last reported, in µs (R269). -/
  ltr : Nat := 1000
  doeIrq : Bool := false
  doe : Doe := {}
  ide : Map Ide := []
  deriving DecidableEq, Repr
/-! ## Display heads (12) -/

inductive HeadState where
  | off | training | active | linkFailed
  deriving DecidableEq, Repr

/-- A commit record with what its descriptor gives it (R320, R321): `coefs` are the scaler tables read at validation, by layer. -/
structure Commit where
  q : Nat := 0
  i : Nat := 0
  ctx : Nat := 0
  tag : Nat := 0
  raw : List Byte := []
  coefs : Map (List Byte) := []
  /-- Validation has passed (R321). -/
  ok : Bool := false
  deriving DecidableEq, Repr

/-- A frame whose writeback is not yet visible (R329): its rows, where they go, and the fence it signals. -/
structure WbWork where
  q : Nat
  ctx : Nat
  tag : Nat
  va : Nat
  pitch : Nat
  fence : Nat
  frame : Nat
  rows : List (List Byte)
  deriving DecidableEq, Repr

/-- A frame as its head shows it: the commit that was active at its start, and the output pixels, row by row (R324). -/
structure Shown where
  commit : Commit
  rows : List (List Nat)
  deriving DecidableEq, Repr

/-- One display head (R315 to R331). Its timing and control fields are set-up registers. -/
structure Head where
  st : HeadState := .off
  /-- Taken offline by a class F fault until module reset (R427). -/
  failed : Bool := false
  hpd : Bool := false
  hpdChanged : Bool := false
  enableErr : Bool := false
  timingStopped : Bool := false
  frame : Nat := 0
  /-- FE stamp of the last frame start since the head was enabled (R52). -/
  startStamp : Option Nat := Option.none
  /-- The line at the last frame start or vertical blank start, and the FE stamp of that (R331). -/
  line : Nat := 0
  lineStamp : Nat := 0
  repeats : Nat := 0
  inRun : Bool := false
  active : Option Commit := Option.none
  /-- What the frame that began last shows: black without a commit (R317, R324). -/
  shown : Option Shown := Option.none
  /-- Layers made transparent by a fetch fault, and whether the fault was recorded (R328). -/
  dead : List Nat := []
  faulted : Bool := false
  /-- Commits read and not applied, oldest first (R321, R326). -/
  next : List Commit := []
  wb : Option WbWork := Option.none
  mismatch : Nat := 0
  crc : Map W32 := []
  fails : Nat := 0
  /-- Stamps of retrains within the last second (R318). -/
  retrains : List Nat := []
  auxStatus : Nat := 0
  auxTries : Nat := 0
  deriving DecidableEq, Repr

/-! ## Media engines (13) -/

inductive EngState where
  | starting | ready | failed
  deriving DecidableEq, Repr

/-- Media engine (R341). -/
structure Engine where
  st : EngState := .starting
  pictures : Nat := 0
  deriving DecidableEq, Repr

/-- A stream state, private to the device (R335, R337), keyed by context and STATE_VA: pictures since RESET, the slots the codec still
needs, and what its pictures were made from (the arguments of the opaque codec, log entry 15). -/
structure Stream where
  ctx : Nat
  va : Nat
  count : Nat := 0
  sinceKey : Nat := 0
  history : List Nat := []
  /-- Pool slots that hold pictures decoded since RESET, those not yet output, and the pictures output since RESET (R336). -/
  slots : List Nat := []
  waiting : List Nat := []
  shown : Nat := 0
  deriving DecidableEq, Repr

/-! ## Caravan (11) -/

inductive NodeState where
  | down | up | lost
  deriving DecidableEq, Repr

/-- Who a job moves bytes for: a region's transfer entry, or a COPY descriptor. -/
inductive JobUser where
  | entry (r l n : Nat)
  | copy (q i : Nat)
  deriving DecidableEq, Repr

/-- A sent packet not yet acknowledged (R297), whole, for a resend: 0 DATA, 1 READ_REQ, and the job it belongs to. -/
structure TxPkt where
  psn : Nat
  lines : Nat
  job : Nat
  user : JobUser
  typ : Nat
  flags : Nat
  counter : Nat
  exp : Nat
  off : Nat
  bytes : List Byte
  deriving DecidableEq, Repr

/-- Bytes to move to or from a peer (R295 to R297): its pieces still to send, (offset in the export, offset in the job, length), each
at most 128 lines; its lines not yet acknowledged or delivered. -/
structure Job where
  node : Nat
  user : JobUser
  write : Bool
  export_ : Nat
  /-- Arrival counter to advance (R302). -/
  counter : Option Nat := Option.none
  todo : List (Nat × Nat × Nat) := []
  left : Nat := 0
  /-- Outstanding READ_REQ packets: (PSN, offset in the job, length). -/
  reads : List (Nat × Nat × Nat) := []
  /-- Bytes of a write, or the bytes received of a read at their place. -/
  data : List Byte := []
  /-- Memory pieces that a COPY from a peer fills, and where a COPY between peers goes on (node, export, offset). -/
  mem : List (Nat × Nat) := []
  onward : Option (Nat × Nat × Nat) := Option.none
  /-- Local pieces that a COPY to a peer reads: their frames stay in use until it ends (R187). -/
  uses : List (Nat × Nat) := []
  /-- Lines in all; bytes of the first line before the range; length of the range; a write's bytes while the peer's lines at its unaligned
  edges are read (log entry 72). -/
  lines : Nat := 0
  skew : Nat := 0
  len : Nat := 0
  patch : List Byte := []
  /-- A COPY whose other end stops at a host page ends so once its prefix has moved: status, detail, failing address (R198). -/
  stop : Option (Nat × Nat × Nat) := Option.none
  deriving DecidableEq, Repr

/-- Node table entry (R294 to R298, R311). -/
structure Node where
  sub : Nat := 0
  ipv6 : Bool := false
  hops : Nat := 1
  pcp : Nat := 0
  switchNs : Nat := 0
  credits : Nat := 0
  ip : List Byte := []
  mac : List Byte := []
  vlan : Nat := 0
  st : NodeState := .down
  /-- A HELLO has been sent to the node, and one received from it, since the entry was set (R298). -/
  helloSent : Bool := false
  helloGot : Bool := false
  heard : Nat := 0
  /-- Window the peer grants this module. -/
  window : Nat := 0
  txPsn : Nat := 0
  rxPsn : Nat := 0
  unacked : List TxPkt := []
  tries : Nat := 0
  /-- A NAK SEQUENCE has been sent in this retransmission interval, at this stamp. -/
  nakAt : Option Nat := Option.none
  deriving DecidableEq, Repr

/-- Export table entry (R299, R301). `gen` outlives the export. -/
structure Export where
  live : Bool := false
  gen : Nat := 0
  ctx : Nat := 0
  va : Nat := 0
  len : Nat := 0
  writable : Bool := false
  readable : Bool := false
  anyNode : Bool := false
  roce : Bool := false
  allow : Nat := 0
  counters : Map Nat := []
  deriving DecidableEq, Repr

/-- A posted RoCEv2 operation (R310, R311). -/
structure Post where
  q : Nat
  i : Nat
  op : Nat
  len : Nat
  va : Nat
  remote : Nat
  rkey : Nat
  /-- The pieces of its local range, translated when it was posted (R187). -/
  mem : List (Nat × Nat) := []
  deriving DecidableEq, Repr

/-- RoCEv2 queue pair (R309 to R311). -/
structure Qp where
  ctx : Nat
  raw : List Byte := []
  error : Bool := false
  sends : List Post := []
  recvs : List Post := []
  retries : Nat := 0
  rnrs : Nat := 0
  deriving DecidableEq, Repr

/-- Sub-port (R291, R308, R313). -/
structure Sub where
  linkUp : Bool := false
  txAn : Option Nat := Option.none
  rxAn : List Nat := []
  /-- Installed keys by association number, 16 + AN for receive: SAK, salt, SSCI words. -/
  keys : Map (List W32) := []
  pn : Nat := 0
  pnLow : Bool := false
  dropped : Nat := 0
  /-- The partner has paused PFC_PRI: RoCEv2 frames, with their number in each message, wait (R291, R309). -/
  paused : Bool := false
  waiting : List (Nat × OutMsg) := []
  /-- Transit packets received here that have not left, each with its egress sub-port: at most 4 MiB (R307). -/
  transit : List (Nat × OutMsg) := []
  /-- Stamps of frames with uncorrectable FEC or failed MACsec checks within 1 ms (R312). -/
  bad : List Nat := []
  deriving DecidableEq, Repr

/-- An Ethernet port A or B: its start-up report, and its OSFP module's declared power (R411). -/
structure Port where
  failed : Bool := false
  plugged : Bool := false
  watts : Nat := 0
  lowPower : Bool := false
  deriving DecidableEq, Repr

/-- The caravan unit. Exports are keyed by INDEX, QPs by QPN, nodes by identifier. -/
structure Net where
  nodeId : Option W32 := Option.none
  subs : Map Sub := []
  ports : Map Port := []
  nodes : Map Node := []
  exports : Map Export := []
  qps : Map Qp := []
  jobs : Map Job := []
  nextJob : Nat := 1
  deriving DecidableEq, Repr

/-! ## Clocks, power, Oasis (14, 17) -/

/-- Device states of R356, and the parts of start-up and of the exit from DORMANT. -/
inductive Dev where
  /-- PERST# asserted, or the link disabled, with main power. -/
  | held
  | starting
  /-- ACTIVE, IDLE or NAP, or coming out of DORMANT after step 4 (R358). -/
  | up
  | dormant
  | oasis
  deriving DecidableEq, Repr

/-- What the device answers a trip with once its domains run: the XTAL set at IBO, with the ports and heads stopped too, or PCIE_CLK at
IBO (R351). -/
inductive TripKind where
  | xtalSet | xtal | pcie
  deriving DecidableEq, Repr

/-- The answer to a trip whose domains still wait for IBO (R354, step 4): its unit of the record, and whether it is a severe event. -/
structure TripAnswer where
  unit : Nat
  severe : Bool
  kind : TripKind
  deriving DecidableEq, Repr

/-- Clock generation (R342 to R354, R370). CUR and SEL hold two bits a domain. -/
structure Clk where
  sel : Nat := 0x28AAAA
  cur : Nat := 0x28AAAA
  switching : Bool := false
  xtalOk : Bool := false
  refclkOk : Bool := false
  iboReady : Bool := false
  locks : Nat := 0
  /-- XTAL, XTAL_LPO, REFCLK, IBO, LOCK_LOSS, REFUSED. -/
  mon : Nat := 0
  iboFault : Bool := false
  iboTrips : Nat := 0
  /-- Domains stopped until IBO is ready (R354), as SEL-field numbers. -/
  stopped : List Nat := []
  /-- XTAL25 does not oscillate: no reset restarts it. -/
  xtalGone : Bool := false
  /-- Trips whose domains wait for IBO, oldest first: their answers are still to come (R354). -/
  answers : List TripAnswer := []
  /-- The monitor of a trip that waits for IBO, and its safe-state record owed until HFAB_CLK starts (R354, R404). -/
  waitUnit : Nat := 0
  owed : Bool := false
  mhz0 : Nat := 25
  mhz1 : Nat := 25
  deriving DecidableEq, Repr

/-- Emergencies of R61, in the order of their GUARANTEE_BREACH details: 1 thermal, 2 brake, 3 clock. -/
structure Pwr where
  dev : Dev := .held
  mainPower : Bool := true
  perst : Bool := true
  /-- Emergencies in force, the one that began first at the head (R61, R415). -/
  emergencies : List Nat := []
  beStall : Bool := false
  /-- Board power measured above what the cap leaves (R57, R63, R348). -/
  capStall : Bool := false
  /-- Dies whose clock is lowered for the cap (R348). -/
  capped : List Nat := []
  hot : List Nat := []
  inputW : Nat := 0
  /-- Junction temperature of each die in °C. -/
  temp0 : Nat := 0
  temp1 : Nat := 0
  brake : Bool := false
  brakeCause : Nat := 0
  brakeCount : Nat := 0
  connA : Nat := 0
  connB : Nat := 0
  underSupply : Bool := false
  duty : Nat := 0
  rpm : Nat := 0
  stalled : Bool := false
  deriving DecidableEq, Repr

/-- Compare channel of Oasis (R366, R372). -/
structure Cmp where
  lo : W32 := 0
  hi : W32 := 0
  en : Bool := false
  wake : Bool := false
  irq : Bool := false
  fired : Bool := false
  /-- The pair that the last write of HI armed. -/
  armed : Option (BitVec 48) := Option.none
  deriving DecidableEq, Repr

/-- Temperature comparator of Oasis (R367, R372). -/
structure TempCmp where
  high : Byte := 110
  low : Byte := 0xD8
  en : Bool := true
  wake : Bool := false
  trip : Bool := false
  now : Byte := 0
  deriving DecidableEq, Repr

/-- The Oasis domain (R360 to R372). -/
structure Oas where
  powered : Bool := true
  count : Nat := 0
  cmps : Map Cmp := []
  temps : Map TempCmp := []
  thresh : Nat := 3000
  below : Bool := false
  clkTrip : Bool := false
  /-- A trip's message on vector 0 waits for the PCIe link and the front end (R351). -/
  tripIrq : Bool := false
  iboStarting : Bool := false
  wakeCause : Nat := 0
  lpoCal : Nat := 0
  latched : Bool := false
  padRelease : Bool := false
  wakePin : Bool := false
  /-- The bytes of the Cistern (R360). -/
  cistern : List Byte := []
  cisternErr : Bool := false
  deriving DecidableEq, Repr

/-! ## Security (15) -/

/-- Fuse ledger entry (R386). -/
structure LedgerEntry where
  setting : Nat
  complete : Bool
  from_ : Nat
  to_ : Nat
  fw : Nat
  /-- The value that the change has reached so far (R387, R388). -/
  reached : Nat
  deriving DecidableEq, Repr

inductive SeedState where
  | empty | written | destroyed
  deriving DecidableEq, Repr

/-- OTP (R382, R389). The shipped values are `none`: they are those of Config (log entry 8). -/
structure Otp where
  rollback : Option Nat := Option.none
  revoked : Nat := 0
  debug : Nat := 1
  policy : Nat := 1
  nodeId : Option W32 := Option.none
  nodeSteps : Nat := 0
  ceiling : Nat := 760
  ceilingSteps : Nat := 0
  seeds : List SeedState := [.written, .empty, .empty, .empty]
  ledger : List LedgerEntry := []
  deriving DecidableEq, Repr

/-- A ledger change being burned (R383 to R388). -/
structure Change where
  setting : Nat
  old : Nat
  goal : Nat
  deriving DecidableEq, Repr

/-- A flash command in progress (R381). -/
structure FlashOp where
  op : Nat
  addr : Nat
  /-- The page to program, once the data registers hold it no more. -/
  data : Option (List Byte) := Option.none
  deriving DecidableEq, Repr

/-- The security block (R378 to R396). -/
structure Sec where
  fw : Nat := 0
  bank : Nat := 0
  fallback : Bool := false
  keySlot : Nat := 0
  svn : Nat := 0
  resA : Nat := 0
  resB : Nat := 0
  provisioning : Bool := false
  imageLoaded : Bool := false
  /-- The payload in front-end memory from address 0 on, and its ENTRY (R379). -/
  feImage : List Byte := []
  feEntry : Nat := 0
  otp : Otp := {}
  armed : Option Nat := Option.none
  status : Nat := 0
  change : Option Change := Option.none
  /-- Flash bytes written since shipping; an unlisted byte is the shipped one (log entry 8). -/
  flash : Map Byte := []
  flashOp : Option FlashOp := Option.none
  flashStatus : Nat := 0
  page : Map Byte := []
  alarms : Nat := 0
  /-- Sources tripping now: a bit set again after a clear while its source still trips is the same alarm (R395). -/
  tripping : Nat := 0
  lastAction : Nat := 0
  haboob : Bool := false
  /-- Messages of the SPDM session in progress, newest first: the responder's state (R392). -/
  spdm : List (List Byte) := []
  keys : Bool := false
  /-- The attestation key of the running image (R390). -/
  attest : Option (BitVec 256) := Option.none
  /-- The identity area whose chain verifies, by bank, and the certificate that the identity key signed at start-up (R390). -/
  chain : Option Nat := Option.none
  attestCert : List Byte := []
  deriving DecidableEq, Repr

/-- The ready map (R376, R377). -/
structure Ready where
  ready : Nat := 0
  failed : Nat := 0
  gen : Nat := 0
  /-- Stacks that have reported since start-up (R374). -/
  reported : List Nat := []
  deriving DecidableEq, Repr


/-! ## The whole block -/

/-- The state of the module. `pending` is the queue of waiting commands, oldest first. -/
structure State where
  pending : List Instr := []
  /-- The MODEL's own counter of free values (log entry 3). -/
  free : Nat := 0
  /-- The MODEL's own record of messages sent, newest first (log entry 4). -/
  out : List OutMsg := []
  /-- FE cycle counter (R5). -/
  now : Nat := 0
  hostMem : Map Byte := []
  /-- Device memory by frame * 65,536 + byte (R172). -/
  devMem : Map Byte := []
  /-- Set-up registers that differ from their reset value, by BAR0 offset. -/
  regs : Map W32 := []
  fe : Fe := {}
  mem : MemSys := {}
  cores : Map Core := []
  rgns : Map Region := []
  cdcs : Map Cdc := []
  link : HostLink := {}
  flt : Flt := {}
  acct : Acct := {}
  heads : Map Head := []
  engines : Map Engine := []
  streams : List Stream := []
  net : Net := {}
  clk : Clk := {}
  pwr : Pwr := {}
  oas : Oas := {}
  sec : Sec := {}
  boot : Ready := {}
  deriving DecidableEq, Repr

/-- The machine right after reset, as log entries 1, 2, 3, 5 and 10 and the reset columns of the spec give it. -/
def State.reset : State := {}

end Sys2Proof.Machine
end

