-- ==== Sys2Proof/Machine/Ops.lean ====
section
/-! DEFINITION. The named operations over the state that the meanings share: accessors, free values, interrupts, the two
logs, memory and translation, fences, the end of a launch. A meaning answers a next state unless its word is ill formed. -/

namespace Sys2Proof.Machine

abbrev Result := Host.Outcome State Fault Refusal

/-! ### Accessors -/

def State.core (s : State) (c : Nat) : Core := mget s.cores {} c
def State.setCore (s : State) (c : Nat) (x : Core) : State := { s with cores := mset s.cores {} c x }
def State.rgn (s : State) (r : Nat) : Region := mget s.rgns {} r
def State.setRgn (s : State) (r : Nat) (x : Region) : State := { s with rgns := mset s.rgns {} r x }
def State.cdc (s : State) (k : Nat) : Cdc := mget s.cdcs {} k
def State.setCdc (s : State) (k : Nat) (x : Cdc) : State := { s with cdcs := mset s.cdcs {} k x }
def State.launch? (s : State) (l : Nat) : Option Launch := mfind s.fe.launches l
def State.setLaunch (s : State) (l : Nat) (x : Launch) : State :=
  { s with fe := { s.fe with launches := mins s.fe.launches l x } }
def State.queue? (s : State) (q : Nat) : Option Queue := mfind s.fe.queues q
def State.setQueue (s : State) (q : Nat) (x : Queue) : State :=
  { s with fe := { s.fe with queues := mins s.fe.queues q x } }
def State.ctx? (s : State) (x : Nat) : Option Ctx := mfind s.fe.ctxs x
def State.setCtx (s : State) (k : Nat) (x : Ctx) : State := { s with fe := { s.fe with ctxs := mins s.fe.ctxs k x } }
def State.desc? (s : State) (q i : Nat) : Option Desc :=
  match s.queue? q with
  | none => none
  | some x => mfind x.descs i
def State.setDesc (s : State) (q i : Nat) (d : Desc) : State :=
  match s.queue? q with
  | none => s
  | some x => s.setQueue q { x with descs := mins x.descs i d }
def State.func (s : State) (f : Nat) : Func := mget s.link.funcs {} f
def State.setFunc (s : State) (f : Nat) (x : Func) : State :=
  { s with link := { s.link with funcs := mset s.link.funcs {} f x } }
def State.planOf (s : State) (v : Nat) : Option Plan := (mfind s.fe.vers v).map (·.plan)
def State.send (s : State) (m : OutMsg) : State := { s with out := m :: s.out }

/-- A function issues requests: Bus Master Enable is 1 and the device is not in D3hot (R280, R281). -/
def busOn (s : State) (fn : Nat) : Bool := (s.func fn).busMaster && !s.link.d3hot

/-- Routing ID of a function: function n is PF + n (R271). -/
def ridOf (s : State) (fn : Nat) : Nat := (s.link.rid + fn) % 65536

/-- A Secure stream covers a function's request to a host address: its RID association is the function's, and one of its address associations
holds the address, where it has any (R288, R289; log entry 122). -/
def ideCovers (s : State) (x : Ide) (fn addr : Nat) : Bool :=
  x.st == .secure && x.rid == ridOf s fn && (x.addrs.isEmpty || x.addrs.any (fun p => decide (p.1 ≤ addr) && decide (addr ≤ p.2)))

/-- Whether a function's IDE requirement is met for a host address (R289). -/
def ideOk (s : State) (fn addr : Nat) : Bool :=
  let w := (mget s.regs 0 (0x300 + 4 * (fn / 32))).toNat
  !bitOf w (fn % 32) || s.link.ide.any (fun p => ideCovers s p.2 fn addr)

/-- The function may issue a request to a host address now (R280, R289). -/
def reqOpen (s : State) (fn addr : Nat) : Bool := busOn s fn && ideOk s fn addr

/-- Take the next free value (log entry 3). -/
def State.freeVal (s : State) : W64 := Config.freeValue s.free
def State.tickFree (s : State) : State := { s with free := s.free + 1 }

/-- Apply a function to each element in order. -/
def foldState {α : Type} (xs : List α) (f : α → State → State) (s : State) : State := xs.foldl (fun a x => f x a) s

/-- A byte list as one number that determines it. -/
def bytesKey (bs : List Byte) : Nat := ofLe bs + 2 ^ (8 * bs.length)

/-! ### Set-up registers (R8, R11, 18) -/

/-- Reset values of the writable registers (the register tables of each chapter); all others reset to 0. -/
def regReset (off : Nat) : W32 :=
  if off = 0x118 then 0x00010400#32
  else if off = 0x010400 then 0x0200#32
  else if off = 0x010404 then 0x0101#32
  else if off = 0x010500 then 256#32
  else if off = 0x010600 then 15625#32
  else if off = 0x020014 then 153#32
  else if off = 0x020104 then 8388608#32
  else if off = 0x020300 then 4718592#32
  else if off = 0x030010 || off = 0x030014 then 0x4068#32
  else if off = 0x030020 then 0x4040#32
  else if off = 0x040000 then 700#32
  else if off = 0x040008 then 0x00061B01#32
  else if off = 0x040014 then 95#32
  else if off = 0x04001C then 400#32
  else if off = 0x050000 then 0x64#32
  else if 0x071000 ≤ off && off < 0x075000 && off % 0x1000 = 0 then 8#32
  else if off = 0x090004 then 0xB7EE#32
  else if off = 0x090008 then 0x61B19071#32
  else if 0x090100 ≤ off && off < 0x090500 && off % 0x100 = 0 then 0xD8#32
  else 0#32

def rd (s : State) (off : Nat) : Nat := (mget s.regs (regReset off) off).toNat
def wr (s : State) (off v : Nat) : State := { s with regs := mset s.regs (regReset off) off (BitVec.ofNat 32 v) }
/-- A 64-bit register pair, low word first. -/
def rd64 (s : State) (off : Nat) : Nat := rd s off + 2 ^ 32 * rd s (off + 4)

/-! ### Clocks (R344 to R346, R349) -/

def clampN (lo hi v : Nat) : Nat := max lo (min hi v)
/-- CORE_MAX and CORE_MIN of a die in MHz. -/
def coreMax (s : State) (d : Nat) : Nat := 25 * clampN 16 104 (field (rd s (0x030010 + 4 * d)) 0 7)
def coreMin (s : State) (d : Nat) : Nat := min (coreMax s d) (25 * clampN 16 104 (field (rd s (0x030010 + 4 * d)) 8 7))
def coreMhz (s : State) (d : Nat) : Nat := if d = 0 then s.clk.mhz0 else s.clk.mhz1
/-- Source of domain `k` in use (R344, R370): 0 PLL, 1 IBO, 2 XTAL25. -/
def clkCur (s : State) (k : Nat) : Nat := field s.clk.cur (2 * k) 2
/-- Frequencies in MHz of a die's fabric, the hub fabric and the front end on their sources. -/
def dfabMhz (s : State) (d : Nat) : Nat :=
  match clkCur s (2 + d) with
  | 0 => 25 * clampN 32 64 (field (rd s 0x030020) 0 7)
  | 1 => 400
  | _ => 25
def hfabMhz (s : State) : Nat :=
  match clkCur s 6 with
  | 0 => 25 * clampN 32 64 (field (rd s 0x030020) 8 7)
  | 1 => 400
  | _ => 25
def feMhz (s : State) : Nat :=
  match clkCur s 7 with
  | 0 => [1600, 800, 400].getD (rd s 0x030024 % 4) 400
  | 1 => 400
  | _ => 25

/-- The ratio of a die's core clock to its fabric clock, of its fabric clock to the hub's, and of the front end's to the hub's, is one that
software must keep (R349). -/
def coreRatio (s : State) (d : Nat) : Bool := decide (dfabMhz s d ≤ coreMhz s d) && decide (coreMhz s d ≤ 2 * dfabMhz s d)
def dieRatio (s : State) (d : Nat) : Bool := decide (4 * hfabMhz s ≤ 5 * dfabMhz s d) && decide (4 * dfabMhz s d ≤ 5 * hfabMhz s)
def feRatio (s : State) : Bool := decide (feMhz s ≤ hfabMhz s)

/-- `n` free bytes, from value `k` of the stream on. -/
def freeBytes (k n : Nat) : List Byte := (List.range n).map (fun i => BitVec.ofNat 8 ((Config.freeValue (k + i / 8)).toNat / 2 ^ (8 * (i % 8))))

/-- Bytes that cross a bridge: themselves while its ratio is kept, and free bytes outside it (R349; log entry 56). -/
def crossed (ok : Bool) (s : State) (bs : List Byte) : List Byte := if ok then bs else freeBytes s.free bs.length
/-- The free values that such a crossing takes. -/
def tickCross (ok : Bool) (n : Nat) (s : State) : State := if ok then s else { s with free := s.free + (n + 7) / 8 }

/-- Whether a die's memory controllers run: MEM_CLK on its PLL, and not stopped. On any other source they keep their stacks in self-refresh
and requests wait (R345, R354). -/
def memRuns (s : State) (d : Nat) : Bool := clkCur s (4 + d) == 0 && !s.clk.stopped.contains (4 + d) && !s.clk.stopped.contains (2 + d)
/-- A stack in self-refresh. -/
def selfRefresh (s : State) (k : Nat) : Bool := !memRuns s (k / 4)
/-- Whether every local piece of an access lies on a die whose memory runs. -/
def piecesRun (s : State) (ps : List (Nat × Nat)) : Bool := ps.all (fun p => decide (hostBase ≤ p.1) || memRuns s (p.1 / 65536 / framesPerStack / 4))
/-- The save pool lies on the stacks of both dies (R254): saves and restores move while both memories run. -/
def poolRuns (s : State) : Bool := memRuns s 0 && memRuns s 1
/-- The clocks of a region's cores and stream engine run: none is stopped for want of IBO (R354). -/
def rgnRuns (s : State) (r : Nat) : Bool := !s.clk.stopped.contains (r / 8) && !s.clk.stopped.contains (2 + r / 8)

/-! ### The partner violation log (R406) -/

def logViol (s : State) (kind fn answer place detail : Nat) : State :=
  let f := s.flt
  let newest := mfind f.viols (f.vseq % 256)
  let fold := match newest with
    | some v => v.vseq == f.vseq && v.kind == kind && v.fn == fn && v.place == place && decide (s.now ≤ v.stamp + 102400)
    | none => false
  if fold then
    match newest with
    | some v => { s with flt := { f with viols := mins f.viols (f.vseq % 256) { v with count := satInc32 v.count } } }
    | none => s
  else
    let n := (f.vseq + 1) % 2 ^ 32
    let e : ViolRec := ⟨kind, fn, answer, 0, place, s.now, detail, n⟩
    { s with flt := { f with vseq := n, viols := mins f.viols (n % 256) e } }

/-! ### Interrupts (R277 to R280) -/

/-- Global vector index of R278. -/
def vecIndex (fn k : Nat) : Nat := if fn = 0 then k else 2048 + 32 * (fn - 1) + k
/-- Function and vector of a global index. -/
def vecFn (v : Nat) : Nat := if v < 2048 then 0 else (v - 2048) / 32 + 1
def vecK (v : Nat) : Nat := if v < 2048 then v else (v - 2048) % 32

/-- A vector that is masked: in its entry, by an address of 0, by its function's mask, or with MSI-X disabled (R279). -/
def vecMasked (s : State) (v : Nat) : Bool :=
  let f := s.func (vecFn v)
  let e := mget s.link.msix {} v
  !f.msixEnable || f.functionMask || e.masked || e.addr == 0

/-- A vector whose message may leave now (R279, R280, R289). -/
def vecOpen (s : State) (v : Nat) : Bool :=
  let e := mget s.link.msix {} v
  !vecMasked s v && reqOpen s (vecFn v) e.addr && !s.link.flrBusy.contains (vecFn v)

/-- Send one message on a vector, or set its pending bit (R279). A vector of a function under reset sends nothing (R282). -/
def fireVec (s : State) (v : Nat) : State :=
  if vecOpen s v then
    let e := mget s.link.msix {} v
    s.send { kind := .msix, a := e.addr, b := e.data, bytes := leBytes 2 (ridOf s (vecFn v)) }
  else if s.link.flrBusy.contains (vecFn v) then s
  else { s with link := { s.link with pba := mset s.link.pba false v true } }

/-- Moderation register of a vector (R278): COUNT and TIME. -/
def modReg (s : State) (v : Nat) : Nat × Nat :=
  let w := (mget s.regs 0 (0x4000 + 4 * v)).toNat
  (field w 0 8, field w 8 16)

/-- An event on a vector (R278). Vector 0 of the physical function is never moderated; a masked vector's event sets its pending bit at once. -/
def raiseVec (s : State) (v : Nat) : State :=
  let (cnt, time) := modReg s v
  if v = 0 || time = 0 || vecMasked s v then fireVec { s with link := { s.link with mods := mdel s.link.mods v } } v
  else
    let m := mget s.link.mods {} v
    let n := m.count + 1
    if n ≥ max cnt 1 then
      fireVec { s with link := { s.link with mods := mdel s.link.mods v } } v
    else
      let m' : ModState := ⟨n, if m.count = 0 then s.now else m.oldest⟩
      { s with link := { s.link with mods := mins s.link.mods v m' } }

/-- A write of a moderation register: pending events that its COUNT now reaches, or that TIME 0 no longer holds, send their message. -/
def settleMod (v : Nat) (s : State) : State :=
  match mfind s.link.mods v with
  | none => s
  | some m =>
    let (cnt, time) := modReg s v
    if time = 0 || max cnt 1 ≤ m.count then fireVec { s with link := { s.link with mods := mdel s.link.mods v } } v else s

/-- An event on vector `k` of a function. -/
def raiseIrq (s : State) (fn k : Nat) : State := raiseVec s (vecIndex fn k)

/-! ### The fault collector (R397 to R403) -/

def fltCtrl (s : State) : Nat := (mget s.regs 0x64#32 0x050000).toNat

/-- Whether the collector signals a class on vector 0 of the physical function (R397, R409). -/
def irqFor (s : State) (cls : Nat) : Bool := cls == 3 || bitOf (fltCtrl s) (4 + cls)

/-- Containment unit of a record or event (R400): its region for CORE, CLUSTER and REGION, its unit otherwise. -/
def containment (source unit : Nat) : Nat :=
  if source = 1 then unit / 32
  else if source = 2 then unit / 8
  else if source = 3 then unit
  else 1000 * source + unit

/-- FLT_LAST_x of a class follows the newest record of the class, merged ones included (R403). -/
def lastUp (f : Flt) (cls n : Nat) : Map Nat := if 0 < diff32 n (mget f.last 0 cls) then mins f.last cls n else f.last

/-- Enter a new record (R399). -/
def newRecord (s : State) (cls : Nat) (esc : Bool) (source unit code ctx info : Nat) : State :=
  let f := s.flt
  let n := (f.seq + 1) % 2 ^ 32
  let e : FltRec := ⟨n, cls, esc, source, unit, code, ctx, 0, s.now, info, true⟩
  { s with flt := { f with seq := n, last := mins f.last cls n, hist := mins f.hist (n % 32) e } }

/-- Not yet acknowledged (R403). -/
def unacked (f : Flt) (r : FltRec) : Bool := decide (diff32 f.ack r.seq < 0)

/-- The newest record a class C event folds into (R400). -/
def foldTarget (f : Flt) (source unit code : Nat) : Option FltRec :=
  f.hist.foldl (fun best p =>
    if p.2.source == source && p.2.unit == unit && p.2.code == code && unacked f p.2
        && (match best with
          | none => true
          | some b => decide (diff32 p.2.seq b.seq > 0)) then some p.2 else best) none

/-- The record in handling that a class K or F event overlaps (R401). -/
def overlapTarget (f : Flt) (source unit ctx : Nat) : Option FltRec :=
  f.hist.foldl (fun best p =>
    if p.2.handling && p.2.ctx == ctx && containment p.2.source p.2.unit == containment source unit && unacked f p.2
    then some p.2 else best) none

/-- The context of the class K record of a region that is still in handling: an error that follows it in the same containment unit,
with no launch left on the region, is met in that context (R401, R409's worked example). -/
def handlingCtx (s : State) (r : Nat) : Nat :=
  match s.flt.hist.find? (fun p => p.2.handling && p.2.cls == 1 && p.2.ctx != 65535 && decide (1 ≤ p.2.source ∧ p.2.source ≤ 3)
      && containment p.2.source p.2.unit == r) with
  | some p => p.2.ctx
  | none => 65535

/-- How an error is reported through AER (R286): correctable (its bit is that of the correctable status), advisory non-fatal, at the severity
that the host has set for it, fatal. -/
abbrev aerCor : Byte := 0#8
abbrev aerAdvisory : Byte := 1#8
abbrev aerOwn : Byte := 2#8
abbrev aerFatal : Byte := 3#8

/-- The signals of an event (R397): vector 0 of the context's function for K, vector 0 where enabled, AER for F and D. -/
def signalFault (s : State) (cls ctx : Nat) : State :=
  let kfn := match s.ctx? ctx with
    | some c => c.fn
    | none => 0
  let s1 := if cls == 1 && kfn != 0 then raiseIrq s kfn 0 else s
  let s2 := if irqFor s1 cls then raiseIrq s1 0 0 else s1
  if cls == 2 then s2.send { kind := .aer, a := 0, b := 14, bytes := [aerCor] }
  else if cls == 3 then s2.send { kind := .aer, a := 0, b := 22, bytes := [aerFatal] } else s2

/-- A class F event sets RECOVERY accounting (R408). -/
def recoveryMode (s : State) (cls : Nat) : State :=
  if cls = 2 then { s with acct := { s.acct with mode := 3 } } else s

/-- Hard stop of every region and stream engine at the entry of the safe state (R404, step 2). -/
def stopRegion (x : Region) : Region :=
  { x with launch := none, fifo := [], waiters := [], started := [], held := none, geo := {} }

/-- Entry to the safe state (R404): regions, engines and ports stop, heads send black, cluster contents are lost. The rest stops with
it: `safe` gates every unit's commands. -/
def enterSafe (s : State) : State :=
  { s with
    flt := { s.flt with safe := true }
    rgns := mmap s.rgns (fun _ x => stopRegion x)
    cores := []
    cdcs := []
    heads := mmap s.heads (fun _ h => { h with active := none, shown := none, next := [], wb := none })
    net := { s.net with subs := mmap s.net.subs (fun _ q => { q with linkUp := false, paused := false, waiting := [] }) } }

/-- CONTEXT of an event that concerns none (R399). -/
def noCtx : Nat := 65535

/-- Measured stream-engine bytes, outside SERVICE (R408). -/
def countRgnBytes (r n : Nat) (s : State) : State :=
  if s.acct.mode = 1 then s
  else { s with acct := { s.acct with rgnBytes := mset s.acct.rgnBytes 0 r ((mget s.acct.rgnBytes 0 r + n) % 2 ^ 64) } }

/-- A fault event (R397 to R401). The collector answers it in the safe state too (R404). `fresh` marks an event raised as a consequence of another record, which never overlaps. -/
def faultEvent (s : State) (cls source unit code ctx info : Nat) (fresh : Bool := false) : State :=
  if cls = 0 then
    match foldTarget s.flt source unit code with
    | some r =>
      let r' : FltRec := { r with count := satInc32 r.count }
      let f' : Flt := { s.flt with hist := mins s.flt.hist (r.seq % 32) r', last := lastUp s.flt 0 r.seq }
      signalFault { s with flt := f' } 0 ctx
    | none => signalFault (newRecord s 0 false source unit code ctx info) 0 ctx
  else if cls = 3 then signalFault (newRecord (enterSafe s) 3 false source unit code ctx info) 3 ctx
  else
    match (if fresh then none else overlapTarget s.flt source unit ctx) with
    | some r =>
      if bitOf (fltCtrl s) 8 then signalFault (newRecord (enterSafe s) 3 true source unit code ctx info) 3 ctx
      else
        let r' : FltRec := { r with count := satInc32 r.count, cls := max r.cls cls }
        let f' : Flt := { s.flt with hist := mins s.flt.hist (r.seq % 32) r', last := lastUp s.flt (max r.cls cls) r.seq }
        recoveryMode (signalFault { s with flt := f' } cls ctx) cls
    | none => recoveryMode (signalFault (newRecord s cls false source unit code ctx info) cls ctx) cls

/-! ### Physical memory and the function's right to it (R182, R280, R289) -/

def readPhys (s : State) (pa n : Nat) : List Byte :=
  if pa < hostBase then bytesAt s.devMem n pa else bytesAt s.hostMem n (pa - hostBase)

def writePhys (s : State) (pa : Nat) (bs : List Byte) : State :=
  if pa < hostBase then { s with devMem := putBytes s.devMem pa bs }
  else { s with hostMem := putBytes s.hostMem (pa - hostBase) bs }

/-- Whether the function may issue a request to a host address now: the DETAIL of the refusal (R280, R289). -/
def hostBar (s : State) (fn addr : Nat) : Option Nat :=
  if !busOn s fn then some 0x0A02 else if !ideOk s fn addr then some 0x0A03 else none

/-! ### Translation (R182 to R198) -/

def ltaValid (e : W32) : Bool := e.getLsbD 23
def ltaWritable (e : W32) : Bool := e.getLsbD 24
def ltaFrame (e : W32) : Nat := field e.toNat 0 23

/-- The LTA entry of a context's local page, if the page lies below LTA_COUNT (R184). -/
def ltaEntry (s : State) (c : Ctx) (page : Nat) : Option W32 :=
  if page < c.ltaCount then some (mget s.mem.lta 0 (c.ltaBase + page)) else none

/-- Local translation of one byte (R184, R185, R197). -/
def trLocal (s : State) (c : Ctx) (va : Nat) (write : Bool) : Tr :=
  match ltaEntry s c (va / 65536) with
  | none => .bad 3 0x0701
  | some e =>
    if !ltaValid e then .bad 3 0x0701
    else if write && !ltaWritable e then .bad 3 0x0702
    else .ok (ltaFrame e * 65536 + va % 65536)

/-- The failure of a page request that `user` waited for (R192). -/
def waitFailed (s : State) (c : Ctx) (user page : Nat) : Option Nat :=
  s.link.waits.findSome? (fun w =>
    if w.user == user && w.fn == c.fn && w.pasid == c.pasid && w.page == page then w.fail else none)

/-- Host translation of one address (R191, R192, R194, R280, R289). -/
def trHost (s : State) (c : Ctx) (translated : Bool) (user addr : Nat) (write : Bool) : Tr :=
  match hostBar s c.fn addr with
  | some d => .bad 4 d
  | none =>
    if translated || !(s.func c.fn).atsEnable then .ok (hostBase + addr)
    else
      match waitFailed s c user (addr / 4096) with
      | some d => .bad 4 d
      | none =>
        match s.mem.dtc.find? (fun e => e.fn == c.fn && e.pasid == c.pasid && e.page / 2 ^ e.size == addr / 4096 / 2 ^ e.size && (e.write || !write)) with
        | some e => .ok (hostBase + (e.target / 2 ^ e.size * 2 ^ e.size + addr / 4096 % 2 ^ e.size) * 4096 + addr % 4096)
        | none => .wait (addr / 4096)

/-- Translation of one device address of a context (R182). -/
def translate (s : State) (c : Ctx) (translated : Bool) (user va : Nat) (write : Bool) : Tr :=
  if va < localEnd then trLocal s c va write
  else if va < caravanBase then .bad 3 0x0703
  else if va < hostBase then .peer ((va - caravanBase) / 2 ^ 39) ((va - caravanBase) % 2 ^ 39)
  else if va < 2 ^ 57 then trHost s c translated user (va - hostBase) write
  else .bad 3 0x0703

/-- Bytes from `va` to the end of its translation page, at most `len`. -/
def chunkLen (va len : Nat) : Nat :=
  let page := if va < localEnd then 65536 else 4096
  min len (page - va % page)

/-- Translate a range page by page until it ends or stops; `fuel` bounds the pages. -/
def walkRange (s : State) (c : Ctx) (translated : Bool) (user : Nat) (write : Bool) : (fuel va len : Nat) → Walk → Walk
  | 0, _, _, k => k
  | n + 1, va, len, k =>
    if len = 0 then k
    else
      match translate s c translated user va write with
      | .ok pa =>
        let m := chunkLen va len
        walkRange s c translated user write n (va + m) (len - m) { k with pieces := k.pieces ++ [(pa, m)], moved := k.moved + m }
      | t => { k with stop := some t }

/-- A range of a context: local ranges are all or nothing (R197), host ranges keep the prefix (R198). -/
def walkVa (s : State) (c : Ctx) (translated : Bool) (user va len : Nat) (write : Bool) : Walk :=
  let k := walkRange s c translated user write (len / 4096 + 2) va len {}
  match k.stop with
  | some (.bad 3 d) => { stop := some (.bad 3 d) }
  | _ => k

def readPieces (s : State) (ps : List (Nat × Nat)) : List Byte := (ps.map (fun p => readPhys s p.1 p.2)).flatten

def writePieces (s : State) : List (Nat × Nat) → List Byte → State
  | [], _ => s
  | (pa, n) :: ps, bs => writePieces (writePhys s pa (bs.take n)) ps (bs.drop n)

/-- Whether every die whose memory the pieces name keeps its fabric's ratio to the hub's (R349). -/
def piecesCross (s : State) (ps : List (Nat × Nat)) : Bool := ps.all (fun p => decide (hostBase ≤ p.1) || dieRatio s (p.1 / 65536 / framesPerStack / 4))
/-- Bytes that a hub engine reads, and its write of bytes: local memory lies behind the die's bridge to the hub (R349). -/
def hubRead (s : State) (ps : List (Nat × Nat)) : List Byte := crossed (piecesCross s ps) s (readPieces s ps)
def hubWrite (s : State) (ps : List (Nat × Nat)) (bs : List Byte) : State :=
  tickCross (piecesCross s ps) bs.length (writePieces s ps (crossed (piecesCross s ps) s bs))
/-- The front end's write of bytes, over its bridge to the hub (R349). -/
def feWrite (s : State) (ps : List (Nat × Nat)) (bs : List Byte) : State :=
  tickCross (feRatio s) bs.length (writePieces s ps (crossed (feRatio s) s bs))
/-- The free values that a hub engine's read has taken. -/
def tickHub (ps : List (Nat × Nat)) (s : State) : State := tickCross (piecesCross s ps) (ps.map (·.2)).sum s

/-- The PASID of a request: none, or its 20 bits in 3 bytes (R191, R272). -/
def pasidBytes (p : Option Nat) : List Byte :=
  match p with
  | none => []
  | some v => leBytes 3 v

/-- Note that `user` waits for a host page, asking for its translation unless an answer is already awaited (R191, R192). -/
def noteWait (s : State) (c : Ctx) (user page : Nat) : State :=
  let mine : HostWait := { user := user, fn := c.fn, pasid := c.pasid, page := page }
  let same := s.link.waits.any (fun w => w.fn == c.fn && w.pasid == c.pasid && w.page == page && w.fail == none)
  let s1 := if s.link.waits.contains mine then s else { s with link := { s.link with waits := s.link.waits ++ [mine] } }
  if same then s1 else s1.send { kind := .atsRequest, a := c.fn, b := page, bytes := pasidBytes c.pasid }

/-- Forget what a user waited for. -/
def dropWaits (s : State) (user : Nat) : State :=
  { s with link := { s.link with waits := s.link.waits.filter (fun w => w.user != user) } }

/-- Users of host translations: a descriptor, a launch, a queue's ring, the records a context's fences need. -/
def userDesc (q i : Nat) : Nat := 4 * (q * 2 ^ 64 + i)
def userLaunch (l : Nat) : Nat := 4 * l + 1
def userRing (q : Nat) : Nat := 4 * q + 2
def userRecord (ctx : Nat) : Nat := 4 * ctx + 3

/-! ### Context records (R199, R234) -/

def ctxTable (s : State) : Nat := (mget s.regs 0 0x120).toNat + 2 ^ 32 * (mget s.regs 0 0x124).toNat

def stoppedMask (s : State) (ctx : Nat) : Nat :=
  (List.range 16).foldl (fun a k => match s.queue? (ctx * 16 + k) with
    | some q => if q.st == .stopped then a + 2 ^ k else a
    | none => a) 0

def ctxEntry (s : State) (ctx : Nat) : List Byte :=
  match s.ctx? ctx with
  | none => leBytes 16 0
  | some c =>
    let st := match c.st with
      | .free => 0
      | .live => 1
      | .destroying => 2
    leBytes 16 (st + 256 * b2n c.fault.isSome + 65536 * stoppedMask s ctx)

/-- Whether a record write of a context can be made now: its physical pieces, a failure, or a wait. -/
def recordWalk (s : State) (ctx : Option Nat) (fn addr n : Nat) : Walk :=
  match ctx with
  | none => if reqOpen s fn addr then { pieces := [(hostBase + addr, n)], moved := n } else { stop := some (.wait (addr / 4096)) }
  | some k =>
    match s.ctx? k with
    | none => { stop := some (.bad 3 0x0701) }
    | some c =>
      if hostBase ≤ addr && !reqOpen s fn (addr - hostBase) then { stop := some (.wait ((addr - hostBase) / 4096)) }
      else walkVa s c false (userRecord k) addr n true

/-- A context known by its function and PASID alone: no local page of it is mapped. -/
def tagCtx (fn : Nat) (pasid : Option Nat) : Ctx := { fn := fn, pasid := pasid }

/-- The walk of a held record: by its context, or by the tag of one that is gone (R243). -/
def heldWalk (s : State) (h : HeldWrite) : Walk :=
  match h.gone with
  | none => recordWalk s h.ctx h.fn h.addr h.bytes.length
  | some p =>
    if reqOpen s h.fn (h.addr - hostBase) then walkVa s (tagCtx h.fn p) false (userRecord noContext) h.addr h.bytes.length true
    else { stop := some (.wait ((h.addr - hostBase) / 4096)) }

/-- Ask for the page that a held record awaits, if its function may ask (R191, R280). -/
def askHeld (s : State) (h : HeldWrite) (page : Nat) : State :=
  if !reqOpen s h.fn (4096 * page) then s
  else match h.gone, h.ctx.bind s.ctx? with
    | some p, _ => noteWait s (tagCtx h.fn p) (userRecord noContext) page
    | none, some c => noteWait s c (userRecord (h.ctx.getD 0)) page
    | none, none => s

/-- A bus-address record write of the physical function (context status table, admin records, ready map). -/
def busWrite (s : State) (addr : Nat) (bs : List Byte) : State :=
  if reqOpen s 0 addr && s.link.held.all (fun h => h.fn != 0) then writePhys s (hostBase + addr) bs
  else { s with link := { s.link with held := s.link.held ++ [⟨0, none, addr, bs, 0, none, none, none, none⟩] } }

/-- Write the context status entry on a change (R234); a table address of 0 is not written. -/
def writeCtxEntry (s : State) (ctx : Nat) : State :=
  if ctxTable s = 0 || s.flt.safe then s else busWrite s (ctxTable s + 16 * ctx) (ctxEntry s ctx)

/-- The failure of a record's page is answered once. -/
def dropFailed (s : State) (user page : Nat) : State :=
  { s with link := { s.link with waits := s.link.waits.filter (fun w => !(w.user == user && w.page == page && w.fail.isSome)) } }

/-- A translation fault of a context: the first fills its record, later ones count (R199). Each is class K for the context (R197). -/
def fillFault (s : State) (ctx : Nat) (r : FaultRec) : State :=
  match s.ctx? ctx with
  | none => s
  | some c =>
    let s := dropFailed s (userRecord ctx) ((r.va - hostBase) / 4096)
    match c.fault with
    | some f => faultEvent (s.setCtx ctx { c with fault := some { f with count := satInc32 f.count } }) 1 7 0 1 ctx 0
    | none => writeCtxEntry (faultEvent (s.setCtx ctx { c with fault := some { r with count := 0 } }) 1 7 0 1 ctx 0) ctx

/-- A record write of a context (R212, R224, R226): made, held for Bus Master Enable or a translation, or dropped with its
fault recorded. -/
def ctxWrite (s : State) (ctx fn addr : Nat) (bs : List Byte) (tag : Nat) : State :=
  let blocked := s.link.held.any (fun h => h.fn == fn)
  let k := recordWalk s (some ctx) fn addr bs.length
  match k.stop with
  | none =>
    if blocked && hostBase ≤ addr then { s with link := { s.link with held := s.link.held ++ [⟨fn, some ctx, addr, bs, tag, none, none, none, none⟩] } }
    else writePieces s k.pieces bs
  | some (.wait page) =>
    let s1 : State := { s with link := { s.link with held := s.link.held ++ [⟨fn, some ctx, addr, bs, tag, none, none, none, none⟩] } }
    match s.ctx? ctx with
    | some c => if reqOpen s fn (4096 * page) then noteWait s1 c (userRecord ctx) page else s1
    | none => s1
  | some (.bad st d) => fillFault s ctx ⟨addr, 0, st, d, 2, 255, tag, 0⟩
  | some _ => s

/-- Translate a ring, doorbell, completion or status access of a queue (R191, R210, R244): bus addresses on the admin queue. -/
def qWalk (s : State) (q : Nat) (x : Queue) (va n : Nat) (write : Bool) : Walk :=
  if q = adminQid then
    if reqOpen s 0 va then { pieces := [(hostBase + va, n)], moved := n } else { stop := some (.wait (va / 4096)) }
  else
    match s.ctx? x.ctx with
    | none => { stop := some (.bad 3 0x0701) }
    | some c =>
      if hostBase ≤ va && !reqOpen s c.fn (va - hostBase) then { stop := some (.wait ((va - hostBase) / 4096)) }
      else walkVa s c x.ringsTranslated (userRecord x.ctx) va n write

/-- Whether a queue's record lies in host memory. -/
def qHost (q va : Nat) : Bool := q == adminQid || decide (hostBase ≤ va)

/-- A record of a queue that waits. -/
def qHeld (q : Nat) (x : Queue) (va : Nat) (bs : List Byte) (behind : Option (Nat × Option Nat)) : HeldWrite :=
  if q = adminQid then ⟨0, none, va, bs, 0, some q, none, none, behind⟩
  else if x.ringsTranslated && hostBase ≤ va then ⟨x.fn, none, va - hostBase, bs, 0, some q, none, none, behind⟩
  else ⟨x.fn, some x.ctx, va, bs, 0, some q, none, none, behind⟩

/-- Whether a held record comes before a completion record: a fence of its context or that context's status entry, or the status block of
the queue its descriptor created (R224, R234, R235). -/
def heldBefore (s : State) (behind : Option (Nat × Option Nat)) (h : HeldWrite) : Bool :=
  match behind with
  | none => false
  | some (ctx, new) =>
    if h.q.isSome then new.isSome && h.q == new
    else h.ctx == some ctx || (h.fn == 0 && h.ctx.isNone && h.gone.isNone && h.addr == ctxTable s + 16 * ctx)

def holdWrite (s : State) (h : HeldWrite) : State := { s with link := { s.link with held := s.link.held ++ [h] } }

/-- Ask for the page that a held record waits for (R191). -/
def waitRecord (s : State) (ctx page : Nat) : State :=
  match s.ctx? ctx with
  | none => s
  | some c => if reqOpen s c.fn (4096 * page) then noteWait s c (userRecord ctx) page else s

/-- Write a record of a queue, in order behind held ones of its function and of its own (R212), and a completion record behind what comes
before it; the second component is a translation failure, with nothing written. -/
def tryRecord (s : State) (q : Nat) (x : Queue) (va : Nat) (bs : List Byte) (behind : Option (Nat × Option Nat)) : State × Option (Nat × Nat) :=
  let k := qWalk s q x va bs.length true
  match k.stop with
  | none => (if s.link.held.any (fun h => (qHost q va && h.fn == x.fn) || h.q == some q || heldBefore s behind h) then holdWrite s (qHeld q x va bs behind)
    else feWrite s k.pieces bs, none)
  | some (.wait page) => (waitRecord (holdWrite s (qHeld q x va bs behind)) x.ctx page, none)
  | some (.bad st d) => (s, some (st, d))
  | some _ => (s, some (3, 0x0703))

def qStateCode (x : Queue) : Nat :=
  match x.st with
  | .active => 0
  | .stopped => 1
  | .destroyed => 2

/-- The queue status block (R212); the admin queue's follows its completion ring (R244). -/
def statusBytes (x : Queue) : List Byte := leBytes 8 x.consumer ++ leBytes 8 (qStateCode x)
def statusVa (q : Nat) (x : Queue) : Nat := if q = adminQid then x.cplVa + 32 * 2 ^ x.sizeLog2 else x.stVa

/-- A queue stops after a translation fault on its ring, doorbell, completions or status (R236). -/
def haltQueue (q : Nat) (s : State) : State :=
  match s.queue? q with
  | none => s
  | some x =>
    if q = adminQid || x.st != .active then s
    else
      let y : Queue := { x with st := .stopped }
      (tryRecord (writeCtxEntry (s.setQueue q y) x.ctx) q y (statusVa q y) (statusBytes y) none).1

/-- A translation fault of a queue access (R199, R236): recorded with SOURCE 2, and the queue stops. -/
def ringFault (q : Nat) (x : Queue) (va st d : Nat) (s : State) : State :=
  haltQueue q (if q = adminQid then s else fillFault s x.ctx ⟨va, 0, st, d, 2, 255, 0, 0⟩)

/-- Write a record of a queue; a failure stops the queue, and is dropped once it is stopped (R236). -/
def ringWrite (s : State) (q : Nat) (va : Nat) (bs : List Byte) (behind : Option (Nat × Option Nat)) : State :=
  match s.queue? q with
  | none => s
  | some x =>
    match tryRecord s q x va bs behind with
    | (s1, none) => s1
    | (s1, some (st, d)) => if x.st == .active then ringFault q x va st d s1 else dropFailed s1 (userRecord x.ctx) ((va - hostBase) / 4096)

/-- Write the status block of a queue (R212). -/
def writeStatus (q : Nat) (s : State) : State :=
  match s.queue? q with
  | none => s
  | some x => ringWrite s q (statusVa q x) (statusBytes x) none

/-- The event of a completion follows its record (R224, R268). -/
def heldIrq (h : HeldWrite) (s : State) : State :=
  match h.irq with
  | some v => raiseVec s v
  | none => s

/-- Make the held records of a function that can now be made, in order (R280), a completion record after what comes before it (R224); none
is made in the safe state (R404). -/
def flushHeld : (fuel : Nat) → (fn : Nat) → State → State
  | 0, _, s => s
  | n + 1, fn, s =>
    if s.flt.safe then s
    else match s.link.held.find? (fun h => h.fn == fn) with
    | none => s
    | some h =>
      if (s.link.held.takeWhile (· != h)).any (heldBefore s h.behind) then s else
      let k := heldWalk s h
      let s1 : State := { s with link := { s.link with held := s.link.held.erase h } }
      match k.stop with
      | none => flushHeld n fn (heldIrq h (writePieces s1 k.pieces h.bytes))
      | some (.bad st d) => flushHeld n fn (heldIrq h <| match h.ctx, h.q with
          | some c, some q => haltQueue q (fillFault s1 c ⟨h.addr, 0, st, d, 2, 255, h.tag, 0⟩)
          | some c, none => fillFault s1 c ⟨h.addr, 0, st, d, 2, 255, h.tag, 0⟩
          | none, _ => dropFailed s1 (userRecord noContext) ((h.addr - hostBase) / 4096))
      | some (.wait page) => askHeld s h page
      | some _ => s

/-- Make every held record that can now be made, of any function: one that is made may let another function's go (R224, R235). -/
def flushAll : (fuel : Nat) → State → State
  | 0, s => s
  | n + 1, s =>
    let t := foldState ((s.link.held.map (·.fn)).eraseDups) (flushHeld (s.link.held.length + 1)) s
    if t.link.held.length < s.link.held.length then flushAll n t else t

/-- The records of a context that is going: those in local memory are made, those of the host aperture stand, under its tag (R243). -/
def leaveHeld (ctx : Nat) (c : Ctx) (s : State) : State :=
  let mine := s.link.held.filter (fun h => h.ctx == some ctx)
  let s1 := foldState (mine.filter (fun h => decide (h.addr < hostBase))) (fun h a =>
    heldIrq h (writePieces a (recordWalk a h.ctx h.fn h.addr h.bytes.length).pieces h.bytes)) s
  let s2 : State := { s1 with link := { s1.link with
    held := (s1.link.held.filter (fun h => !(h.ctx == some ctx && decide (h.addr < hostBase)))).map (fun h =>
      if h.ctx = some ctx then { h with ctx := none, gone := some c.pasid, q := none } else h) } }
  dropWaits s2 (userRecord ctx)

/-! ### CDC write-back (R158, R160, R163, R168) -/

/-- The bytes of a line image. -/
def lineBytes (d : W512) : List Byte := leBytes 64 d.toNat

/-- Write the masked bytes of a line to its recorded home, byte 0 first. -/
def putMasked (s : State) (home : Nat) (mask : W64) : (k : Nat) → List Byte → State
  | _, [] => s
  | k, b :: bs => putMasked (if mask.getLsbD k then writePhys s (home + k) [b] else s) home mask (k + 1) bs

/-- CDC `k` writes back a DIRTY line. -/
def writeBack (k : Nat) (s : State) (x : CLine) : State :=
  let ok := coreRatio s (k / 64)
  if x.dirty then tickCross ok 64 (putMasked s x.home x.mask 0 (crossed ok s (lineBytes x.data))) else s

/-- Write back and invalidate every line of a CDC, its eviction buffer included (R160, R167, R168). A fill in progress keeps the
translation it took, and its line does not stay (R187). -/
def cdcFlush (k : Nat) (s : State) : State :=
  let x := s.cdc k
  let s1 := foldState x.evict (fun e a => writeBack k a e) s
  let s2 := foldState x.lines (fun e a => writeBack k a e.2) s1
  s2.setCdc k { x with lines := [], evict := [], queue := x.queue.map (fun a => { a with old := true }) }

/-- A CDC drops the accesses and the fill of a launch that leaves its region (R23, R154). -/
def cdcDrop (k : Nat) (s : State) : State := s.setCdc k { s.cdc k with queue := [], miss := none, refetch := [] }

/-- The walk over the CDCs of one region (R168). -/
def rgnFlush (r : Nat) (s : State) : State := foldState ((List.range 8).map (8 * r + ·)) cdcFlush s

/-- The context walk: every region that runs the context; a launch it delays may breach with DETAIL 0x0004 (R168). -/
def contextWalk (ctx : Nat) (s : State) : State :=
  foldState (List.range 16) (fun r a =>
    match (a.rgn r).launch with
    | none => a
    | some l => match a.launch? l with
      | some x =>
        if x.ctx == ctx then
          rgnFlush r (a.setLaunch l { x with breach := if x.breach = 0 then 4 else x.breach, excused := true })
        else a
      | none => a) s

/-! ### Frames (R176, R187, R188) -/

def stackOf (f : Nat) : Nat := f / framesPerStack
def stackAt (s : State) (k : Nat) : Stack := s.mem.hbm.getD k {}
def stackReady (s : State) (k : Nat) : Bool := (stackAt s k).st == .ready
/-- FAILED or out of service: its frames are LOST (R176). -/
def lostStack (s : State) (k : Nat) : Bool := (stackAt s k).st == .failed || (stackAt s k).st == .outOfService
def setStack (s : State) (k : Nat) (x : Stack) : State := { s with mem := { s.mem with hbm := s.mem.hbm.set k x } }

/-- Inside the top share of its stack once the reserved area is placed (R177). -/
def inReserved (s : State) (f : Nat) : Bool :=
  decide (framesPerStack - s.mem.shares.getD (stackOf f) 2496 ≤ f % framesPerStack)

def frameAt (s : State) (f : Nat) : FrameState :=
  if lostStack s (stackOf f) then .lost
  else if inReserved s f then .reserved else mget s.mem.frames .scrubbing f

def setFrame (s : State) (f : Nat) (x : FrameState) : State :=
  { s with mem := { s.mem with frames := mset s.mem.frames .scrubbing f x } }

/-- Frames that started transfers, copies or CDC accesses still use (R187). -/
def frameInUse (s : State) (f : Nat) : Bool :=
  let on := fun (m : Nat × Nat) => decide (m.1 < hostBase) && decide (m.1 < f * 65536 + 65536) && decide (f * 65536 < m.1 + m.2)
  s.net.jobs.any (fun p => (p.2.mem ++ p.2.uses).any on) || s.net.qps.any (fun p => (p.2.sends ++ p.2.recvs).any (fun y => y.mem.any on)) ||
  s.rgns.any (fun p => p.2.fifo.any (fun e => e.mem.any (fun m => decide (m.1 < hostBase) && m.1 / 65536 == f)))
    || s.cdcs.any (fun p => p.2.queue.any (fun a => decide (a.home < hostBase) && a.home / 65536 == f))

/-- A freed frame goes to RETIRED when marked, else to SCRUBBING (R174, R188). -/
def freedState (s : State) (f : Nat) : FrameState := if s.mem.marked.contains f then .retired else .scrubbing

/-- Release a frame of a function: it stays ALLOCATED, and counts for the function, while a started access uses it (R186, R187). -/
def releaseFrame (c : Ctx) (f : Nat) (s : State) : State :=
  if frameInUse s f then
    setFrame { s with mem := { s.mem with heldFn := mins s.mem.heldFn f c.fn, heldLta := mins s.mem.heldLta f c.ltaBase } } f .held
  else setFrame s f (freedState s f)

/-- Held frames that no access uses any more enter SCRUBBING (R187). -/
def settleFrames (s : State) : State :=
  foldState (mkeys s.mem.frames (fun _ x => x == .held)) (fun f a =>
    if frameInUse a f then a else setFrame { a with mem := { a.mem with heldFn := mdel a.mem.heldFn f, heldLta := mdel a.mem.heldLta f } } f (freedState a f)) s

def countFrames (s : State) (k : Nat) (p : FrameState → Bool) : Nat :=
  if lostStack s k then 0 else (s.mem.frames.filter (fun e => stackOf e.1 == k && p e.2 && !inReserved s e.1)).length

/-- FREE frames of a stack. -/
def freeIn (s : State) (k : Nat) : Nat := countFrames s k (· == .free)
/-- SCRUBBING frames of a stack: every frame that is in no other state. -/
def scrubIn (s : State) (k : Nat) : Nat := if lostStack s k then 0 else framesPerStack - s.mem.shares.getD k 2496 - countFrames s k (fun _ => true)

/-! ### Fences (R226 to R230) -/

def fenceBytes (idx : Nat) (f : Fence) (registered : Bool) : List Byte :=
  leBytes 8 f.value ++ leBytes 8 (f.cause + 256 * (b2n f.abandoned + 2 * b2n registered) + 65536 * f.ctx
    + 2 ^ 32 * (idx + 2 ^ 20 * f.queue))

/-- Write a fence's mirror (R226). -/
def mirrorFence (s : State) (idx : Nat) (f : Fence) (registered : Bool) (tag : Nat) : State :=
  match s.ctx? f.ctx with
  | none => s
  | some c => ctxWrite s f.ctx c.fn f.va (fenceBytes idx f registered) tag

def setFence (s : State) (idx : Nat) (f : Fence) : State := { s with fe := { s.fe with fences := mins s.fe.fences idx f } }

/-- Read the record of an unregistered fence (R228). -/
def readRecord (s : State) (ctx va user : Nat) : Except Tr (List Byte) :=
  match s.ctx? ctx with
  | none => .error (.bad 3 0x0701)
  | some c =>
    let k := walkVa s c false user va 16 false
    match k.stop with
    | none => .ok (readPieces s k.pieces)
    | some t => .error t

/-- The table entry of the fence at an address (R226 to R228): an entry of the context's own is found in the table with no
translation; otherwise the record is read, and the entry it claims counts if it names that address. -/
def fenceFind (s : State) (ctx va : Nat) : Option (Nat × Fence) :=
  match s.fe.fences.find? (fun p => p.2.va == va && p.2.ctx == ctx) with
  | some e => some e
  | none =>
    match readRecord s ctx va (userRecord ctx) with
    | .error _ => none
    | .ok bs =>
      let w := ofLe bs
      match mfind s.fe.fences (field w 96 20) with
      | some f => if bitOf w 73 && f.va == va then some (field w 96 20, f) else none
      | none => none

/-- The page that a signal or an abandonment of a released fence awaits, to read its record (R229, R230). -/
def recordPage (s : State) (ctx va : Nat) : Option Nat :=
  match fenceFind s ctx va with
  | some _ => none
  | none => match readRecord s ctx va (userRecord ctx) with
    | .error (.wait page) => some page
    | _ => none

/-- Abandon a registered fence with a cause (R230). -/
def abandonFence (idx cause tag : Nat) (s : State) : State :=
  match mfind s.fe.fences idx with
  | none => s
  | some f =>
    let f' : Fence := { f with abandoned := true, cause := cause }
    mirrorFence (setFence s idx f') idx f' true tag

/-- A signal of `v` by queue `q` (R229): the state and whether the signal was a regression. -/
def applySignal (s : State) (q ctx va v tag : Nat) : State × Bool :=
  let fn := match s.ctx? ctx with
    | some c => c.fn
    | none => 0
  match fenceFind s ctx va with
  | some (idx, f) =>
    if diff64 v f.value > 0 then
      let f' : Fence := { f with value := v % 2 ^ 64 }
      let s1 := mirrorFence (setFence s idx f') idx f' true tag
      (if q % 16 == f.queue && q / 16 == f.ctx then s1 else logViol s1 0x08 fn 5 va q, false)
    else (logViol s 0x07 fn 1 va q, true)
  | none =>
    match readRecord s ctx va (userRecord ctx) with
    | .ok bs =>
      if diff64 v (ofLe (bs.take 8)) > 0 then (ctxWrite s ctx fn va (leBytes 8 v) tag, false)
      else (logViol s 0x07 fn 1 va q, true)
    | .error (.bad st d) => (fillFault s ctx ⟨va, 0, st, d, 2, 255, tag, 0⟩, false)
    | .error _ => (ctxWrite s ctx fn va (leBytes 8 v) tag, false)

/-- Abandon the fence a descriptor would have signalled (R230): in the table, or in the record when it was released. -/
def abandonSignal (s : State) (ctx va cause tag : Nat) : State :=
  match fenceFind s ctx va with
  | some (idx, _) => abandonFence idx cause tag s
  | none =>
    let fn := match s.ctx? ctx with
      | some c => c.fn
      | none => 0
    match readRecord s ctx va (userRecord ctx) with
    | .ok bs =>
      let flags := ofLe ((bs.drop 9).take 1)
      ctxWrite s ctx fn (va + 8) (leBytes 1 cause ++ leBytes 1 (setField (setField flags 0 1 1) 1 1 0) ++ bs.drop 10) tag
    | .error (.bad st d) => fillFault s ctx ⟨va, 0, st, d, 2, 255, tag, 0⟩
    | .error _ => s

/-! ### Descriptors (R216, R224) -/

def dField (d : W512) (byte len : Nat) : Nat := field d.toNat (8 * byte) (8 * len)
def dOpcode (d : W512) : Nat := dField d 0 2
def dFlags (d : W512) : Nat := dField d 2 1
def dWaitEn (d : W512) : Bool := bitOf (dFlags d) 0
def dSignalEn (d : W512) : Bool := bitOf (dFlags d) 1
def dCompleteEn (d : W512) : Bool := bitOf (dFlags d) 2
def dChain (d : W512) : Bool := bitOf (dFlags d) 3
def dIrq (d : W512) : Bool := bitOf (dFlags d) 4
def dTranslated (d : W512) : Bool := bitOf (dFlags d) 5
def dClass (d : W512) : Nat := dField d 3 1
def dTag (d : W512) : Nat := dField d 4 4
def dWaitAddr (d : W512) : Nat := dField d 8 8
def dWaitValue (d : W512) : Nat := dField d 16 8
def dSignalAddr (d : W512) : Nat := dField d 24 8
def dSignalValue (d : W512) : Nat := dField d 32 8

/-- A descriptor's work ends: its status, detail and result are fixed and stamped; its completion follows (R224). -/
def finishDesc (s : State) (q i status detail result : Nat) (ran : Bool) : State :=
  match s.desc? q i with
  | none => s
  | some d => dropWaits (s.setDesc q i { d with
      phase := .done, status := status, detail := detail, result := result, stamp := s.now, ran := ran }) (userDesc q i)

/-! ### The ready map (R376, R377) -/

def isReady (s : State) (i : Nat) : Bool := bitOf s.boot.ready i
def isFailed (s : State) (i : Nat) : Bool := bitOf s.boot.failed i

/-- Write the ready map record: bytes 8 to 31 first, GEN afterwards (R377). -/
def copyReady (s : State) : State :=
  if !isReady s 1 || rd64 s 0x30 = 0 || s.flt.safe then s
  else
    let g := s.boot.gen + 1
    let s1 := { s with boot := { s.boot with gen := g } }
    busWrite (busWrite s1 (rd64 s 0x30 + 8) (leBytes 8 s.boot.ready ++ leBytes 8 s.boot.failed ++ leBytes 8 0)) (rd64 s 0x30) (leBytes 8 g)

/-- Set bit `i` of the map: 0 starting or off, 1 ready, 2 failed; a change is copied. -/
def setMap (i v : Nat) (s : State) : State :=
  let r := setField s.boot.ready i 1 (b2n (v == 1))
  let f := setField s.boot.failed i 1 (b2n (v == 2))
  if r = s.boot.ready && f = s.boot.failed then s
  else copyReady { s with boot := { s.boot with ready := r, failed := f } }

/-- The front end runs: it has reported ready, the device is neither in the safe state nor in DORMANT (R374, R404), and neither its clock
nor the hub's is stopped for want of IBO (R354). -/
def feRuns (s : State) : Bool := isReady s 1 && !s.flt.safe && s.pwr.dev == .up && !s.clk.stopped.contains 7 && !s.clk.stopped.contains 6

/-! ### Regions of the residency set and of the service (R33, R34, R260, R262) -/

def coresOf (r : Nat) : List Nat := (List.range 32).map (32 * r + ·)
def cdcsOf (r : Nat) : List Nat := (List.range 8).map (8 * r + ·)

/-- Zero a model's range on its regions. -/
def zeroModel (e : ResEntry) (s : State) : State :=
  foldState (e.regions.flatMap (fun r => (List.range 32).map (32 * r + ·)))
    (fun c a => a.setCore c { a.core c with ts := zeroRange (a.core c).ts e.base e.bytes }) s

/-- Evict the entries a test selects; an evicted range is zeroed. -/
def evictModels (p : ResEntry → Bool) (s : State) : State :=
  let out := s.fe.residency.filter p
  let s1 := foldState out zeroModel s
  { s1 with fe := { s1.fe with residency := s1.fe.residency.filter (fun e => !p e) } }

/-- A launch still counted by admission (R56, R60). -/
def isAdmitted (x : Launch) : Bool := x.lc && !x.asBe && x.phase != .ended

/-- A region's state, and its bits of the ready map: READY follows IN_SERVICE, FAILED follows FAILED (R376). -/
def setRgnState (r : Nat) (st : RgnState) (s : State) : State :=
  let s1 := s.setRgn r { s.rgn r with st := st, idleSince := s.now }
  setMap (12 + r) (match st with
    | .inService => 1
    | .failed => 2
    | _ => 0) s1

/-- A region reset (R34): clusters, stream engine, binning unit, semaphores and counts; models on it are evicted (R260). -/
def resetRegion (r : Nat) (s : State) : State :=
  let s1 := evictModels (fun e => e.regions.contains r) s
  let s2 := foldState (coresOf r) (fun c a => a.setCore c {}) s1
  let s3 := foldState (cdcsOf r) (fun k a => a.setCdc k {}) s2
  s3.setRgn r { st := (s.rgn r).st, idleSince := s.now }

/-- A DRAINING region with no launch on it and none placed on it becomes OUT (R262). -/
def settleDraining (s : State) : State :=
  foldState (List.range 16) (fun r a =>
    if (a.rgn r).st == .draining && (a.rgn r).launch == none && !a.fe.launches.any (fun p => isAdmitted p.2 && p.2.regions.contains r)
    then setRgnState r .out (resetRegion r a) else a) s

/-! ### The end of a launch (R120, R259 to R264) -/

def isBeRun (x : Launch) : Bool := (!x.lc || x.asBe) && x.phase != .ended

def lcAdmitted (s : State) : Nat := (s.fe.launches.filter (fun p => isAdmitted p.2)).length

/-- The lane groups of a core stop and its queues empty. -/
def stopCore (x : Core) : Core := { x with lgs := [], matQ := [], woQ := [], gfx := {} }

/-- Regions leave a launch: lane groups stop, streams and waiters are dropped, semaphores read 0, CDCs are flushed. -/
def freeRegion (ctx : Nat) (r : Nat) (s : State) : State :=
  let s0 := foldState ((List.range 8).map (8 * r + ·)) cdcDrop (rgnFlush r s)
  let s1 := { s0 with net := { s0.net with jobs := mdrop s0.net.jobs (fun _ j => match j.user with
    | .entry k _ _ => k == r
    | .copy _ _ => false) } }
  let x := s1.rgn r
  let x' : Region := { x with
    launch := none, lastCtx := some ctx, clear := false, sems := [], waiters := [], fifo := [], started := [], done := [], after := [], held := none, geo := {}
    idleSince := s.now }
  let s2 := s1.setRgn r x'
  foldState ((List.range 32).map (32 * r + ·)) (fun c a => a.setCore c (stopCore (a.core c))) s2

/-- Regions of a launch that it still holds. -/
def heldRegions (s : State) (l : Nat) (x : Launch) : List Nat := x.regions.filter (fun r => (s.rgn r).launch == some l)

/-- A region is idle from the end of its last launch or placement on (R356). -/
def endPlacement (r : Nat) (s : State) : State := s.setRgn r { s.rgn r with idleSince := s.now }

/-- Free units of a part of the save pool on each stack. -/
def freeUnits (s : State) (lc : Bool) : List Nat := if lc then s.fe.lcFree else s.fe.beFree
def setUnits (lc : Bool) (l : List Nat) (s : State) : State :=
  if lc then { s with fe := { s.fe with lcFree := l } } else { s with fe := { s.fe with beFree := l } }

/-- Take `n` units, each from the stack with the most free ones, so that they lie spread (R254; log entry 94): those on each stack, and
what is left free. -/
def takeUnits : (n : Nat) → (got free : List Nat) → List Nat × List Nat
  | 0, got, free => (got, free)
  | n + 1, got, free =>
    match free.idxOf? (free.foldl max 0) with
    | some k => if free.getD k 0 = 0 then (got, free) else takeUnits n (got.set k (got.getD k 0 + 1)) (free.set k (free.getD k 0 - 1))
    | none => (got, free)

/-- The stacks of a reservation's units in the order in which the stripes fill them: one unit of each stack in turn (log entry 123). -/
def unitOrder (at_ : List Nat) : List Nat :=
  (List.range (at_.foldl max 0)).flatMap (fun j => (List.range 8).filter (fun k => decide (j < at_.getD k 0)))

/-- The stacks that hold the first `n` saved bytes, striped 1 KiB at a time over the units of a reservation (R254). -/
def stripeStacks (at_ : List Nat) (n : Nat) : List Nat :=
  let used := (unitOrder at_).take (ceilDiv n 1024)
  (List.range 8).filter used.contains

/-- A launch takes free units of its part for those it lost (R178). -/
def refillUnits (l : Nat) (s : State) : State :=
  match s.launch? l with
  | none => s
  | some x =>
    if x.lostUnits = 0 || x.phase == .ended then s
    else
      let free := freeUnits s x.lcUnits
      let r := takeUnits (min x.lostUnits free.sum) x.unitsAt free
      (setUnits x.lcUnits r.2 s).setLaunch l { x with unitsAt := r.1, lostUnits := x.lostUnits - min x.lostUnits free.sum }

/-- Units go back to the pool part they came from (R256); launches that lack some are made whole again (R178). -/
def returnUnits (x : Launch) (s : State) : State :=
  let s1 := setUnits x.lcUnits (List.zipWith (· + ·) (freeUnits s x.lcUnits) x.unitsAt) s
  foldState (mkeys s1.fe.launches (fun _ y => y.lcUnits == x.lcUnits && y.lostUnits != 0)) refillUnits s1

/-- Drop a launch's pins (R58, R260). -/
def dropPins (l : Nat) (s : State) : State :=
  { s with fe := { s.fe with residency := s.fe.residency.map (fun e => { e with pins := e.pins.filter (· != l) }) } }

/-- A BE bound lapses once its group holds no admitted LC launch (R426). -/
def lapseBounds (s : State) : State :=
  let has := fun g => s.fe.launches.any (fun p => isAdmitted p.2 && p.2.group == g)
  { s with fe := { s.fe with beBound := mdrop s.fe.beBound (fun g _ => !has g) } }

def costSum (p : Plan) (n : Nat) : CostRec :=
  (p.costs.take n).foldl (fun a c => ⟨a.cycles + c.cycles, a.bytes + c.bytes, a.energy + c.energy⟩) ⟨0, 0, 0⟩

/-- Charge the started steps of a completed launch to its context (R264). -/
def chargeLaunch (x : Launch) (s : State) : State :=
  match s.ctx? x.ctx, s.planOf x.ver with
  | some c, some p =>
    let k := costSum p x.started
    s.setCtx x.ctx { c with
      cycles := (c.cycles + k.cycles) % 2 ^ 64, bytes := (c.bytes + k.bytes) % 2 ^ 64, energy := (c.energy + k.energy) % 2 ^ 64 }
  | _, _ => s

/-- A voided or breached launch is counted and logged (R61): FE_BREACH_COUNT and a class C event under FE, CODE 2. -/
def countBreach (x : Launch) (st d : Nat) (s : State) : State :=
  faultEvent { s with fe := { s.fe with breaches := satInc32 s.fe.breaches } } 0 7 0 2 x.ctx (x.tag * 2 ^ 32 + st * 65536 + d)

/-- A launch ends with a status and detail: its regions, units and pins go back, its steps are charged, its descriptor is done. -/
def closeLaunch (l st d : Nat) (s : State) : State :=
  match s.launch? l with
  | none => s
  | some x =>
    if x.phase = .ended then s
    else
      let num := match mfind s.fe.vers x.ver with
        | some v => v.num
        | none => 0
      let s1 := foldState x.regions endPlacement (foldState (heldRegions s l x) (freeRegion x.ctx) s)
      let s2 := s1.setLaunch l { x with
        phase := .ended, units := 0, unitsAt := List.replicate 8 0, lostUnits := 0, saved := [], savedOn := [], stop := some (st, d) }
      let s3 := chargeLaunch x (dropPins l (returnUnits x s2))
      let s4 := finishDesc (dropWaits s3 (userLaunch l)) x.q x.i st d (x.flags % 65536 + 65536 * (num % 65536)) true
      settleDraining (settleFrames (lapseBounds s4))

/-- Merge arithmetic flags into a launch's word (R88). -/
def orFlags (l fl : Nat) (s : State) : State :=
  match s.launch? l with
  | none => s
  | some x => if fl = 0 then s else s.setLaunch l { x with flags := x.flags ||| fl }

/-- The launch a region runs. -/
def launchAt (s : State) (r : Nat) : Option (Nat × Launch) :=
  match (s.rgn r).launch with
  | none => none
  | some l => (s.launch? l).map (l, ·)


/-! ### Stacks that leave service (R33, R174, R178) -/

/-- The context that maps a frame. -/
def frameOwner (s : State) (f : Nat) : Option Nat :=
  s.mem.lta.findSome? (fun e =>
    if ltaValid e.2 && ltaFrame e.2 == f then (s.fe.ctxs.find? (fun c => decide (c.2.ltaBase ≤ e.1) && decide (e.1 < c.2.ltaBase + c.2.ltaCount))).map (·.1)
    else none)

/-- Contexts that own a frame in a stack. -/
def stackOwners (s : State) (k : Nat) : List Nat :=
  ((s.mem.lta.filterMap (fun e =>
    if ltaValid e.2 && stackOf (ltaFrame e.2) == k then (s.fe.ctxs.find? (fun c => decide (c.2.ltaBase ≤ e.1) && decide (e.1 < c.2.ltaBase + c.2.ltaCount))).map (·.1)
    else none))).dedup

/-- INFO of a record of a launch's end (R399). -/
def endInfo (x : Launch) (st d : Nat) : Nat := x.tag * 2 ^ 32 + st * 65536 + d

/-- End every launch of a context for a memory loss, class K: one event for each launch it ends, or one for a context with none (log entry 33). -/
def endContextLaunches (k ctx : Nat) (s : State) : State :=
  let ls := mkeys s.fe.launches (fun _ x => x.ctx == ctx && x.phase != .ended)
  if ls.isEmpty then faultEvent s 1 4 k 2 ctx 0 true
  else foldState ls (fun l a => faultEvent (closeLaunch l 0x10 0x0701 a) 1 4 k 2 ctx (((s.launch? l).map (fun x => endInfo x 0x10 0x0701)).getD 0) true) s


def stacksOfDie (d : Nat) : List Nat := [4 * d, 4 * d + 1, 4 * d + 2, 4 * d + 3]

/-- One launch's units in a lost stack: displaced with saved bytes there it ends; else replaced from its part's free units, or missing (R178). -/
def loseUnits (k : Nat) (l : Nat) (s : State) : State :=
  match s.launch? l with
  | none => s
  | some x =>
    let lost := x.unitsAt.getD k 0
    let s1 := s.setLaunch l { x with unitsAt := x.unitsAt.set k 0, lostUnits := x.lostUnits + lost }
    if lost = 0 then s
    else if x.savedOn.contains k then signalFault (closeLaunch l 0x10 0x0703 s1) 1 x.ctx
    else refillUnits l s1

/-- The save units of a lost stack are withdrawn: the free ones at once, those of launches as R178 gives. -/
def withdrawUnits (k : Nat) (s : State) : State :=
  let s1 := { s with fe := { s.fe with lcFree := s.fe.lcFree.set k 0, beFree := s.fe.beFree.set k 0 } }
  foldState (mkeys s1.fe.launches (fun _ x => x.units != 0 && x.phase != .ended)) (loseUnits k) s1

/-- Frames that hold one die's copy of the mirrored items: 224 MiB (R177). -/
def mirrorFrames : Nat := 3584

/-- The mirrored items in a lost stack: rebuilt on its die, or held in one copy; with the other copy incomplete, class D (R178). -/
def loseMirror (k n : Nat) (s : State) : State :=
  let d := k / 4
  if s.mem.mirrorMissing.contains (1 - d) then faultEvent s 3 4 k 4 noCtx 0
  else
    let left := (stacksOfDie d).filter (stackReady s)
    { s with mem := { s.mem with
      mirrorMissing := if s.mem.mirrorMissing.contains d then s.mem.mirrorMissing else s.mem.mirrorMissing ++ [d]
      mirrorNeed := mset s.mem.mirrorNeed 0 d (mget s.mem.mirrorNeed 0 d + ceilDiv mirrorFrames (max n 1))
      mirrorLost := s.mem.mirrorLost || left.isEmpty } }

/-- A stack leaves service (R33, R174, R178, R208, R397): class F, contexts with a frame in it end as K. -/
def failStack (k : Nat) (s : State) : State :=
  let onDie := ((stacksOfDie (k / 4)).filter (stackReady s)).length
  let owners := stackOwners s k
  let s1 := setMap (4 + k) 2 (setStack (faultEvent s 2 4 k 4 noCtx 0) k { stackAt s k with st := .outOfService })
  let s2 := foldState owners (endContextLaunches k) s1
  loseMirror k onDie (withdrawUnits k s2)

/-- Retired frames of a stack. -/
def retiredIn (s : State) (k : Nat) : Nat := (s.mem.frames.filter (fun e => e.2 == .retired && stackOf e.1 == k)).length

/-- A stack with 4,096 retired frames is taken out of service (R174). -/
def checkRetired (k : Nat) (s : State) : State := if stackReady s k && decide (4096 ≤ retiredIn s k) then failStack k s else s

/-- Every stack that has come to 4,096 retired frames leaves service (R174). -/
def settleStacks (s : State) : State := foldState (List.range 8) checkRetired s

/-- End a launch. Frames that its accesses held may retire with it, and their stack leave service (R174). -/
def endLaunch (l st d : Nat) (s : State) : State := settleStacks (closeLaunch l st d s)

/-- A core- or region-detected end of a launch (R120, R153, R170, R199, R258): class K under REGION, CODE 3. -/
def abortLaunch (l r st d : Nat) (s : State) : State :=
  match s.launch? l with
  | none => s
  | some x =>
    if x.phase = .ended then s
    else faultEvent (endLaunch l st d s) 1 3 r 3 x.ctx (x.tag * 2 ^ 32 + st * 65536 + d)

/-! ### Emergencies (R61, R348, R415) -/

/-- An emergency begins: every admitted LC launch it can make late carries its detail, unless an earlier one does. -/
def beginEmergency (d : Nat) (touches : Launch → Bool) (s : State) : State :=
  { s with
    pwr := { s.pwr with emergencies := if s.pwr.emergencies.contains d then s.pwr.emergencies else s.pwr.emergencies ++ [d] }
    fe := { s.fe with launches := mmap s.fe.launches (fun _ x =>
      if isAdmitted x && touches x then { x with breach := if x.breach = 0 then d else x.breach, excused := true } else x) } }

def endEmergency (d : Nat) (s : State) : State :=
  { s with pwr := { s.pwr with emergencies := s.pwr.emergencies.filter (· != d) } }

/-- The effective ceiling and the board power cap (R371, R414). -/
def connLimit (code : Nat) : Nat := if code = 0 then 0 else 150 * code
def supplyW (s : State) : Nat := 75 + connLimit s.pwr.connA + connLimit s.pwr.connB
def effCeiling (s : State) : Nat := min s.sec.otp.ceiling (supplyW s)
def capW (s : State) : Nat := min (max (field (rd s 0x040000) 0 10) 400) (effCeiling s)

def setMhz (d v : Nat) (s : State) : State :=
  if d = 0 then { s with clk := { s.clk with mhz0 := v } } else { s with clk := { s.clk with mhz1 := v } }

/-- Domains of the XTAL set, by SEL field (R351): all but PCIE_CLK. -/
def xtalSet : List Nat := [0, 1, 2, 3, 4, 5, 6, 7, 9, 10]

/-- A launch holds a region of a die. -/
def onDie (d : Nat) (x : Launch) : Bool := x.regions.any (fun r => r / 8 == d)

/-- Whether LC work is disabled and none is admitted (R67, R346). -/
def lcIdle (s : State) : Bool := !bitOf (rd s 0x010400) 0 && lcAdmitted s == 0

/-- LIMIT_C as it acts (R371). -/
def limitC (s : State) : Nat := clampN 70 105 (field (rd s 0x040014) 0 8)
/-- The issue of BE regions is stalled: by a junction at LIMIT_C, by the brake, or to stay under the board power cap (R57, R348, R415). -/
def beStalled (s : State) : Bool := s.pwr.beStall || s.pwr.brake || s.pwr.capStall
/-- The hottest junction (R348, R371). -/
def hottest (s : State) : Nat := max s.pwr.temp0 s.pwr.temp1
/-- A die's clock is held down by heat or by the brake. -/
def clockLimited (s : State) (d : Nat) : Bool := s.pwr.hot.contains d || s.pwr.brake

/-- The core clock of a die on its PLL: CORE_MAX while no limit applies, and not below CORE_MIN for the cap (R348). -/
def retarget (d : Nat) (s : State) : State :=
  if clkCur s d ≠ 0 || s.clk.stopped.contains d then s
  else setMhz d (if clockLimited s d then min (coreMhz s d) (coreMax s d)
    else if s.pwr.capped.contains d then clampN (coreMin s d) (coreMax s d) (coreMhz s d) else coreMax s d) s

/-- Domain `k` runs from source `v` (R344): a core domain runs at CORE_MAX, 400 or 25 MHz. -/
def setSrc (v k : Nat) (s : State) : State :=
  let s1 := { s with clk := { s.clk with cur := setField s.clk.cur (2 * k) 2 v, stopped := s.clk.stopped.filter (· != k) } }
  if k < 2 then (if v = 0 then retarget k s1 else setMhz k (if v = 1 then 400 else 25) s1) else s1

/-- Domain `k` stops with its state held (R354). -/
def stopDomain (k : Nat) (s : State) : State :=
  let s1 := { s with clk := { s.clk with stopped := if s.clk.stopped.contains k then s.clk.stopped else s.clk.stopped ++ [k] } }
  if k < 2 then setMhz k 0 s1 else s1

def setLock (p : Nat) (on : Bool) (s : State) : State := { s with clk := { s.clk with locks := setField s.clk.locks p 1 (b2n on) } }

end Sys2Proof.Machine
end

