-- ==== Sys2Proof/Machine/Flags.lean ====
section
/-! DEFINITION. Arithmetic flags (R88): the conditions that vector arithmetic and conversions raise, merged sticky into the
launch's flags word by `orFlags` (Ops.lean). -/

namespace Sys2Proof.Machine

/-- Flags of values read or produced: NAN_SEEN and INF_SEEN. -/
def seenFlags (vs : List FVal) : AFlags :=
  vs.foldl (fun a v => match v with
    | .nan => a ||| flNan
    | .inf _ => a ||| flInf
    | .fin _ _ => a) 0

/-- Flags of a vector result's rounding: a finite overflow counts as FP32_OVERFLOW, not as a write-out OVERFLOW (log entry 17). -/
def vecFlags (fl : AFlags) : AFlags :=
  if fl &&& flOverflow ≠ 0 then (fl &&& flUnderflow) ||| flFp32Ovf ||| flInf else fl

/-- Round an exact result to a vector format and give the flags of its inputs and output. -/
def vecRound (f : FFmt) (ins : List FVal) (v : FVal) : Nat × AFlags :=
  let r := encodeF f false .rne v
  (r.1, seenFlags ins ||| vecFlags r.2)

/-- BF16 operations are computed in FP32 and rounded once to BF16 (R89, log entry 17): the exact FP32-rounded value, then BF16. -/
def bf16Round (ins : List FVal) (v : FVal) : Nat × AFlags :=
  let r32 := encodeF fp32 false .rne v
  let r := encodeF bf16 false .rne (decodeF fp32 r32.1)
  (r.1, seenFlags ins ||| vecFlags r32.2 ||| vecFlags r.2)

end Sys2Proof.Machine
end

