-- ==== Sys2Proof/WellFormed.lean ====
section
/-! DEFINITION. Well-formed commands: the fields of the core instruction word (R98), the codes and operand kinds each row
takes (R425, R146, R167) and the reserved fields that R122 refuses. Rows without a word are always well formed. -/

namespace Sys2Proof

/-! Fields of the instruction word (R98). -/
def wCls (w : W128) : Nat := field w.toNat 124 4
def wOp (w : W128) : Nat := field w.toNat 116 8
def wPred (w : W128) : Nat := field w.toNat 113 3
def wPneg (w : W128) : Nat := field w.toNat 112 1
def wDst (w : W128) : Nat := field w.toNat 104 8
def wA (w : W128) : Nat := field w.toNat 96 8
def wB (w : W128) : Nat := field w.toNat 88 8
def wC (w : W128) : Nat := field w.toNat 80 8
def wRsv (w : W128) : Nat := field w.toNat 77 3
def wFmt (w : W128) : Nat := field w.toNat 72 5
def wMod (w : W128) : Nat := field w.toNat 64 8
def wImm (w : W128) : Nat := field w.toNat 0 64

/-! Operand kinds by code (R98). -/
def isV (c : Nat) : Bool := decide (c ≤ 0x3F)
def isS (c : Nat) : Bool := decide (0x40 ≤ c) && decide (c ≤ 0x4F)
def isP (c : Nat) : Bool := decide (0x50 ≤ c) && decide (c ≤ 0x57)
def isAcc (c : Nat) : Bool := decide (0x58 ≤ c) && decide (c ≤ 0x5B)
def isImm (c : Nat) : Bool := c == 0xFE
def isNo (c : Nat) : Bool := c == 0xFF
/-- A code that R98 does not reserve. -/
def isCode (c : Nat) : Bool := decide (c ≤ 0x5B) || c == 0xF0 || c == 0xFE || c == 0xFF
/-- A vector source: a vector register, a scalar register's low word, LANE or IMM (log entry 16). -/
def isVSrc (c : Nat) : Bool := isV c || isS c || c == 0xF0 || isImm c
def isSSrc (c : Nat) : Bool := isS c || isImm c
/-- First of `n` consecutive vector registers. -/
def isVn (n c : Nat) : Bool := isV c && decide (c + n ≤ 64)
/-- An even vector register, the low word of a pair. -/
def isVEven (c : Nat) : Bool := isV c && c % 2 == 0

/-- Whether a format code is one of R69. -/
def isFmt (f : Nat) : Bool := decide (f ≤ 0x10)

/-- Matrix pairings of R69. -/
def isPair (a b : Nat) : Bool :=
  let narrow := fun c => (decide (0x03 ≤ c) && decide (c ≤ 0x07)) || (decide (0x0A ≤ c) && decide (c ≤ 0x0E))
  let int := fun c => c == 0x08 || c == 0x0F
  (a == 1 && b == 1) || (a == 2 && b == 2) || (narrow a && narrow b) || (int a && int b)

def isMxCode (f : Nat) : Bool := decide (0x0A ≤ f) && decide (f ≤ 0x0F)

/-- An instruction that acts on the whole lane group carries PRED 7 and PNEG 0 (R98). -/
def wholeGroup (cls op : Nat) : Bool :=
  cls == 0 || cls == 1 || cls == 6 || cls == 7 || cls == 8 || cls == 0xA || (cls == 0xB && (op == 0 || op == 7))

/-- What every word must meet: no reserved field or code, FMT 0 outside VCVT, MAT and ACC (R98, R122, R425). An operand field that the
instruction does not use holds any code that is not reserved (DESIGN CHOICE, log entry 102). -/
def wordCommon (w : W128) : Bool :=
  wRsv w == 0 && isCode (wDst w) && isCode (wA w) && isCode (wB w) && isCode (wC w)
    && (wCls w == 4 || wCls w == 6 || wCls w == 7 || wFmt w == 0)
    && (!wholeGroup (wCls w) (wOp w) || (wPred w == 7 && wPneg w == 0))

/-- CTRL operands (R102, R425). -/
def ctrlOk (op : Nat) (w : W128) : Bool :=
  match op with
  | 0x01 => decide (wMod w ≤ 3) && (wMod w == 0 || (wMod w == 1 && isS (wA w)) || (decide (2 ≤ wMod w) && isP (wA w)))
  | 0x00 | 0x02 | 0x03 | 0x04 => wMod w == 0
  | _ => false

/-- SCALAR operands (R425). -/
def scalarOk (op : Nat) (w : W128) : Bool :=
  isS (wDst w) && isSSrc (wA w) &&
  (if op == 0x00 || op == 0x07 then wMod w == 0
   else if op ≤ 0x0A then isSSrc (wB w) && wMod w == 0
   else op ≤ 0x0C && isSSrc (wB w) && decide (wMod w ≤ 5))

/-- VALU operands (R425, R103 table). -/
def valuOk (op : Nat) (w : W128) : Bool :=
  let ab := isVSrc (wA w) && isVSrc (wB w)
  let d := isV (wDst w)
  let m0 := wMod w == 0
  if op == 0x03 || op == 0x12 || op == 0x15 || op == 0x34 then d && ab && isVSrc (wC w) && m0
  else if op == 0x06 || op == 0x07 || op == 0x2D || op == 0x40 then d && isVSrc (wA w) && m0
  else if op == 0x08 || op == 0x2E || op == 0x2F then isP (wDst w) && ab && decide (wMod w ≤ 5)
  else if op == 0x41 then d && ab && isP (wC w) && m0
  else if op == 0x42 then d && isV (wA w) && isVSrc (wB w) && m0
  else if op == 0x43 then d && isVSrc (wA w) && m0
  else if op ≤ 0x05 || (0x10 ≤ op && op ≤ 0x17) || (0x20 ≤ op && op ≤ 0x2C) || (0x30 ≤ op && op ≤ 0x33) then d && ab && m0
  else false

/-- VFUNC operands (R104). -/
def vfuncOk (op : Nat) (w : W128) : Bool := decide (op ≤ 8) && isV (wDst w) && isVSrc (wA w) && wMod w == 0

/-- VCVT operands (R425): ACC224 is load and store only (R69). -/
def vcvtOk (op : Nat) (w : W128) : Bool :=
  if op == 0 then
    isV (wDst w) && isVSrc (wA w) && decide (wMod w < 64) && decide (wMod w % 32 ≤ 0x0F) && decide (wFmt w ≤ 0x0F)
      && !isMxCode (wFmt w) && (!isMxCode (wMod w % 32) || isVSrc (wB w))
  else op == 1 && isVn 2 (wDst w) && isVSrc (wA w) && isMxCode (wFmt w) && (wMod w == 0 || wMod w == 32)

/-- TS operands (R106, R157). -/
def tsOk (op : Nat) (w : W128) : Bool :=
  let form := field (wMod w) 0 2
  let size8 := field (wMod w) 2 2 == 3
  decide (op ≤ 1) && isS (wA w) && decide (form ≤ 2) && decide (wMod w < 32) && (form != 1 || isV (wB w))
    && (if op == 0 then (if size8 then isVEven (wDst w) else isV (wDst w))
        else (if size8 then isVEven (wC w) else isVSrc (wC w)))

/-- MAT operands (R108, R109, R122). -/
def matOk (op : Nat) (w : W128) : Bool :=
  op == 0 && isAcc (wDst w) && isS (wA w) && isS (wB w) && isPair (wFmt w) (wMod w % 32) && decide (wMod w < 32)
    && (if isMxCode (wFmt w) || isMxCode (wMod w % 32) then isS (wC w) else isNo (wC w))
    && decide (1 ≤ field (wImm w) 0 8) && decide (field (wImm w) 0 8 ≤ 128)
    && field (wImm w) 8 20 % 64 == 0 && field (wImm w) 28 20 % 64 == 0 && field (wImm w) 48 16 == 0

/-- ACC operands (R109, R111). A STORE with MOD[0] set, which takes SAT from its record, has MOD[1] clear (DESIGN CHOICE, log entry 109). -/
def accOk (op : Nat) (w : W128) : Bool :=
  match op with
  | 0 => isAcc (wDst w) && (wFmt w == 0x10 || wFmt w == 0) && wMod w == 0
  | 1 => isAcc (wDst w) && isS (wA w) && (wFmt w == 0x10 || wFmt w == 0) && wMod w == 0
  | 2 => isAcc (wA w) && isS (wB w) && isS (wC w) && isFmt (wFmt w) && decide (wMod w ≤ 3)
      && (bitOf (wMod w) 0 == false || wMod w == 1) && field (wImm w) 0 20 % 64 == 0
      && (if isMxCode (wFmt w) then isS (wDst w) && (wA w == 0x58 || wA w == 0x5A) else isNo (wDst w))
  | _ => false

/-- SEM operands (R113): n from 1 to 65,535. -/
def semOk (op : Nat) (w : W128) : Bool :=
  decide (op ≤ 2) && wMod w == 0 && field (wImm w) 16 16 != 0 && (op != 2 || isP (wDst w))

/-- UNP operands (R115, R116, R165, R167). 8-byte data, store and compare operands are even pairs like the address, which is all that R115
names (DESIGN CHOICE, log entry 103). -/
def unpOk (op : Nat) (w : W128) : Bool :=
  let size := field (wMod w) 0 2
  let atom := field (wMod w) 4 4
  let addr := isVEven (wA w)
  match op with
  | 0 => addr && decide (wMod w < 8) && (if size == 3 then isVEven (wDst w) else isV (wDst w))
  | 1 => addr && decide (wMod w < 4) && (if size == 3 then isVEven (wB w) else isVSrc (wB w))
  | 2 => addr && bitOf (wMod w) 3 == false && decide (atom ≤ 0xA)
      && (size == 2 || (size == 3 && atom != 1))
      && (if size == 3 then isVEven (wDst w) && isVEven (wB w) && (atom != 0xA || isVEven (wC w))
          else isV (wDst w) && isVSrc (wB w) && (atom != 0xA || isVSrc (wC w)))
  | 3 | 4 | 5 => addr && wMod w == 0
  | _ => false

/-- XFER operands (R112). -/
def xferOk (op : Nat) (w : W128) : Bool := decide (op ≤ 1) && wMod w == 0

/-- GFX operands (R146). -/
def gfxOk (op : Nat) (w : W128) : Bool :=
  match op with
  | 0 | 4 | 7 => wMod w == 0
  | 1 => isVn 4 (wA w) && (isV (wB w) || isNo (wB w)) && wMod w == 0
  | 2 => isV (wDst w) && wMod w == 0
  | 3 => isVn 4 (wA w) && decide (wMod w ≤ 1) && (wMod w == 0 || isVSrc (wB w))
  | 5 => isVn 4 (wDst w) && wMod w == 0
  | 6 => isVn 4 (wDst w) && isVn 2 (wA w) && (isVSrc (wB w) || isNo (wB w)) && wMod w == 0
  | _ => false

/-- The whole check of one word (R98, R122, R425). -/
def wordWf (w : W128) : Bool :=
  wordCommon w &&
  match wCls w with
  | 0x0 => ctrlOk (wOp w) w
  | 0x1 => scalarOk (wOp w) w
  | 0x2 => valuOk (wOp w) w
  | 0x3 => vfuncOk (wOp w) w
  | 0x4 => vcvtOk (wOp w) w
  | 0x5 => tsOk (wOp w) w
  | 0x6 => matOk (wOp w) w
  | 0x7 => accOk (wOp w) w
  | 0x8 => semOk (wOp w) w
  | 0x9 => unpOk (wOp w) w
  | 0xA => xferOk (wOp w) w
  | 0xB => gfxOk (wOp w) w
  | _ => false

/-- A well-formed word of one row: its CLASS and OP, and for UNP.ATOM its atomic operation (R116). -/
def rowWord (cls op : Nat) (atom : Option Nat) (w : W128) : Bool :=
  wCls w == cls && wOp w == op && (match atom with
    | none => true
    | some a => field (wMod w) 4 4 == a) && wordWf w

/-- Well-formed commands: a core row's word is a well-formed word of that row. -/
def Instr.wf : Instr → Bool
  | .ctrlNop _ _ w => rowWord 0x0 0x0 none w
  | .ctrlBr _ _ w => rowWord 0x0 0x1 none w
  | .ctrlBar _ _ w => rowWord 0x0 0x2 none w
  | .ctrlSlip _ _ w => rowWord 0x0 0x3 none w
  | .ctrlEnd _ _ w => rowWord 0x0 0x4 none w
  | .scalarSmov _ _ w => rowWord 0x1 0x0 none w
  | .scalarSadd _ _ w => rowWord 0x1 0x1 none w
  | .scalarSsub _ _ w => rowWord 0x1 0x2 none w
  | .scalarSmul _ _ w => rowWord 0x1 0x3 none w
  | .scalarSand _ _ w => rowWord 0x1 0x4 none w
  | .scalarSor _ _ w => rowWord 0x1 0x5 none w
  | .scalarSxor _ _ w => rowWord 0x1 0x6 none w
  | .scalarSnot _ _ w => rowWord 0x1 0x7 none w
  | .scalarSshl _ _ w => rowWord 0x1 0x8 none w
  | .scalarSshr _ _ w => rowWord 0x1 0x9 none w
  | .scalarSsar _ _ w => rowWord 0x1 0xa none w
  | .scalarScmp _ _ w => rowWord 0x1 0xb none w
  | .scalarSucmp _ _ w => rowWord 0x1 0xc none w
  | .valuFadd _ _ w => rowWord 0x2 0x0 none w
  | .valuFsub _ _ w => rowWord 0x2 0x1 none w
  | .valuFmul _ _ w => rowWord 0x2 0x2 none w
  | .valuFfma _ _ w => rowWord 0x2 0x3 none w
  | .valuFmin _ _ w => rowWord 0x2 0x4 none w
  | .valuFmax _ _ w => rowWord 0x2 0x5 none w
  | .valuFabs _ _ w => rowWord 0x2 0x6 none w
  | .valuFneg _ _ w => rowWord 0x2 0x7 none w
  | .valuFcmp _ _ w => rowWord 0x2 0x8 none w
  | .valuHadd2 _ _ w => rowWord 0x2 0x10 none w
  | .valuHmul2 _ _ w => rowWord 0x2 0x11 none w
  | .valuHfma2 _ _ w => rowWord 0x2 0x12 none w
  | .valuBadd2 _ _ w => rowWord 0x2 0x13 none w
  | .valuBmul2 _ _ w => rowWord 0x2 0x14 none w
  | .valuBfma2 _ _ w => rowWord 0x2 0x15 none w
  | .valuHmin2 _ _ w => rowWord 0x2 0x16 none w
  | .valuHmax2 _ _ w => rowWord 0x2 0x17 none w
  | .valuIadd _ _ w => rowWord 0x2 0x20 none w
  | .valuIsub _ _ w => rowWord 0x2 0x21 none w
  | .valuImul _ _ w => rowWord 0x2 0x22 none w
  | .valuImulhi _ _ w => rowWord 0x2 0x23 none w
  | .valuImulhu _ _ w => rowWord 0x2 0x24 none w
  | .valuIadds _ _ w => rowWord 0x2 0x25 none w
  | .valuIsubs _ _ w => rowWord 0x2 0x26 none w
  | .valuShl _ _ w => rowWord 0x2 0x27 none w
  | .valuShr _ _ w => rowWord 0x2 0x28 none w
  | .valuSar _ _ w => rowWord 0x2 0x29 none w
  | .valuAnd _ _ w => rowWord 0x2 0x2a none w
  | .valuOr _ _ w => rowWord 0x2 0x2b none w
  | .valuXor _ _ w => rowWord 0x2 0x2c none w
  | .valuNot _ _ w => rowWord 0x2 0x2d none w
  | .valuIcmp _ _ w => rowWord 0x2 0x2e none w
  | .valuUcmp _ _ w => rowWord 0x2 0x2f none w
  | .valuIadd4 _ _ w => rowWord 0x2 0x30 none w
  | .valuIsub4 _ _ w => rowWord 0x2 0x31 none w
  | .valuIadds4 _ _ w => rowWord 0x2 0x32 none w
  | .valuIsubs4 _ _ w => rowWord 0x2 0x33 none w
  | .valuIdot4 _ _ w => rowWord 0x2 0x34 none w
  | .valuMov _ _ w => rowWord 0x2 0x40 none w
  | .valuSel _ _ w => rowWord 0x2 0x41 none w
  | .valuShfl _ _ w => rowWord 0x2 0x42 none w
  | .valuBcast _ _ w => rowWord 0x2 0x43 none w
  | .vfuncRcp _ _ w => rowWord 0x3 0x0 none w
  | .vfuncSqrt _ _ w => rowWord 0x3 0x1 none w
  | .vfuncRsq _ _ w => rowWord 0x3 0x2 none w
  | .vfuncExp2 _ _ w => rowWord 0x3 0x3 none w
  | .vfuncLog2 _ _ w => rowWord 0x3 0x4 none w
  | .vfuncSinpi _ _ w => rowWord 0x3 0x5 none w
  | .vfuncCospi _ _ w => rowWord 0x3 0x6 none w
  | .vfuncTanh _ _ w => rowWord 0x3 0x7 none w
  | .vfuncSigm _ _ w => rowWord 0x3 0x8 none w
  | .vcvtCvt _ _ w => rowWord 0x4 0x0 none w
  | .vcvtCvtmx _ _ w => rowWord 0x4 0x1 none w
  | .tsLd _ _ w => rowWord 0x5 0x0 none w
  | .tsSt _ _ w => rowWord 0x5 0x1 none w
  | .matMma _ _ w => rowWord 0x6 0x0 none w
  | .accClear _ _ w => rowWord 0x7 0x0 none w
  | .accLoad _ _ w => rowWord 0x7 0x1 none w
  | .accStore _ _ w => rowWord 0x7 0x2 none w
  | .semSig _ _ w => rowWord 0x8 0x0 none w
  | .semWait _ _ w => rowWord 0x8 0x1 none w
  | .semTry _ _ w => rowWord 0x8 0x2 none w
  | .unpLd _ _ w => rowWord 0x9 0x0 none w
  | .unpSt _ _ w => rowWord 0x9 0x1 none w
  | .unpAtomAdd _ _ w => rowWord 0x9 0x2 (some 0) w
  | .unpAtomFadd _ _ w => rowWord 0x9 0x2 (some 1) w
  | .unpAtomSmin _ _ w => rowWord 0x9 0x2 (some 2) w
  | .unpAtomSmax _ _ w => rowWord 0x9 0x2 (some 3) w
  | .unpAtomUmin _ _ w => rowWord 0x9 0x2 (some 4) w
  | .unpAtomUmax _ _ w => rowWord 0x9 0x2 (some 5) w
  | .unpAtomAnd _ _ w => rowWord 0x9 0x2 (some 6) w
  | .unpAtomOr _ _ w => rowWord 0x9 0x2 (some 7) w
  | .unpAtomXor _ _ w => rowWord 0x9 0x2 (some 8) w
  | .unpAtomExch _ _ w => rowWord 0x9 0x2 (some 9) w
  | .unpAtomCas _ _ w => rowWord 0x9 0x2 (some 10) w
  | .unpLfill _ _ w => rowWord 0x9 0x3 none w
  | .unpWb _ _ w => rowWord 0x9 0x4 none w
  | .unpInv _ _ w => rowWord 0x9 0x5 none w
  | .xferStart _ _ w => rowWord 0xa 0x0 none w
  | .xferWait _ _ w => rowWord 0xa 0x1 none w
  | .gfxNext _ _ w => rowWord 0xb 0x0 none w
  | .gfxVout _ _ w => rowWord 0xb 0x1 none w
  | .gfxAttr _ _ w => rowWord 0xb 0x2 none w
  | .gfxFout _ _ w => rowWord 0xb 0x3 none w
  | .gfxKill _ _ w => rowWord 0xb 0x4 none w
  | .gfxSample _ _ w => rowWord 0xb 0x5 none w
  | .gfxUsample _ _ w => rowWord 0xb 0x6 none w
  | .gfxTwait _ _ w => rowWord 0xb 0x7 none w
  | .nop _ _ => true
  | .fenceRegister _ _ => true
  | .fenceRelease _ _ => true
  | .ctxQuery _ _ => true
  | .launch _ _ => true
  | .planLoad _ _ => true
  | .planPatch _ _ => true
  | .planFree _ _ => true
  | .planResidency _ _ => true
  | .copy _ _ => true
  | .fill _ _ => true
  | .memAlloc _ _ => true
  | .memFree _ _ => true
  | .memMap _ _ => true
  | .memUnmap _ _ => true
  | .migrate _ _ => true
  | .advise _ _ => true
  | .dispCommit _ _ => true
  | .commitValidationDone _ => true
  | .mediaDecode _ _ _ => true
  | .mediaEncode _ _ => true
  | .nodeSet _ _ => true
  | .nodeClear _ _ => true
  | .nodeQuery _ _ => true
  | .exportRange _ _ => true
  | .unexportRange _ _ => true
  | .qpCreate _ _ => true
  | .qpDestroy _ _ => true
  | .roceSend _ _ => true
  | .roceWrite _ _ => true
  | .roceRead _ _ => true
  | .roceRecv _ _ => true
  | .ctxCreate _ _ => true
  | .ctxDestroy _ _ => true
  | .queueCreate _ _ => true
  | .queueDestroy _ _ => true
  | .kick _ _ _ _ _ => true
  | .sweep _ => true
  | .descriptorRead _ => true
  | .descriptorHead _ => true
  | .descriptorRelease _ => true
  | .waitReevaluation _ => true
  | .waitTimeout _ => true
  | .descriptorComplete _ _ => true
  | .irqModerationTimeout _ => true
  | .lcStart _ => true
  | .beStart => true
  | .beSliceExpiry _ => true
  | .slipPoint _ => true
  | .saveComplete _ => true
  | .restore _ => true
  | .stepEnd _ => true
  | .crossModuleStepStart _ => true
  | .stepOverrun _ => true
  | .hardStop _ => true
  | .drainRegion _ => true
  | .forceRegion _ => true
  | .returnRegion _ => true
  | .regionSelfTestDone _ _ _ => true
  | .regionNap _ => true
  | .napExit _ => true
  | .regionGroupsWrite _ => true
  | .lcEnableWrite _ => true
  | .resCtrlWrite _ => true
  | .capWrite _ => true
  | .autoTransferStart _ _ => true
  | .transferComplete _ => true
  | .cdcMissComplete _ => true
  | .evictionWriteComplete _ => true
  | .passStart _ => true
  | .binPoolFull _ => true
  | .tileStagingDone _ => true
  | .fragmentBlended _ => true
  | .tileWriteOutDone _ => true
  | .atsInvalidate _ _ => true
  | .pageRequestResponse _ _ => true
  | .pageRequestTimeout _ => true
  | .priEnableWrite _ _ => true
  | .frameScrubbed _ => true
  | .memCorrectedError _ => true
  | .memUncorrectableError _ _ => true
  | .stackFailure _ => true
  | .mirrorRebuildDone _ => true
  | .ltaError _ _ _ => true
  | .coreEccError _ _ _ => true
  | .cdcParityError _ _ _ => true
  | .unitHardwareFault _ => true
  | .faultHandlingEnd _ => true
  | .collectorSelfFault _ => true
  | .fltAckWrite _ => true
  | .safeExit => true
  | .acctModeWrite _ => true
  | .acctClear => true
  | .energySample _ => true
  | .perstAssert => true
  | .perstDeassert _ _ => true
  | .hotReset => true
  | .linkDisable => true
  | .dlDown => true
  | .linkTrained _ _ _ _ => true
  | .bootImageLoaded _ _ => true
  | .feReady => true
  | .stackTrainingDone _ _ => true
  | .unitReady _ _ => true
  | .vfFlr _ => true
  | .pfFlr => true
  | .vfEnableClear => true
  | .d3hotEntry => true
  | .dormantExit _ => true
  | .stackReady _ _ => true
  | .mainPowerLoss => true
  | .busMasterEnableSet _ => true
  | .busMasterEnableClear _ => true
  | .msixEnable _ => true
  | .msixTableWrite _ _ _ _ => true
  | .aspmL1Entry => true
  | .doeDiscovery _ => true
  | .doeAbort => true
  | .doeResponseReady => true
  | .getVersion _ => true
  | .getCapabilities _ => true
  | .negotiateAlgorithms _ => true
  | .getDigests _ => true
  | .getCertificate _ => true
  | .challenge _ => true
  | .getMeasurements _ => true
  | .keyExchange _ => true
  | .finish _ => true
  | .heartbeat _ => true
  | .keyUpdate _ => true
  | .endSession _ => true
  | .ideKmMessage _ _ => true
  | .mctpControlMessage _ => true
  | .pldmMonitoringRequest _ => true
  | .malformedTlp _ => true
  | .unsupportedRequest _ _ => true
  | .poisonedWrite _ => true
  | .poisonedCompletion _ => true
  | .errorCompletion _ => true
  | .unexpectedCompletion _ => true
  | .completionTimeout _ => true
  | .ideCheckFailed _ _ => true
  | .unalignedBar0Access _ _ _ _ => true
  | .bar4Read _ _ => true
  | .bar4Write _ _ => true
  | .registerWrite _ _ _ => true
  | .adminCtrlWrite _ => true
  | .headEnable _ _ => true
  | .headDisable _ _ => true
  | .timingWrite _ _ _ => true
  | .retrain _ => true
  | .linkTrainingComplete _ _ => true
  | .auxRequest _ _ => true
  | .auxComplete _ _ _ => true
  | .hpdLow _ => true
  | .hpdRise _ => true
  | .irqHpd _ => true
  | .frameStart _ => true
  | .vblankStart _ => true
  | .writebackDone _ => true
  | .signatureLatch _ _ => true
  | .subportEnable _ _ => true
  | .subportDisable _ _ => true
  | .sakInstall _ _ => true
  | .qanatData _ _ => true
  | .qanatReadReq _ _ => true
  | .qanatReadResp _ _ => true
  | .qanatAck _ _ => true
  | .qanatNak _ _ => true
  | .qanatHello _ _ => true
  | .qanatBye _ _ => true
  | .qanatTransit _ _ => true
  | .retransmissionTimeout _ => true
  | .helloTimer => true
  | .peerTimeout _ => true
  | .roceRequestReceived _ _ => true
  | .roceResponseReceived _ _ => true
  | .roceRetryTimeout _ _ => true
  | .cnpReceived _ => true
  | .xtalTrip => true
  | .xtalLpoTrip => true
  | .refclkTrip => true
  | .iboTrip => true
  | .lockTrip _ => true
  | .pllRelock _ => true
  | .pllRelockTimeout _ => true
  | .iboReady => true
  | .iboStartTimeout => true
  | .clockSwitch _ => true
  | .coreCtrlWrite _ _ => true
  | .fabCtrlWrite _ => true
  | .feCtrlWrite _ => true
  | .thermalLimitReached _ _ _ => true
  | .thermalLimitCleared _ _ => true
  | .thermalEmergencyEnd => true
  | .pwrbrkNLow _ => true
  | .inputOvercurrent _ => true
  | .brakeRelease => true
  | .thermalTrip => true
  | .blowerStall _ => true
  | .temperatureMeasurement _ _ => true
  | .auxBelowThreshold _ => true
  | .lpoCalUpdate _ => true
  | .cmpArm _ _ => true
  | .compareFire _ => true
  | .clkTripClear => true
  | .padRelease => true
  | .readyCopyWrite _ _ => true
  | .otpArm _ => true
  | .otpGo _ => true
  | .otpChangeDone _ => true
  | .flashRead _ => true
  | .flashProgram _ => true
  | .flashErase _ => true
  | .flashOpDone => true
  | .voltageGlitch => true
  | .tamper => true
  | .alarmClear _ _ => true
  | .auxPowerUp => true
  | .mainPowerUp _ _ => true
  | .xtal25Restart => true
  | .matrixOpComplete _ _ => true
  | .batchBinned _ => true
  | .modelLoadComplete _ _ => true
  | .atsTranslationCompletion _ _ _ _ => true
  | .subportLinkUp _ => true
  | .subportLinkDown _ => true
  | .invalidFrameReceived _ _ => true
  | .pfcFrameReceived _ _ => true
  | .osfpModuleInsertion _ _ _ => true
  | .haboobSeedBurned => true
  | .uartConsoleInput _ => true
  | .stackTemperature85c _ _ => true

end Sys2Proof
end

