-- ==== Sys2Proof/Machine/Operands.lean ====
section
/-! DEFINITION. Operand forms of the core instruction word (R98) and the frame every core instruction shares: it issues only as
its lane group's next word, advances the word counter, and ends the launch on the errors of R120. -/

namespace Sys2Proof.Machine

/-! ### Registers of a lane group (R96) -/

def lgV (x : Lg) (r lane : Nat) : Nat := (mget x.v 0 (32 * r + lane)).toNat
def lgSetV (x : Lg) (r lane n : Nat) : Lg := { x with v := mset x.v 0 (32 * r + lane) (BitVec.ofNat 32 n) }
def lgS (x : Lg) (r : Nat) : Nat := (mget x.s 0 r).toNat
def lgSetS (x : Lg) (r n : Nat) : Lg := { x with s := mset x.s 0 r (BitVec.ofNat 64 n) }
/-- Predicate register: p7 reads all ones (R96). -/
def lgP (x : Lg) (r : Nat) : W32 := if r = 7 then 0xFFFFFFFF#32 else mget x.p 0 r
/-- Writes of p7 are discarded (R96). -/
def lgSetP (x : Lg) (r : Nat) (n : W32) : Lg := if r = 7 then x else { x with p := mset x.p 0 r n }

/-- A lane executes when its predicate bit differs from PNEG (R98). -/
def laneOn (x : Lg) (w : W128) (lane : Nat) : Bool := (lgP x (wPred w)).getLsbD lane != (wPneg w == 1)

def activeLanes (x : Lg) (w : W128) : List Nat := (List.range 32).filter (laneOn x w)

/-- 32-bit vector source of a lane (R98): vector register, scalar register's low word, LANE or IMM (log entry 16). -/
def vsrc (x : Lg) (w : W128) (code lane : Nat) : Nat :=
  if isV code then lgV x code lane
  else if isS code then lgS x (code - 0x40) % 2 ^ 32
  else if code = 0xF0 then lane
  else if code = 0xFE then wImm w % 2 ^ 32
  else 0

/-- 64-bit scalar source (R98): a scalar register, or IMM[31:0] sign-extended. -/
def ssrc (x : Lg) (w : W128) (code : Nat) : Nat :=
  if isS code then lgS x (code - 0x40)
  else if code = 0xFE then unsignedOf 64 (signed 32 (wImm w))
  else 0

/-- 64-bit source of a lane: a register pair, low word first (R106, R115), or IMM sign-extended. -/
def vsrc64 (x : Lg) (w : W128) (code lane : Nat) : Nat :=
  if isV code then lgV x code lane + 2 ^ 32 * lgV x (code + 1) lane
  else ssrc x w code

def lgSetV64 (x : Lg) (r lane n : Nat) : Lg := lgSetV (lgSetV x r lane n) (r + 1) lane (n / 2 ^ 32)

/-- Write `f lane` to a vector register in every active lane; sources are read before any result is written. -/
def mapLanes (x : Lg) (w : W128) (dst : Nat) (f : Nat → Nat) : Lg :=
  (activeLanes x w).foldl (fun y lane => lgSetV y dst lane (f lane)) x

/-- The flags that `f` raises over the active lanes. -/
def laneFlags (x : Lg) (w : W128) (f : Nat → AFlags) : AFlags := (activeLanes x w).foldl (fun a lane => a ||| f lane) 0

/-- Write the predicate bit of each active lane, leaving the others (R425). -/
def mapPred (x : Lg) (w : W128) (p : Nat) (f : Nat → Bool) : Lg :=
  lgSetP x p ((activeLanes x w).foldl (fun m lane =>
    BitVec.ofNat 32 (setField m.toNat lane 1 (b2n (f lane)))) (lgP x p))

/-! ### The program and the step a core runs (R95, R121) -/

/-- The launch that runs on a core's region. -/
def coreLaunch (s : State) (c : Nat) : Option (Nat × Launch) := launchAt s (c / 32)

def stepOf (p : Plan) (n : Nat) : StepRec := p.steps.getD n {}

/-- The program record of a core in the launch's current step. -/
def progOf (s : State) (c : Nat) : Option Prog :=
  match coreLaunch s c with
  | none => none
  | some (_, x) =>
    match s.planOf x.ver with
    | none => none
    | some p => some ((p.code.getD (stepOf p x.step).code []).getD (32 * (s.rgn (c / 32)).rel + c % 32) {})

/-- The word at a lane group's counter. -/
def nextWord (s : State) (c g : Nat) : Option W128 :=
  match progOf s c, mfind (s.core c).lgs g with
  | some p, some x => p.words[x.pc]?
  | _, _ => none

/-- Pending unplanned accesses of a lane group (R158, R162). -/
def unpPending (s : State) (c g : Nat) : Bool := (s.cdc (c / 4)).queue.any (fun a => a.src == c % 4 && a.lg == g)

/-- A lock-fill of the lane group is outstanding: it issues nothing further (R167). -/
def fillPending (s : State) (c g : Nat) : Bool := (s.cdc (c / 4)).queue.any (fun a => a.src == c % 4 && a.lg == g && a.kind == 2)

/-- Vector registers that a pending load of the lane group will write. -/
def unpTargets (s : State) (c g : Nat) : List Nat :=
  ((s.cdc (c / 4)).queue.filter (fun a => a.src == c % 4 && a.lg == g && a.kind == 0)).flatMap (fun a => [a.dst, a.dst + 1])

/-- Vector registers a word may touch: each named register and those after it. -/
def wordRegs (w : W128) : List Nat :=
  ([wDst w, wA w, wB w, wC w].filter (fun c => decide (c < 0x40))).flatMap (fun c => [c, c + 1, c + 2, c + 3])

/-- A word issues when its lane group is running in a running launch, is at that word, and no register it names waits on a
load (R99); a BE region does not issue while its issue is stalled, nor a core whose clock is stopped (R348, R354, R415). -/
def canIssue (s : State) (c g : Nat) (w : W128) : Bool :=
  !s.flt.safe &&
  (match coreLaunch s c with
    | some (_, x) => (x.phase == .running || x.phase == .yielding) && !(isBeRun x && beStalled s)
    | none => false) &&
  !s.clk.stopped.contains (c / 256) &&
  (s.rgn (c / 32)).held == none &&
  (match mfind (s.core c).lgs g with
    | some x => x.st == .running
    | none => false) &&
  nextWord s c g == some w && !fillPending s c g &&
  (unpTargets s c g).all (fun r => !(wordRegs w).contains r)

/-- The frame of every core row: an ill-formed or foreign word is refused, a word that cannot issue changes nothing. -/
def coreRow (cls op : Nat) (atom : Option Nat) (eff : State → State) (c g : Nat) (w : W128) (s : State) : Result :=
  if !rowWord cls op atom w then .refused .reservedWord
  else if canIssue s c g w then .next (eff s)
  else .next s

def getLg (s : State) (c g : Nat) : Lg := (mfind (s.core c).lgs g).getD {}
def setLg (s : State) (c g : Nat) (x : Lg) : State :=
  s.setCore c { s.core c with lgs := mins (s.core c).lgs g x }
/-- Advance the word counter. -/
def stepPc (x : Lg) : Lg := { x with pc := x.pc + 1 }

/-- OR flags into the flags word of the launch on a core's region. -/
def coreFlags (s : State) (c : Nat) (fl : AFlags) : State :=
  match coreLaunch s c with
  | none => s
  | some (l, _) => orFlags l fl s

/-- A row whose whole effect is on its lane group: new registers, flags raised, the counter advanced. -/
def lgRow (cls op : Nat) (f : Lg → Lg × AFlags) (c g : Nat) (w : W128) (s : State) : Result :=
  coreRow cls op none (fun s =>
    let r := f (getLg s c g)
    setLg (coreFlags s c r.2) c g (stepPc r.1)) c g w s

/-- End the launch on a core's region with a core-detected error (R120). -/
def coreAbort (s : State) (c st d : Nat) : State :=
  match coreLaunch s c with
  | none => s
  | some (l, _) => abortLaunch l (c / 32) st d s

/-- Relative region of a core, and its number within the region (R96). -/
def coreRel (s : State) (c : Nat) : Nat := (s.rgn (c / 32)).rel

/-- The usable top U of R258. -/
def usableTop (s : State) : Nat :=
  let n := field (mget s.regs 0 0x010604).toNat 0 7
  524288 - (if n > 64 then 64 else n) * 4096

/-- A read range inside a model that the launch names and that is resident for it (R258, R260). -/
def inModel (s : State) (c addr n : Nat) : Bool :=
  match coreLaunch s c with
  | none => false
  | some (_, x) =>
    match s.planOf x.ver with
    | none => false
    | some p => p.models.any (fun m => decide (m.base ≤ addr) && decide (addr + n ≤ m.base + m.bytes)
        && s.fe.residency.any (fun e => e.ctx == x.ctx && e.model == m.id && e.regions == x.regions && e.loaded))

end Sys2Proof.Machine
end

