-- ==== Sys2Proof/Machine/CoreScalar.lean ====
section
/-! DEFINITION. CTRL and SCALAR (R97, R102, R103, R118, R425). -/

namespace Sys2Proof.Machine

/-- Lane groups at a barrier go on once every lane group of the core has reached it or has ended, and the tile-store accesses of the
queued matrix operations and write-outs, issued before it, are made (R103; log entry 87). -/
def barRelease (x : Core) : Core :=
  if x.matQ.isEmpty && x.woQ.isEmpty && x.lgs.all (fun p => p.2.st == .atBar || p.2.st == .ended) then
    { x with lgs := mmap x.lgs (fun _ y => if y.st = .atBar then { y with st := .running } else y) }
  else x

/-- An item is over when its lane group asks for the next one or ends (R146): a fragment item then waits to be blended. -/
def closeItem (x : Core) (y : Lg) : Core :=
  match y.item with
  | some it => if it.kind = 1 then { x with gfx := { x.gfx with active := x.gfx.active.map (fun a =>
        if a.seq = it.seq && a.num = it.num then { it with done := true } else a) } } else x
  | none => x

/-- A finished vertex item leaves the batch's count of unfinished ones (R133). -/
def closeVertex (s : State) (c : Nat) (y : Lg) : State :=
  match y.item with
  | some it =>
    if it.kind = 0 then
      let r := s.rgn (c / 32)
      s.setRgn (c / 32) { r with geo := { r.geo with outstanding := r.geo.outstanding - 1 } }
    else s
  | none => s

/-- CTRL.NOP (R425). -/
def execCtrlNop (c g : Nat) (w : W128) (s : State) : Result := lgRow 0 0 (fun x => (x, 0)) c g w s

/-- Condition of BR (R102). -/
def brTaken (x : Lg) (w : W128) : Bool :=
  let p := lgP x (wA w - 0x50)
  match wMod w with
  | 0 => true
  | 1 => lgS x (wA w - 0x40) != 0
  | 2 => p != 0#32
  | _ => p == 0xFFFFFFFF#32

/-- CTRL.BR (R102): a backward branch counts its taken executions, and one above its bound ends the launch. -/
def execCtrlBr (c g : Nat) (w : W128) (s : State) : Result :=
  coreRow 0 1 none (fun s =>
    let x := getLg s c g
    let target := field (wImm w) 0 32
    let bound := field (wImm w) 32 32
    let back := decide (target ≤ x.pc)
    let n := mget x.loops 0 x.pc + 1
    if brTaken x w then
      if back && decide (n > bound) then coreAbort s c 5 0x0404
      else setLg s c g { x with loops := if back then mset x.loops 0 x.pc n else x.loops, pc := target }
    else setLg s c g { x with loops := if back then mdel x.loops x.pc else x.loops, pc := x.pc + 1 }) c g w s

/-- CTRL.BAR (R103, R159). -/
def execCtrlBar (c g : Nat) (w : W128) (s : State) : Result :=
  coreRow 0 2 none (fun s =>
    if unpPending s c g then s
    else
      let s1 := setLg s c g { stepPc (getLg s c g) with st := .atBar }
      s1.setCore c (barRelease (s1.core c))) c g w s

/-- CTRL.SLIP (R118): the lane group arrives at its slip point and waits there. -/
def execCtrlSlip (c g : Nat) (w : W128) (s : State) : Result :=
  coreRow 0 3 none (fun s =>
    setLg s c g { getLg s c g with st := .atSlip (field (wImm w) 0 32) (field (wImm w) 32 32) }) c g w s

/-- CTRL.END (R97). -/
def execCtrlEnd (c g : Nat) (w : W128) (s : State) : Result :=
  coreRow 0 4 none (fun s =>
    let x := getLg s c g
    let s1 := closeVertex s c x
    let s2 := setLg (s1.setCore c (closeItem (s1.core c) x)) c g { x with st := .ended, item := none }
    s2.setCore c (barRelease (s2.core c))) c g w s

/-! ### SCALAR (R425) -/

/-- Condition codes of compares: 0 EQ, 1 NE, 2 LT, 3 LE, 4 GT, 5 GE. -/
def condInt (m : Nat) (a b : Int) : Bool :=
  match m % 8 with
  | 0 => decide (a = b)
  | 1 => decide (a ≠ b)
  | 2 => decide (a < b)
  | 3 => decide (a ≤ b)
  | 4 => decide (a > b)
  | _ => decide (a ≥ b)

/-- A scalar row: DST takes a 64-bit function of SRC_A and SRC_B. -/
def scalarRow (op : Nat) (f : Nat → Nat → Nat) (c g : Nat) (w : W128) (s : State) : Result :=
  lgRow 1 op (fun x => (lgSetS x (wDst w - 0x40) (f (ssrc x w (wA w)) (ssrc x w (wB w))), 0)) c g w s

def execScalarSmov (c g : Nat) (w : W128) (s : State) : Result := scalarRow 0x00 (fun a _ => a) c g w s
def execScalarSadd (c g : Nat) (w : W128) (s : State) : Result := scalarRow 0x01 (fun a b => a + b) c g w s
def execScalarSsub (c g : Nat) (w : W128) (s : State) : Result := scalarRow 0x02 (fun a b => a + 2 ^ 64 - b) c g w s
def execScalarSmul (c g : Nat) (w : W128) (s : State) : Result := scalarRow 0x03 (fun a b => a * b) c g w s
def execScalarSand (c g : Nat) (w : W128) (s : State) : Result := scalarRow 0x04 (fun a b => a &&& b) c g w s
def execScalarSor (c g : Nat) (w : W128) (s : State) : Result := scalarRow 0x05 (fun a b => a ||| b) c g w s
def execScalarSxor (c g : Nat) (w : W128) (s : State) : Result := scalarRow 0x06 (fun a b => a ^^^ b) c g w s
def execScalarSnot (c g : Nat) (w : W128) (s : State) : Result := scalarRow 0x07 (fun a _ => 2 ^ 64 - 1 - a) c g w s
def execScalarSshl (c g : Nat) (w : W128) (s : State) : Result := scalarRow 0x08 (fun a b => a * 2 ^ (b % 64)) c g w s
def execScalarSshr (c g : Nat) (w : W128) (s : State) : Result := scalarRow 0x09 (fun a b => a / 2 ^ (b % 64)) c g w s
def execScalarSsar (c g : Nat) (w : W128) (s : State) : Result :=
  scalarRow 0x0A (fun a b => unsignedOf 64 (shiftI (signed 64 a) (-((b % 64 : Nat) : Int)))) c g w s
def execScalarScmp (c g : Nat) (w : W128) (s : State) : Result :=
  scalarRow 0x0B (fun a b => b2n (condInt (wMod w) (signed 64 a) (signed 64 b))) c g w s
def execScalarSucmp (c g : Nat) (w : W128) (s : State) : Result :=
  scalarRow 0x0C (fun a b => b2n (condInt (wMod w) (a : Int) (b : Int))) c g w s

end Sys2Proof.Machine
end

