-- ==== Sys2Proof/Machine/CoreVector.lean ====
section
/-! DEFINITION. VALU (R89, R103, R425): per-lane arithmetic, logic, compares and lane moves. -/

namespace Sys2Proof.Machine

/-- A vector row over SRC_A, SRC_B and SRC_C of each active lane: a 32-bit result and its flags. -/
def valuRow (op : Nat) (f : Nat → Nat → Nat → Nat × AFlags) (c g : Nat) (w : W128) (s : State) : Result :=
  lgRow 2 op (fun x =>
    let r := fun lane => f (vsrc x w (wA w) lane) (vsrc x w (wB w) lane) (vsrc x w (wC w) lane)
    (mapLanes x w (wDst w) (fun lane => (r lane).1), laneFlags x w (fun lane => (r lane).2))) c g w s

/-- A vector row that writes a predicate. -/
def predRow (op : Nat) (f : Nat → Nat → Bool × AFlags) (c g : Nat) (w : W128) (s : State) : Result :=
  lgRow 2 op (fun x =>
    let r := fun lane => f (vsrc x w (wA w) lane) (vsrc x w (wB w) lane)
    (mapPred x w (wDst w - 0x50) (fun lane => (r lane).1), laneFlags x w (fun lane => (r lane).2))) c g w s

/-- FP32 two- and three-operand results (R89). -/
def fp32Op2 (f : FVal → FVal → FVal) (a b : Nat) : Nat × AFlags :=
  let x := decodeF fp32 a
  let y := decodeF fp32 b
  vecRound fp32 [x, y] (f x y)

def execValuFadd (c g : Nat) (w : W128) (s : State) : Result := valuRow 0x00 (fun a b _ => fp32Op2 fvAdd a b) c g w s
def execValuFsub (c g : Nat) (w : W128) (s : State) : Result :=
  valuRow 0x01 (fun a b _ => fp32Op2 (fun x y => fvAdd x (fvNeg y)) a b) c g w s
def execValuFmul (c g : Nat) (w : W128) (s : State) : Result := valuRow 0x02 (fun a b _ => fp32Op2 fvMul a b) c g w s
def execValuFfma (c g : Nat) (w : W128) (s : State) : Result :=
  valuRow 0x03 (fun a b d =>
    let x := decodeF fp32 a
    let y := decodeF fp32 b
    let z := decodeF fp32 d
    vecRound fp32 [x, y, z] (fvAdd (fvMul x y) z)) c g w s
def execValuFmin (c g : Nat) (w : W128) (s : State) : Result := valuRow 0x04 (fun a b _ => fp32Op2 fvMin a b) c g w s
def execValuFmax (c g : Nat) (w : W128) (s : State) : Result := valuRow 0x05 (fun a b _ => fp32Op2 fvMax a b) c g w s
def execValuFabs (c g : Nat) (w : W128) (s : State) : Result :=
  valuRow 0x06 (fun a _ _ => vecRound fp32 [decodeF fp32 a] (fvAbs (decodeF fp32 a))) c g w s
def execValuFneg (c g : Nat) (w : W128) (s : State) : Result :=
  valuRow 0x07 (fun a _ _ => vecRound fp32 [decodeF fp32 a] (fvNeg (decodeF fp32 a))) c g w s

/-- FP32 compare (R425): with a NaN operand only NE is met. -/
def condF (m : Nat) (x y : FVal) : Bool :=
  match m % 8 with
  | 0 => fvEq x y
  | 1 => !fvEq x y
  | 2 => fvLt x y
  | 3 => fvLt x y || fvEq x y
  | 4 => fvLt y x
  | _ => fvLt y x || fvEq x y

def execValuFcmp (c g : Nat) (w : W128) (s : State) : Result :=
  predRow 0x08 (fun a b => (condF (wMod w) (decodeF fp32 a) (decodeF fp32 b), seenFlags [decodeF fp32 a, decodeF fp32 b])) c g w s

/-- Packed pairs, the lower value in bits [15:0] (R89, R103). -/
def packed2 (f : Nat → Nat → Nat → Nat × AFlags) (a b d : Nat) : Nat × AFlags :=
  let lo := f (field a 0 16) (field b 0 16) (field d 0 16)
  let hi := f (field a 16 16) (field b 16 16) (field d 16 16)
  (lo.1 + 65536 * hi.1, lo.2 ||| hi.2)

def halfOp (f : FVal → FVal → FVal → FVal) (three : Bool) (a b d : Nat) : Nat × AFlags :=
  let x := decodeF fp16 a
  let y := decodeF fp16 b
  let z := decodeF fp16 d
  vecRound fp16 (if three then [x, y, z] else [x, y]) (f x y z)

def brainOp (f : FVal → FVal → FVal → FVal) (three : Bool) (a b d : Nat) : Nat × AFlags :=
  let x := decodeF bf16 a
  let y := decodeF bf16 b
  let z := decodeF bf16 d
  bf16Round (if three then [x, y, z] else [x, y]) (f x y z)

def execValuHadd2 (c g : Nat) (w : W128) (s : State) : Result :=
  valuRow 0x10 (packed2 (halfOp (fun x y _ => fvAdd x y) false)) c g w s
def execValuHmul2 (c g : Nat) (w : W128) (s : State) : Result :=
  valuRow 0x11 (packed2 (halfOp (fun x y _ => fvMul x y) false)) c g w s
def execValuHfma2 (c g : Nat) (w : W128) (s : State) : Result :=
  valuRow 0x12 (packed2 (halfOp (fun x y z => fvAdd (fvMul x y) z) true)) c g w s
def execValuBadd2 (c g : Nat) (w : W128) (s : State) : Result :=
  valuRow 0x13 (packed2 (brainOp (fun x y _ => fvAdd x y) false)) c g w s
def execValuBmul2 (c g : Nat) (w : W128) (s : State) : Result :=
  valuRow 0x14 (packed2 (brainOp (fun x y _ => fvMul x y) false)) c g w s
def execValuBfma2 (c g : Nat) (w : W128) (s : State) : Result :=
  valuRow 0x15 (packed2 (brainOp (fun x y z => fvAdd (fvMul x y) z) true)) c g w s
def execValuHmin2 (c g : Nat) (w : W128) (s : State) : Result :=
  valuRow 0x16 (packed2 (halfOp (fun x y _ => fvMin x y) false)) c g w s
def execValuHmax2 (c g : Nat) (w : W128) (s : State) : Result :=
  valuRow 0x17 (packed2 (halfOp (fun x y _ => fvMax x y) false)) c g w s

/-! ### INT32 (R89, R425) -/

/-- An integer row: a result taken modulo 2^32. -/
def intRow (op : Nat) (f : Nat → Nat → Int) (c g : Nat) (w : W128) (s : State) : Result :=
  valuRow op (fun a b _ => (unsignedOf 32 (f a b), 0)) c g w s

/-- Saturate to a signed range of `n` bits. -/
def satI (n : Nat) (v : Int) : Int :=
  let hi : Int := ((2 ^ (n - 1) : Nat) : Int) - 1
  let lo : Int := -((2 ^ (n - 1) : Nat) : Int)
  if v > hi then hi else if v < lo then lo else v

def execValuIadd (c g : Nat) (w : W128) (s : State) : Result := intRow 0x20 (fun a b => (a + b : Nat)) c g w s
def execValuIsub (c g : Nat) (w : W128) (s : State) : Result := intRow 0x21 (fun a b => (a : Int) - b) c g w s
def execValuImul (c g : Nat) (w : W128) (s : State) : Result := intRow 0x22 (fun a b => (a * b : Nat)) c g w s
def execValuImulhi (c g : Nat) (w : W128) (s : State) : Result :=
  intRow 0x23 (fun a b => signed 32 a * signed 32 b / 4294967296) c g w s
def execValuImulhu (c g : Nat) (w : W128) (s : State) : Result := intRow 0x24 (fun a b => (a * b / 2 ^ 32 : Nat)) c g w s
def execValuIadds (c g : Nat) (w : W128) (s : State) : Result :=
  intRow 0x25 (fun a b => satI 32 (signed 32 a + signed 32 b)) c g w s
def execValuIsubs (c g : Nat) (w : W128) (s : State) : Result :=
  intRow 0x26 (fun a b => satI 32 (signed 32 a - signed 32 b)) c g w s
def execValuShl (c g : Nat) (w : W128) (s : State) : Result := intRow 0x27 (fun a b => (a * 2 ^ (b % 32) : Nat)) c g w s
def execValuShr (c g : Nat) (w : W128) (s : State) : Result := intRow 0x28 (fun a b => (a / 2 ^ (b % 32) : Nat)) c g w s
def execValuSar (c g : Nat) (w : W128) (s : State) : Result :=
  intRow 0x29 (fun a b => shiftI (signed 32 a) (-((b % 32 : Nat) : Int))) c g w s
def execValuAnd (c g : Nat) (w : W128) (s : State) : Result := intRow 0x2A (fun a b => (a &&& b : Nat)) c g w s
def execValuOr (c g : Nat) (w : W128) (s : State) : Result := intRow 0x2B (fun a b => (a ||| b : Nat)) c g w s
def execValuXor (c g : Nat) (w : W128) (s : State) : Result := intRow 0x2C (fun a b => (a ^^^ b : Nat)) c g w s
def execValuNot (c g : Nat) (w : W128) (s : State) : Result := intRow 0x2D (fun a _ => (4294967295 : Int) - a) c g w s
def execValuIcmp (c g : Nat) (w : W128) (s : State) : Result :=
  predRow 0x2E (fun a b => (condInt (wMod w) (signed 32 a) (signed 32 b), 0)) c g w s
def execValuUcmp (c g : Nat) (w : W128) (s : State) : Result :=
  predRow 0x2F (fun a b => (condInt (wMod w) (a : Int) (b : Int), 0)) c g w s

/-! ### Packed INT8 (R103) -/

/-- Byte-wise result of two packed words. -/
def packed4 (f : Int → Int → Int) (a b : Nat) : Nat :=
  (List.range 4).foldl (fun r k =>
    r + unsignedOf 8 (f (signed 8 (field a (8 * k) 8)) (signed 8 (field b (8 * k) 8))) * 2 ^ (8 * k)) 0

def execValuIadd4 (c g : Nat) (w : W128) (s : State) : Result :=
  valuRow 0x30 (fun a b _ => (packed4 (fun x y => x + y) a b, 0)) c g w s
def execValuIsub4 (c g : Nat) (w : W128) (s : State) : Result :=
  valuRow 0x31 (fun a b _ => (packed4 (fun x y => x - y) a b, 0)) c g w s
def execValuIadds4 (c g : Nat) (w : W128) (s : State) : Result :=
  valuRow 0x32 (fun a b _ => (packed4 (fun x y => satI 8 (x + y)) a b, 0)) c g w s
def execValuIsubs4 (c g : Nat) (w : W128) (s : State) : Result :=
  valuRow 0x33 (fun a b _ => (packed4 (fun x y => satI 8 (x - y)) a b, 0)) c g w s

/-- Four INT8 products summed into INT32, wrapping. -/
def dot4 (a b d : Nat) : Nat :=
  unsignedOf 32 ((List.range 4).foldl (fun r k =>
    r + signed 8 (field a (8 * k) 8) * signed 8 (field b (8 * k) 8)) (signed 32 d))

def execValuIdot4 (c g : Nat) (w : W128) (s : State) : Result := valuRow 0x34 (fun a b d => (dot4 a b d, 0)) c g w s

/-! ### Movement (R103, R425) -/

def execValuMov (c g : Nat) (w : W128) (s : State) : Result := valuRow 0x40 (fun a _ _ => (a, 0)) c g w s

def execValuSel (c g : Nat) (w : W128) (s : State) : Result :=
  lgRow 2 0x41 (fun x => (mapLanes x w (wDst w) (fun lane =>
    if (lgP x (wC w - 0x50)).getLsbD lane then vsrc x w (wA w) lane else vsrc x w (wB w) lane), 0)) c g w s

/-- A lane that SHFL names supplies its register value even when it is inactive (R103). -/
def execValuShfl (c g : Nat) (w : W128) (s : State) : Result :=
  lgRow 2 0x42 (fun x => (mapLanes x w (wDst w) (fun lane => vsrc x w (wA w) (vsrc x w (wB w) lane % 32)), 0)) c g w s

def execValuBcast (c g : Nat) (w : W128) (s : State) : Result :=
  lgRow 2 0x43 (fun x => (mapLanes x w (wDst w) (fun _ => vsrc x w (wA w) (wImm w % 32)), 0)) c g w s

end Sys2Proof.Machine
end

