-- ==== Sys2Proof/Machine/Series.lean ====
section
/-! DEFINITION. The exact results against which R104 states its error bounds, in fixed point to well beyond any bound: a value is an
integer times 2^-256, with an error below 2^-200. -/

namespace Sys2Proof.Machine

def fxOne : Int := 2 ^ 256
def fxMul (a b : Int) : Int := a * b / 2 ^ 256
def fxDiv (a b : Int) : Int := a * 2 ^ 256 / b

/-- A series: `n` terms from the `k`-th on, each made from the one before, weighted as it is added. -/
def fxSum (next weigh : Nat → Int → Int) : (n k : Nat) → (term acc : Int) → Int
  | 0, _, _, acc => acc
  | n + 1, k, term, acc => fxSum next weigh n (k + 1) (next k term) (acc + weigh k term)

/-- `e^x` for |x| at most 1. -/
def fxExp (x : Int) : Int := fxSum (fun k t => fxMul t x / ((k : Int) + 1)) (fun _ t => t) 80 0 fxOne 0
/-- `sin x` for x from 0 to 8. -/
def fxSin (x : Int) : Int :=
  fxSum (fun k t => -(fxMul t (fxMul x x)) / ((2 * (k : Int) + 2) * (2 * (k : Int) + 3))) (fun _ t => t) 70 0 x 0
/-- Inverse hyperbolic tangent for |z| at most 1/3, and inverse tangent for |z| at most 1/5. -/
def fxAtanh (z : Int) : Int := fxSum (fun _ t => fxMul t (fxMul z z)) (fun k t => t / (2 * (k : Int) + 1)) 90 0 z 0
def fxAtan (z : Int) : Int := fxSum (fun _ t => -(fxMul t (fxMul z z))) (fun k t => t / (2 * (k : Int) + 1)) 90 0 z 0

def fxLn2 : Int := 2 * fxAtanh (fxOne / 3)
def fxPi : Int := 16 * fxAtan (fxOne / 5) - 4 * fxAtan (fxOne / 239)
/-- Natural logarithm of y from 1 to 2. -/
def fxLn (y : Int) : Int := 2 * fxAtanh (fxDiv (y - fxOne) (y + fxOne))

/-- `m * 2^e` in fixed point. -/
def fxOf (m e : Int) : Int := shiftI m (e + 256)

/-- `2^x` of a fixed-point x as (integer, exponent). -/
def fxExp2 (x : Int) : Int × Int :=
  let n := x / 2 ^ 256
  (fxExp (fxMul (x - n * 2 ^ 256) fxLn2), max (-1000) (min n 1000) - 256)
/-- `e^x` of a fixed-point x of magnitude below 256. -/
def fxExpE (x : Int) : Int :=
  let r := fxExp2 (fxDiv x fxLn2)
  shiftI r.1 (r.2 + 256)

/-- The exact results of R104 at the finite value `m * 2^e`, as (integer, exponent). -/
def exactExp2 (m e : Int) : Int × Int := fxExp2 (fxOf m e)
def exactLog2 (m e : Int) : Int × Int :=
  let l := (m.natAbs.log2 : Int)
  ((e + l) * 2 ^ 256 + fxDiv (fxLn (shiftI m (256 - l))) fxLn2, -256)
def exactSinPi (m e : Int) : Int × Int := (fxSin (fxMul (fxOf m e % 2 ^ 257) fxPi), -256)
def exactCosPi (m e : Int) : Int × Int := (fxSin (fxMul ((fxOf m e + 2 ^ 255) % 2 ^ 257) fxPi), -256)
def exactTanh (m e : Int) : Int × Int :=
  let x := fxOf m e
  (if 64 * fxOne ≤ x then fxOne else if x ≤ -64 * fxOne then -fxOne
   else fxDiv (fxExpE (2 * x) - fxOne) (fxExpE (2 * x) + fxOne), -256)
def exactSigm (m e : Int) : Int × Int :=
  let x := fxOf m e
  (if 64 * fxOne ≤ x then fxOne else if x ≤ -64 * fxOne then 0 else fxDiv fxOne (fxOne + fxExpE (-x)), -256)

/-- `k` FP32 units in the last place at an exact value, and `2^-k`; each is wider by 2^-100 of itself, for the error of the series. -/
def tolUlp (k : Nat) (y : Int × Int) : FVal :=
  let u : Int := max (log2F y.1 y.2) (-126) - 23
  .fin ((k : Int) * 2 ^ 100 + 1) (u - 100)
def tolAbs (k : Nat) : FVal := .fin (2 ^ 100 + 1) (-(k : Int) - 100)
def tolMax (a b : FVal) : FVal := if fvLt a b then b else a
def tolMin (a b : FVal) : FVal := if fvLt a b then a else b

/-- Whether an FP32 code is a result within a tolerance of an exact value: no NaN, no -0 (R71); an infinity stands for 2^128. -/
def withinTol (y : Int × Int) (tol : FVal) (c : Nat) : Bool :=
  let v : FVal := match decodeF fp32 c with
    | .inf neg => .fin (if neg then -1 else 1) 128
    | w => w
  match fvAdd (.fin y.1 y.2) (fvNeg v) with
  | .fin d e => c != 0x80000000 && !fvLt tol (.fin (d.natAbs : Int) e)
  | _ => false

/-- `m * 2^e` is an integer. -/
def isInt (m e : Int) : Bool := decide (0 ≤ e) || m % 2 ^ (-e).toNat == 0

end Sys2Proof.Machine
end

