-- ==== Sys2Proof/Machine/CoreFunc.lean ====
section
/-! DEFINITION. VFUNC and VCVT (R83 to R87, R104, R425). Where R104 gives only an error bound, the result is a fixed but
unknown function of the input (`Config.vfunc`) held to that bound (log entry 13). -/

namespace Sys2Proof.Machine

/-- Flags of a vector function (R88): what is read and produced, an infinity at a finite input that is no pole, and a zero at a finite
input that is no root. -/
def vfuncFlags (pole root : Int → Int → Bool) (a y : Nat) : AFlags :=
  seenFlags [decodeF fp32 a, decodeF fp32 y] |||
    match decodeF fp32 a, decodeF fp32 y with
    | .fin m e, .inf _ => if pole m e then 0 else flFp32Ovf
    | .fin m e, .fin k _ => if k = 0 && !root m e then flUnderflow else 0
    | _, _ => 0

/-- A vector function row: a fixed function of SRC_A, with its finite poles and roots. -/
def vfuncRow (op : Nat) (f : Nat → Nat) (pole root : Int → Int → Bool) (c g : Nat) (w : W128) (s : State) : Result :=
  lgRow 3 op (fun x =>
    (mapLanes x w (wDst w) (fun lane => f (vsrc x w (wA w) lane)),
     laneFlags x w (fun lane => vfuncFlags pole root (vsrc x w (wA w) lane) (f (vsrc x w (wA w) lane))))) c g w s

def isZero (m _ : Int) : Bool := decide (m = 0)
def nowhere (_ _ : Int) : Bool := false
def isOne (m e : Int) : Bool := fvEq (.fin m e) (.fin 1 0)
/-- An odd multiple of 1/2. -/
def isHalf (m e : Int) : Bool := isInt (2 * m) e && !isInt m e

/-- The unknown function's value, written as R71 says. -/
def vfuncFree (op a : Nat) : Nat := canon32 (Config.vfunc op (BitVec.ofNat 32 a)).toNat

def fNan : Nat := 0x7FC00000
def fInf : Nat := 0x7F800000
def fNegInf : Nat := 0xFF800000
def fOne : Nat := 0x3F800000
def fNegOne : Nat := 0xBF800000

/-- RCP (R104): a zero gives an infinity of its sign, an infinity a zero of its sign, the table before
the +0 of R71 (DEDUCED, log entry 51); else a value within 1 ulp. -/
def rcp (a : Nat) : Nat :=
  match decodeF fp32 a with
  | .nan => fNan
  | .inf neg => if neg then 2 ^ 31 else 0
  | .fin m e =>
    if m = 0 then (if bitOf a 31 then fNegInf else fInf)
    else if rcpWithinUlp m e (vfuncFree 0 a) then vfuncFree 0 a
    else
      -- the correctly rounded quotient of a 200-bit division lies within the bound
      let q : Int := ((2 ^ 200 : Nat) : Int) / m
      let sticky : Int := if q * m = ((2 ^ 200 : Nat) : Int) then 0 else 1
      toFp32 (.fin (2 * q + sticky) (-201 - e))

/-- RSQ (R104). -/
def rsq (a : Nat) : Nat :=
  match decodeF fp32 a with
  | .nan => fNan
  | .inf neg => if neg then fNan else 0
  | .fin m e =>
    if m = 0 then fInf
    else if m < 0 then fNan
    else if rsqWithinUlp m e (vfuncFree 2 a) then vfuncFree 2 a
    else
      let k : Nat := if e % 2 = 0 then 200 else 201
      let n := 2 ^ k / m.natAbs
      toFp32 (.fin (2 * (isqrtBits n 101 0 : Int) + 1) ((-e - (k : Int)) / 2 - 1))

/-- The functions of which R104 fixes the special values and bounds the rest: the unknown function's value where it lies within the
tolerance of the exact result, else the rounded exact result. Each function states its value at both infinities. -/
def vfunc (op : Nat) (special : FVal → Option Nat) (exact : Int → Int → Int × Int) (tol : FVal → Int × Int → FVal) (a : Nat) : Nat :=
  match decodeF fp32 a with
  | .nan => fNan
  | .fin m e => (special (.fin m e)).getD
      (if withinTol (exact m e) (tol (.fin m e) (exact m e)) (vfuncFree op a) then vfuncFree op a
       else toFp32 (.fin (exact m e).1 (exact m e).2))
  | .inf neg => (special (.inf neg)).getD fNan

/-- LOG2: 2 ulp, and for x from 0.5 to 2 also 2^-22. -/
def log2Tol (x : FVal) (y : Int × Int) : FVal :=
  if fvLt x (.fin 1 (-1)) || fvLt (.fin 2 0) x then tolUlp 2 y else tolMin (tolUlp 2 y) (tolAbs 22)

def exp2Special : FVal → Option Nat
  | .inf neg => some (if neg then 0 else fInf)
  | _ => none
def log2Special : FVal → Option Nat
  | .inf neg => some (if neg then fNan else fInf)
  | .fin m _ => if m = 0 then some fNegInf else if m < 0 then some fNan else none
  | .nan => none
def trigSpecial : FVal → Option Nat
  | .inf _ => some fNan
  | _ => none
def tanhSpecial : FVal → Option Nat
  | .inf neg => some (if neg then fNegOne else fOne)
  | _ => none
def sigmSpecial : FVal → Option Nat
  | .inf neg => some (if neg then 0 else fOne)
  | _ => none

def exp2 : Nat → Nat := vfunc 3 exp2Special exactExp2 (fun _ => tolUlp 2)
def log2 : Nat → Nat := vfunc 4 log2Special exactLog2 log2Tol
def sinpi : Nat → Nat := vfunc 5 trigSpecial exactSinPi (fun _ _ => tolAbs 21)
def cospi : Nat → Nat := vfunc 6 trigSpecial exactCosPi (fun _ _ => tolAbs 21)
def tanh : Nat → Nat := vfunc 7 tanhSpecial exactTanh (fun _ y => tolMax (tolUlp 2 y) (tolAbs 23))
def sigm : Nat → Nat := vfunc 8 sigmSpecial exactSigm (fun _ _ => tolAbs 23)

def execVfuncRcp (c g : Nat) (w : W128) (s : State) : Result := vfuncRow 0 rcp isZero nowhere c g w s
def execVfuncSqrt (c g : Nat) (w : W128) (s : State) : Result := vfuncRow 1 fsqrt nowhere isZero c g w s
def execVfuncRsq (c g : Nat) (w : W128) (s : State) : Result := vfuncRow 2 rsq isZero nowhere c g w s
def execVfuncExp2 (c g : Nat) (w : W128) (s : State) : Result := vfuncRow 3 exp2 nowhere nowhere c g w s
def execVfuncLog2 (c g : Nat) (w : W128) (s : State) : Result :=
  vfuncRow 4 log2 isZero isOne c g w s
def execVfuncSinpi (c g : Nat) (w : W128) (s : State) : Result := vfuncRow 5 sinpi nowhere isInt c g w s
def execVfuncCospi (c g : Nat) (w : W128) (s : State) : Result := vfuncRow 6 cospi nowhere isHalf c g w s
def execVfuncTanh (c g : Nat) (w : W128) (s : State) : Result := vfuncRow 7 tanh nowhere isZero c g w s
def execVfuncSigm (c g : Nat) (w : W128) (s : State) : Result := vfuncRow 8 sigm nowhere nowhere c g w s

/-! ### Conversions (R83 to R87, R425) -/

/-- Value of a conversion source: the low bits of a register in a format, times its block's scale for an MX format. -/
def cvtIn (fmt a scale : Nat) : FVal × AFlags :=
  let v := decodeElem fmt (a % 2 ^ elemBits fmt)
  if isMx fmt then
    let k := mxScale (scale % 256)
    (scaled v k.1, k.2)
  else (v, 0)

def execVcvtCvt (c g : Nat) (w : W128) (s : State) : Result :=
  lgRow 4 0 (fun x =>
    let r := fun lane =>
      let i := cvtIn (wMod w % 32) (vsrc x w (wA w) lane) (vsrc x w (wB w) lane)
      let o := encodeVal (wFmt w) (bitOf (wMod w) 5) .rne i.1
      (o.1, i.2 ||| seenFlags [i.1] ||| o.2)
    (mapLanes x w (wDst w) (fun lane => (r lane).1), laneFlags x w (fun lane => (r lane).2))) c g w s

/-- The FP32 values of the active lanes as one MX block; inactive lanes contribute zero (R87, R425). -/
def cvtmxVals (x : Lg) (w : W128) : List (FVal × Rounding) :=
  (List.range 32).map (fun lane => (if laneOn x w lane then decodeF fp32 (vsrc x w (wA w) lane) else .fin 0 0, .rne))

def execVcvtCvtmx (c g : Nat) (w : W128) (s : State) : Result :=
  lgRow 4 1 (fun x =>
    let vals := cvtmxVals x w
    let r := encodeMx (wFmt w) vals
    let y := mapLanes x w (wDst w) (fun lane => r.1.getD lane 0)
    (mapLanes y w (wDst w + 1) (fun _ => r.2.1), r.2.2 ||| seenFlags (vals.map (·.1)))) c g w s

end Sys2Proof.Machine
end

