-- ==== Sys2Proof/Machine/CoreTile.lean ====
section
/-! DEFINITION. Tile store, matrix engine, accumulators and write-out (R81, R83 to R87, R105 to R111, R147, R157, R258). -/

namespace Sys2Proof.Machine

/-! ### Tile-store accesses (R106, R107, R147, R157, R258) -/

/-- The pass of a graphics item. -/
def itemPass (s : State) (c : Nat) (it : GItem) : PassRec :=
  match coreLaunch s c with
  | none => {}
  | some (_, x) => match s.planOf x.ver with
    | none => {}
    | some p => p.passes.getD it.pass {}

def inStepGraphics (s : State) (c : Nat) : Bool :=
  match coreLaunch s c with
  | none => false
  | some (_, x) => match s.planOf x.ver with
    | none => false
    | some p => (stepOf p x.step).graphics

/-- Bytes per pixel of a layout (R128). -/
def layoutBytes (l : Nat) : Nat :=
  match l with
  | 0x00 => 1
  | 0x01 | 0x02 | 0x03 | 0x05 | 0x07 | 0x0A => 4
  | 0x04 => 2
  | 0x06 | 0x08 | 0x0B => 8
  | _ => 16

def passSamples (p : PassRec) : Nat := 2 ^ p.samplesLog2
/-- B of R129. -/
def passB (p : PassRec) : Nat := (p.attach.map (fun a => layoutBytes a.layout * passSamples p)).sum
def tileW (p : PassRec) : Nat := if p.shape = 0 then 32 else if p.shape = 1 then 16 else 64
def tileH (p : PassRec) : Nat := if p.shape = 1 then 16 else 32
def extW (p : PassRec) : Nat := tileW p + 2 * p.halo
def extH (p : PassRec) : Nat := tileH p + 2 * p.halo
def tilePixels (p : PassRec) : Nat := extW p * extH p
def slotBytes (p : PassRec) : Nat := roundUp (tilePixels p * passB p) 4096

/-- Whether `[a, a + n)` lies inside `[lo, lo + m)`. -/
def inside (a n lo m : Nat) : Bool := decide (lo ≤ a) && decide (a + n ≤ lo + m)

/-- The ranges of a KEEP_MAP on one core. -/
def keepRanges (s : State) (c map : Nat) : List RangeRec :=
  match coreLaunch s c with
  | none => []
  | some (_, x) => match s.planOf x.ver with
    | none => []
    | some p => ((p.dirs.getD map {}).ranges).filter (fun r => r.rel == coreRel s c && r.core == c % 32)

/-- Where a lane group may write the tile store in a GRAPHICS step (R147): nowhere while it holds no item (DESIGN CHOICE, log entry 116). -/
def gfxWriteOk (s : State) (c g a n : Nat) : Bool :=
  if !inStepGraphics s c then true
  else
    match (getLg s c g).item with
    | none => false
    | some it =>
      let p := itemPass s c it
      inside a n (p.scratchBase + g * p.scratchBytes) p.scratchBytes
        || (it.kind == 2 && inside a n p.netBase p.netBytes)
        || ((it.kind == 2 || it.twaited) && inside a n ((s.core c).gfx.slot * slotBytes p) (slotBytes p))
        || (keepRanges s c p.keepMap).any (fun r => inside a n r.start r.len)

/-- The status and detail with which one tile-store access ends its launch, if it does (R107, R147, R258). -/
def tsBad (s : State) (c g a n : Nat) (write read : Bool) : Option (Nat × Nat) :=
  if (n ≠ 0 && a % n ≠ 0) || a + n > 524288 then some (5, 0x0401)
  else if a + n > usableTop s && !(read && inModel s c a n) then some (5, 0x0901)
  else if write && !gfxWriteOk s c g a n then some (5, 0x0503)
  else none

/-- Cluster scratch bytes (R155, R157). -/
def scratchSize (s : State) (k : Nat) : Nat := (16 - field (s.cdc k).cfg 0 5) * 16384

/-- Address of a lane's access (R106). -/
def tsAddr (x : Lg) (w : W128) (lane : Nat) : Nat :=
  let base := lgS x (wA w - 0x40)
  let size := 2 ^ field (wMod w) 2 2
  match field (wMod w) 0 2 with
  | 0 => (base + lane * size) % 2 ^ 64
  | 1 => (base + lgV x (wB w) lane) % 2 ^ 64
  | _ => base

/-- The first failing access of the active lanes. -/
def tsCheck (s : State) (c g : Nat) (w : W128) (write : Bool) : Option (Nat × Nat) :=
  let x := getLg s c g
  let n := 2 ^ field (wMod w) 2 2
  (activeLanes x w).findSome? (fun lane =>
    let a := tsAddr x w lane
    if bitOf (wMod w) 4 then (if a % n ≠ 0 || a + n > scratchSize s (c / 4) then some (5, 0x0401) else none)
    else tsBad s c g a n write (!write))

def tsBytes (s : State) (c : Nat) (scratch : Bool) (a n : Nat) : List Byte :=
  if scratch then bytesAt (s.cdc (c / 4)).scratch n a else bytesAt (s.core c).ts n a

/-- Write bytes to a core's tile store. -/
def putTs (s : State) (c a : Nat) (bs : List Byte) : State := s.setCore c { s.core c with ts := putBytes (s.core c).ts a bs }

/-- Bytes a queued matrix operation still reads: (address, length) ranges (R107, R108, R109). -/
def opReads (o : MatOp) : List (Nat × Nat) :=
  let nblk := field (wImm o.w) 0 8
  let blk := fun base stride fmt => (List.range nblk).map (fun k => (base + k * stride, 64 * elemBits fmt))
  if wCls o.w = 6 then
    blk o.a (field (wImm o.w) 8 20) (wFmt o.w) ++ blk o.b (field (wImm o.w) 28 20) (wMod o.w % 32)
      ++ (if isMx (wFmt o.w) then [(field o.c 0 19, 16 * nblk)] else [])
      ++ (if isMx (wMod o.w % 32) then [(field o.c 32 19, 16 * nblk)] else [])
  else if wOp o.w = 1 then [(o.a, if wFmt o.w = 0x10 then 8192 else 1024)]
  else []

/-- Bytes a write-out stores: (address, length) ranges (R111). -/
def woSpans (o : MatOp) : List (Nat × Nat) :=
  let f := wFmt o.w
  let n := if f = 0x10 then 512 else if isMx f then 4 * elemBits f else 2 * elemBits f
  (List.range 16).map (fun i => (o.b + i * field (wImm o.w) 0 20, n)) ++ (if isMx f then [(o.d, 16)] else [])

def overlaps (a n b m : Nat) : Bool := decide (a < b + m) && decide (b < a + n)
def anyOverlap (xs ys : List (Nat × Nat)) : Bool := xs.any (fun p => ys.any (fun q => overlaps p.1 p.2 q.1 q.2))

/-- An access waits for the lane group's own earlier write-outs to the same bytes (R15). -/
def ownStoreWaits (s : State) (c g : Nat) (w : W128) : Bool :=
  let x := getLg s c g
  !bitOf (wMod w) 4 && (s.core c).woQ.any (fun o => o.lg == g
    && anyOverlap (woSpans o) ((activeLanes x w).map (fun lane => (tsAddr x w lane, 2 ^ field (wMod w) 2 2))))

/-- TS.LD (R15, R106, R107, R157). The bits of a 32-bit register above a 1- or 2-byte value are 0 (DESIGN CHOICE, log entry 88). -/
def execTsLd (c g : Nat) (w : W128) (s : State) : Result :=
  coreRow 5 0 none (fun s =>
    if ownStoreWaits s c g w then s
    else
      match tsCheck s c g w false with
      | some (st, d) => coreAbort s c st d
      | none =>
        let x := getLg s c g
        let n := 2 ^ field (wMod w) 2 2
        let val := fun lane => ofLe (tsBytes s c (bitOf (wMod w) 4) (tsAddr x w lane) n)
        let y := (activeLanes x w).foldl (fun y lane =>
          if n = 8 then lgSetV64 y (wDst w) lane (val lane) else lgSetV y (wDst w) lane (val lane)) x
        setLg s c g (stepPc y)) c g w s

/-- A store waits while an earlier MAT or ACC instruction of its lane group has not read the bytes it overwrites (R107). -/
def storeBlocked (s : State) (c g : Nat) (w : W128) : Bool :=
  let x := getLg s c g
  let n := 2 ^ field (wMod w) 2 2
  !bitOf (wMod w) 4 && (s.core c).matQ.any (fun o => o.lg == g &&
    (opReads o).any (fun p => (activeLanes x w).any (fun lane => overlaps (tsAddr x w lane) n p.1 p.2)))

/-- TS.ST (R15, R106, R107, R157): where lanes write the same byte, the highest-numbered lane's value stands. -/
def execTsSt (c g : Nat) (w : W128) (s : State) : Result :=
  coreRow 5 1 none (fun s =>
    if storeBlocked s c g w || ownStoreWaits s c g w then s
    else
      match tsCheck s c g w true with
      | some (st, d) => coreAbort s c st d
      | none =>
        let x := getLg s c g
        let n := 2 ^ field (wMod w) 2 2
        let data := fun lane => leBytes n (if n = 8 then vsrc64 x w (wC w) lane else vsrc x w (wC w) lane)
        let put := fun m => (activeLanes x w).foldl (fun m lane => putBytes m (tsAddr x w lane) (data lane)) m
        let s1 := if bitOf (wMod w) 4 then s.setCdc (c / 4) { s.cdc (c / 4) with scratch := put (s.cdc (c / 4)).scratch }
          else s.setCore c { s.core c with ts := put (s.core c).ts }
        setLg s1 c g (stepPc x)) c g w s

/-! ### The matrix queue (R108 to R110) -/

/-- A matrix operation and a write-out must keep their issue order: they share a tile, or are of one lane group and share tile-store
bytes (R15, R107, R110). -/
def conflicts (m o : MatOp) : Bool :=
  wDst m.w == wA o.w || (isMx (wFmt o.w) && wDst m.w == wA o.w + 1) || (m.lg == o.lg && anyOverlap (opReads m) (woSpans o))

/-- A write-out may start once no earlier queued operation conflicts with it (R107, R110). -/
def woReady (x : Core) : Bool :=
  match x.woQ with
  | [] => false
  | o :: _ => x.matQ.all (fun m => decide (o.seq < m.seq) || !conflicts m o)

/-- The engine may start its next operation once no earlier write-out conflicts with it: it works on other tiles beside one (R15, R90,
R110). -/
def matReady (x : Core) : Bool :=
  match x.matQ with
  | [] => false
  | m :: _ => x.woQ.all (fun o => decide (m.seq < o.seq) || !conflicts m o)

/-- The matrix queue takes four entries beside one that the engine has started. -/
def matFull (x : Core) : Bool := if matReady x then decide (5 ≤ x.matQ.length) else decide (4 ≤ x.matQ.length)
/-- The write-out queue takes four entries beside one that has started. -/
def woFull (x : Core) : Bool := if woReady x then decide (5 ≤ x.woQ.length) else decide (4 ≤ x.woQ.length)

/-- Scalar operand captured at issue. -/
def sOrZero (x : Lg) (c : Nat) : Nat := if isS c then lgS x (c - 0x40) else 0

def mkOp (s : State) (c g : Nat) (w : W128) : MatOp :=
  let x := getLg s c g
  { seq := (s.core c).nextOp, lg := g, w := w, a := sOrZero x (wA w), b := sOrZero x (wB w), c := sOrZero x (wC w), d := sOrZero x (wDst w) }

/-- Queue a matrix operation; a full queue stalls the issue (R110). -/
def queueMat (c g : Nat) (w : W128) (s : State) : State :=
  let x := s.core c
  if matFull x then s
  else
    let s1 := s.setCore c { x with matQ := x.matQ ++ [mkOp s c g w], nextOp := x.nextOp + 1 }
    setLg s1 c g (stepPc (getLg s c g))

/-- MAT.MMA (R108). -/
def execMatMma (c g : Nat) (w : W128) (s : State) : Result := coreRow 6 0 none (queueMat c g w) c g w s
/-- ACC.CLEAR (R109). -/
def execAccClear (c g : Nat) (w : W128) (s : State) : Result := coreRow 7 0 none (queueMat c g w) c g w s
/-- ACC.LOAD (R109). -/
def execAccLoad (c g : Nat) (w : W128) (s : State) : Result := coreRow 7 1 none (queueMat c g w) c g w s
/-- ACC.STORE (R110, R111, R147). -/
def execAccStore (c g : Nat) (w : W128) (s : State) : Result :=
  coreRow 7 2 none (fun s =>
    let x := s.core c
    let o := mkOp s c g w
    if woFull x then s
    else
      let o1 : MatOp := { o with allowed := (woSpans o).all (fun p => gfxWriteOk s c g p.1 p.2) }
      let s1 := s.setCore c { x with woQ := x.woQ ++ [o1], nextOp := x.nextOp + 1 }
      setLg s1 c g (stepPc (getLg s c g))) c g w s

/-! ### The matrix engine -/

/-- `len` bits at a bit position of a byte table. -/
def bitsAt (m : Map Byte) (pos len : Nat) : Nat := field (ofLe (bytesAt m 5 (pos / 8))) (pos % 8) len

/-- Elements of row (or column) `r` of a k-block at `base`, times the row's scale (R73, R108). -/
def blockRow (m : Map Byte) (fmt base scale r : Nat) : List FVal :=
  let b := elemBits fmt
  let sc := if isMx fmt then (mxScale (mget m 0 (scale + r)).toNat).1 else some 0
  (List.range 32).map (fun k => scaled (decodeElem fmt (bitsAt m (8 * base + (32 * r + k) * b) b)) sc)

def scaleFlags (m : Map Byte) (fmt scale : Nat) : AFlags :=
  if isMx fmt then (List.range 16).foldl (fun a r => a ||| (mxScale (mget m 0 (scale + r)).toNat).2) 0 else 0

/-- Add one k-block to a tile (R75, R78, R80): the new element images and the flags. -/
def mmaBlock (tile fa fb : Nat) (aRows bCols : List (List FVal)) (acc : Map (BitVec 256)) : Map (BitVec 256) × AFlags :=
  (List.range 256).foldl (fun (st : Map (BitVec 256) × AFlags) e =>
    let prods := List.zipWith fvMul (aRows.getD (e / 16) []) (bCols.getD (e % 16) [])
    let old := (mget st.1 0 (256 * tile + e)).toNat
    if isLongFmt fa && isLongFmt fb then
      let r := prods.foldl accAdd (accValue old, accFlags old)
      let new := accImage r.1 r.2
      (mset st.1 0 (256 * tile + e) (BitVec.ofNat 256 new), st.2 ||| seenFlags (accVal new :: prods))
    else
      let exact := prods.foldl fvAdd (decodeF fp32 (old % 2 ^ 32))
      let r := encodeF fp32 false .rne exact
      (mset st.1 0 (256 * tile + e) (BitVec.ofNat 256 r.1), st.2 ||| seenFlags [exact] ||| vecFlags r.2)) (acc, 0)

def setMode (x : Core) (t : Nat) (m : AccMode) : Core := { x with mode := x.mode.set t m }
def modeOf (x : Core) (t : Nat) : AccMode := x.mode.getD t .none

/-- A check of every range an engine reads: the bounds of a lane group's reads (R105, R107, R258). The exception for a resident model
is for the operands of MAT.MMA (`mma`), its scales among them. A scale address must be a multiple of 16 (DESIGN CHOICE, log entry 89). -/
def readsBad (s : State) (c : Nat) (mma : Bool) (rs : List (Nat × Nat)) : Option (Nat × Nat) :=
  rs.findSome? (fun p => if p.1 % 16 ≠ 0 || p.1 + p.2 > 524288 then some (5, 0x0401)
    else if p.1 + p.2 > usableTop s && !(mma && inModel s c p.1 p.2) then some (5, 0x0901) else none)

/-- MMA on the whole tile: block by block in k order (R108). -/
def runMma (s : State) (c : Nat) (o : MatOp) : State :=
  let x := s.core c
  let t := wDst o.w - 0x58
  let fa := wFmt o.w
  let fb := wMod o.w % 32
  let long := isLongFmt fa && isLongFmt fb
  if modeOf x t != (if long then .long else .fp32) then coreAbort s c 5 0x0402
  else if o.a % 64 ≠ 0 || o.b % 64 ≠ 0 then coreAbort s c 5 0x0401
  else
    match readsBad s c true (opReads o) with
    | some (st, d) => coreAbort s c st d
    | none =>
      let r := (List.range (field (wImm o.w) 0 8)).foldl (fun (st : Map (BitVec 256) × AFlags) k =>
        let aBase := o.a + k * field (wImm o.w) 8 20
        let bBase := o.b + k * field (wImm o.w) 28 20
        let aS := field o.c 0 19 + 16 * k
        let bS := field o.c 32 19 + 16 * k
        let rows := (List.range 16).map (blockRow x.ts fa aBase aS)
        let cols := (List.range 16).map (blockRow x.ts fb bBase bS)
        let n := mmaBlock t fa fb rows cols st.1
        (n.1, st.2 ||| n.2 ||| scaleFlags x.ts fa aS ||| scaleFlags x.ts fb bS
          ||| seenFlags rows.flatten ||| seenFlags cols.flatten)) (x.acc, 0)
      coreFlags (s.setCore c { x with acc := r.1 }) c r.2

/-- ACC.CLEAR and ACC.LOAD performed (R109). -/
def runAcc (s : State) (c : Nat) (o : MatOp) : State :=
  let x := s.core c
  let t := wDst o.w - 0x58
  let m : AccMode := if wFmt o.w = 0x10 then .long else .fp32
  let n := if wFmt o.w = 0x10 then 32 else 4
  if wOp o.w = 0 then s.setCore c (setMode { x with acc := zeroRange x.acc (256 * t) 256 } t m)
  else if o.a % 64 ≠ 0 then coreAbort s c 5 0x0401
  else
    match readsBad s c false (opReads o) with
    | some (st, d) => coreAbort s c st d
    | none =>
      let img := fun e => ofLe (bytesAt x.ts n (o.a + n * e))
      let acc := (List.range 256).foldl (fun a e => mset a 0 (256 * t + e) (BitVec.ofNat 256 (img e))) x.acc
      -- a NaN or infinity read is seen (R88); an image with a reserved bit set is treated as NAN (R79)
      let fl := (List.range 256).foldl (fun a e => a ||| seenFlags [if n = 32 then accVal (img e) else decodeF fp32 (img e)]) 0
      coreFlags (s.setCore c (setMode { x with acc := acc } t m)) c fl

/-! ### Write-out (R83 to R87, R111) -/

/-- The value of a tile element and, for a LONG tile, its exact value. -/
def elemVal (x : Core) (t e : Nat) : FVal :=
  let img := (mget x.acc 0 (256 * t + e)).toNat
  if modeOf x t = .long then accVal img else decodeF fp32 (img % 2 ^ 32)

/-- Rounding, SAT and format of a write-out (R85, R111). -/
def woControl (s : State) (c : Nat) (w : W128) : Bool × (Nat → Nat → Rounding) :=
  match coreLaunch s c with
  | none => (false, fun _ _ => .rne)
  | some (_, x) =>
    match s.planOf x.ver with
    | none => (false, fun _ _ => .rne)
    | some p =>
      if bitOf (wMod w) 0 then
        match p.reds[field (wImm w) 32 20]? with
        | none => (false, fun _ _ => .rne)
        | some r => (r.sat, fun row col => if r.stochastic && p.stochastic then .stochastic (srBits p.seed r.tensor row col) else .rne)
      else (bitOf (wMod w) 1, fun _ _ => .rne)

/-- One packed row of codes as bytes. -/
def packRow (bits : Nat) (codes : List Nat) : List Byte :=
  let n := codes.foldr (fun c a => c % 2 ^ bits + 2 ^ bits * a) 0
  leBytes (codes.length * bits / 8) n

/-- ACC.STORE performed: every row's bytes, the scale bytes of an MX format, and the flags. FP32 from an FP32 accumulator is encoded as
any other value: R71 and R86 act on a loaded NaN, -0 or infinity (DEDUCED, log entry 90). -/
def woRows (s : State) (c : Nat) (o : MatOp) : List (Nat × List Byte) × AFlags :=
  let x := s.core c
  let t := wA o.w - 0x58
  let f := wFmt o.w
  let ctl := woControl s c o.w
  let row0 := field o.c 0 32
  let col0 := field o.c 32 32
  let stride := field (wImm o.w) 0 20
  (List.range 16).foldl (fun st i =>
    if f = 0x10 then
      (st.1 ++ [(o.b + i * stride, (List.range 16).flatMap (fun j => leBytes 32 (mget x.acc 0 (256 * t + 16 * i + j)).toNat))],
        st.2 ||| seenFlags ((List.range 16).map (fun j => elemVal x t (16 * i + j))))
    else if isMx f then
      let vals := (List.range 32).map (fun j =>
        (elemVal x (t + j / 16) (16 * i + j % 16), ctl.2 ((row0 + i) % 2 ^ 32) ((col0 + j) % 2 ^ 32)))
      let r := encodeMx f vals
      (st.1 ++ [(o.b + i * stride, packRow (elemBits f) r.1), (o.d + i, leBytes 1 r.2.1)], st.2 ||| r.2.2)
    else
      let r := (List.range 16).map (fun j =>
        encodeVal f ctl.1 (ctl.2 ((row0 + i) % 2 ^ 32) ((col0 + j) % 2 ^ 32)) (elemVal x t (16 * i + j)))
      (st.1 ++ [(o.b + i * stride, packRow (elemBits f) (r.map (·.1)))], r.foldl (fun a p => a ||| p.2) st.2)) ([], 0)

/-- The alignment a write-out's address needs: its element size, 32 bytes for ACC224 (DESIGN CHOICE, log entry 91). -/
def woAlign (f : Nat) : Nat := if f = 0x10 then 32 else if elemBits f < 8 then 1 else elemBits f / 8

def runStore (s : State) (c : Nat) (o : MatOp) : State :=
  let x := s.core c
  let t := wA o.w - 0x58
  let f := wFmt o.w
  let bad := modeOf x t == .none || (f == 0x10 && modeOf x t != .long) || (isMx f && modeOf x (t + 1) == .none)
  if bad then coreAbort s c 5 0x0402
  else if o.b % woAlign f ≠ 0 then coreAbort s c 5 0x0401
  else
    let r := woRows s c o
    match r.1.findSome? (fun p => if p.1 + p.2.length > 524288 then some (5, 0x0401)
        else if p.1 + p.2.length > usableTop s then some (5, 0x0901)
        else if o.allowed then none else some (5, 0x0503)) with
    | some (st, d) => coreAbort s c st d
    | none => coreFlags (s.setCore c { x with ts := r.1.foldl (fun m p => putBytes m p.1 p.2) x.ts }) c r.2

/-- A barrier that waited for the queues may open (R103). -/
def openBar (c : Nat) (s : State) : State := s.setCore c (barRelease (s.core c))

/-- MATRIX_OP_COMPLETE (R103, R110): the engine's operation, or the write-out in progress, completes. -/
def execMatrixOpComplete (c : Nat) (store : Bool) (s : State) : Result :=
  let x := s.core c
  let runs := !s.flt.safe && (match coreLaunch s c with
    | some (_, l) => l.phase == .running || l.phase == .yielding
    | none => false)
  if !runs then .next s
  else if store then
    match x.woQ with
    | o :: rest => if woReady x then .next (openBar c (runStore (s.setCore c { x with woQ := rest }) c o)) else .next s
    | [] => .next s
  else
    match x.matQ with
    | o :: rest =>
      let s1 := s.setCore c { x with matQ := rest }
      if matReady x then .next (openBar c (if wCls o.w = 6 then runMma s1 c o else runAcc s1 c o)) else .next s
    | [] => .next s

end Sys2Proof.Machine
end

