-- ==== Sys2Proof/Machine/Qanat.lean ====
section
/-! DEFINITION. Sending Qanat (R291 to R297, R308): frames, the window and its shares, and the jobs that move bytes to and from peers. -/

namespace Sys2Proof.Machine

/-! ### Sub-ports (R291, R308, R313) -/

def sub (s : State) (q : Nat) : Sub := mget s.net.subs {} q
def setSub (s : State) (q : Nat) (x : Sub) : State := { s with net := { s.net with subs := mset s.net.subs {} q x } }
def netCtrl (s : State) (q : Nat) : Nat := rd s (0x090100 + 0x100 * q)
def subEnabled (s : State) (q : Nat) : Bool := bitOf (netCtrl s q) 0
def subSwitched (s : State) (q : Nat) : Bool := bitOf (netCtrl s q) 1
def macsecOn (s : State) (q : Nat) : Bool := bitOf (netCtrl s q) 3
def xpnOn (s : State) (q : Nat) : Bool := bitOf (netCtrl s q) 4
/-- Breakout of the port that holds a sub-port; without it sub-ports 1 and 3 do not exist (R291). -/
def breakout (s : State) (q : Nat) : Bool := bitOf (netCtrl s (q / 2 * 2)) 2

/-- A sub-port sends while it is enabled with its link up and, under MACsec, holds a transmit SAK whose PN is not exhausted (R308). -/
def canSend (s : State) (q : Nat) : Bool :=
  subEnabled s q && (sub s q).linkUp && !s.flt.safe
    && (!macsecOn s q || ((sub s q).txAn.isSome && (xpnOn s q || decide ((sub s q).pn < 2 ^ 32 - 1))))

/-- Count frames under MACsec: PN_LOW is set at 0xC000_0000 without XPN (R308). -/
def countPn (s : State) (q n : Nat) : State :=
  if macsecOn s q then
    let x := sub s q
    setSub s q { x with pn := x.pn + n, pnLow := x.pnLow || (!xpnOn s q && decide (0xC0000000 ≤ x.pn + n)) }
  else s

/-- Send a message of `n` frames. -/
def netSendN (s : State) (q n : Nat) (m : OutMsg) : State := if canSend s q then (countPn s q n).send m else s
def netSend (s : State) (q : Nat) (m : OutMsg) : State := netSendN s q 1 m

/-- Send a RoCEv2 message of `n` frames; while the partner pauses its priority it waits (R291, R309). -/
def roceOut (s : State) (q n : Nat) (m : OutMsg) : State :=
  let x := sub s q
  if x.paused then setSub s q { x with waiting := x.waiting ++ [(n, m)] } else netSendN s q n m

/-- The pause ends: what waits is sent in order. -/
def unpause (q : Nat) (s : State) : State :=
  let x := sub s q
  foldState x.waiting (fun e a => netSendN a q e.1 e.2) (setSub s q { x with paused := false, waiting := [] })

/-- A sub-port whose link is down, with what waits on it lost. -/
def linkDown (x : Sub) : Sub := { x with linkUp := false, paused := false, waiting := [] }

/-- Key registers of a sub-port: SAK, salt and SSCI words (R308, R313). -/
def keyRegs (q : Nat) : List Nat := (List.range 12).map (fun w => 0x090100 + 0x100 * q + 0x20 + 4 * w)

/-- Measured hub-engine bytes, outside SERVICE (R408). -/
def countHub (n : Nat) (s : State) : State :=
  if s.acct.mode = 1 then s else { s with acct := { s.acct with hubBytes := (s.acct.hubBytes + n) % 2 ^ 64 } }

/-! ### Nodes and the Qanat header (R293 to R295) -/

def myNode (s : State) : Nat := (s.net.nodeId.getD Config.shippedNodeId).toNat
def node? (s : State) (id : Nat) : Option Node := mfind s.net.nodes id
def setNode (s : State) (id : Nat) (n : Node) : State := { s with net := { s.net with nodes := mins s.net.nodes id n } }

/-- The 32-byte header (R295). -/
def qHdr (typ flags hops counter src dst psn exp lines code off : Nat) : List Byte :=
  leBytes 1 (1 + 16 * typ) ++ leBytes 1 flags ++ leBytes 1 hops ++ leBytes 1 counter ++ leBytes 4 src ++ leBytes 4 dst
    ++ leBytes 4 psn ++ leBytes 4 exp ++ leBytes 2 lines ++ leBytes 2 code ++ leBytes 8 off

/-- Send a packet to a node through the sub-port of its entry. -/
def qSend (s : State) (id : Nat) (typ flags counter psn exp lines code off : Nat) (payload : List Byte) : State :=
  match node? s id with
  | none => s
  | some n => netSend s n.sub
      { kind := .qanat, a := id, b := n.sub
        bytes := qHdr typ flags n.hops counter (myNode s) id psn exp lines code off ++ payload }

/-! ### Jobs (R296, R297) -/

def job? (s : State) (k : Nat) : Option Job := mfind s.net.jobs k
def setJob (s : State) (k : Nat) (j : Job) : State := { s with net := { s.net with jobs := mins s.net.jobs k j } }
def dropJob (k : Nat) (s : State) : State := { s with net := { s.net with jobs := mdel s.net.jobs k } }

/-- Whether two jobs draw on one share: those of one region, or all hub jobs (R297, R307). -/
def sameShare (a b : JobUser) : Bool :=
  match a, b with
  | .entry r _ _, .entry r' _ _ => r == r'
  | .copy _ _, .copy _ _ => true
  | _, _ => false

/-- Lines of a share in flight toward a node. -/
def shareUsed (n : Node) (u : JobUser) : Nat := (n.unacked.map (fun p => if sameShare p.user u then p.lines else 0)).sum

def shareSize (n : Node) (u : JobUser) : Nat :=
  match u with
  | .entry _ _ _ => n.window / 32
  | .copy _ _ => 16 * (n.window / 32)

/-- Send, or resend, one packet. -/
def sendPkt (s : State) (id : Nat) (p : TxPkt) : State :=
  countHub (match p.user with
    | .copy _ _ => p.bytes.length
    | .entry _ _ _ => 0)
    (qSend s id p.typ p.flags p.counter p.psn p.exp p.lines 0 p.off p.bytes)

/-- Send the pieces of a job while its share and the window allow; a piece longer than its share goes as several packets (R297). -/
def pumpJob : (fuel k : Nat) → State → State
  | 0, _, s => s
  | m + 1, k, s =>
    match job? s k with
    | none => s
    | some j =>
      match node? s j.node, j.todo with
      | some n, (off, pos, whole) :: more =>
        let len := min whole (64 * shareSize n j.user)
        let rest := if len < whole then (off + len, pos + len, whole - len) :: more else more
        let lines := ceilDiv len 64
        if len = 0 || n.st != .up || shareSize n j.user < shareUsed n j.user + lines
            || n.window < (n.unacked.map (·.lines)).sum + lines then s
        else
          let pkt : TxPkt := {
            psn := n.txPsn, lines := lines, job := k, user := j.user, typ := if j.write then 0 else 1
            flags := if j.write then b2n j.counter.isSome + 2 * b2n rest.isEmpty else 0
            counter := j.counter.getD 0, exp := j.export_, off := off
            bytes := if j.write then (j.data.drop pos).take len else [] }
          let j' : Job := { j with todo := rest, reads := if j.write then j.reads else j.reads ++ [(n.txPsn, pos, len)] }
          let n' : Node := { n with txPsn := (n.txPsn + 1) % 2 ^ 32, unacked := n.unacked ++ [pkt] }
          pumpJob m k (sendPkt (setNode (setJob s k j') j.node n') j.node pkt)
      | _, _ => s

def pumpAll (id : Nat) (s : State) : State :=
  foldState (mkeys s.net.jobs (fun _ j => j.node == id)) (fun k a => pumpJob 4096 k a) s

/-- Cut `len` bytes at `off` of an export, at `pos` of a job, into packets of at most 128 lines. -/
def cutPieces : (fuel off pos len : Nat) → List (Nat × Nat × Nat)
  | 0, _, _, _ => []
  | m + 1, off, pos, len =>
    if len = 0 then []
    else
      let n := min len 8192
      (off, pos, n) :: cutPieces m (off + n) (pos + n) (len - n)

/-- Start a job; answers its key. -/
def startJob (s : State) (j : Job) : State × Nat :=
  let k := s.net.nextJob
  let n := (j.todo.map (fun p => ceilDiv p.2.2 64)).sum
  let j' : Job := { j with left := n, lines := n }
  let s1 := setJob { s with net := { s.net with nextJob := k + 1 } } k j'
  (pumpJob 4096 k s1, k)

def jobDone (j : Job) : Bool := j.todo.isEmpty && j.left == 0 && j.reads.isEmpty

/-- Write bytes to offset `o` of an export, for the user, pieces and stop of `b`. Packets carry whole lines (R295): the lines at unaligned
edges are read from the peer first, and go back with the bytes laid over them (log entry 72). -/
def peerWrite (b : Job) (n e o : Nat) (bs : List Byte) (s : State) : State :=
  let skew := o % 64
  let total := 64 * ceilDiv (skew + bs.length) 64
  let head := skew != 0
  let tail := (skew + bs.length) % 64 != 0 && !(head && total == 64)
  let edges := (if head then [(o - skew, 0, 64)] else []) ++ (if tail then [(o - skew + total - 64, total - 64, 64)] else [])
  let j : Job := { b with node := n, export_ := e, skew := skew, len := bs.length }
  (startJob s (if edges.isEmpty then { j with write := true, todo := cutPieces (total / 8192 + 1) o 0 total, data := bs, onward := none }
    else { j with write := false, todo := edges, data := List.replicate total 0, onward := some (n, e, o - skew), patch := bs })).1

/-- Read `len` bytes at offset `o` of an export, in whole lines. -/
def peerRead (b : Job) (n e o len : Nat) (s : State) : State :=
  let skew := o % 64
  let total := 64 * ceilDiv (skew + len) 64
  (startJob s { b with
    node := n, write := false, export_ := e, todo := cutPieces (total / 8192 + 1) (o - skew) 0 total
    data := List.replicate total 0, skew := skew, len := len }).1

/-- The bytes of a read job's range. -/
def jobBytes (j : Job) : List Byte := (j.data.drop j.skew).take j.len

/-- Bytes of a job's range that have been acknowledged or delivered; what is read for another peer, or for an edge, has not moved yet. -/
def jobMoved (j : Job) : Nat :=
  if !j.patch.isEmpty || (!j.write && j.onward.isSome) then 0 else min j.len (64 * (j.lines - j.left) - j.skew)

/-- The pieces of a walk that cover its first `n` bytes. -/
def takePieces : (n : Nat) → List (Nat × Nat) → List (Nat × Nat)
  | _, [] => []
  | n, (pa, l) :: r => if n = 0 then [] else (pa, min l n) :: takePieces (n - min l n) r

/-- The delivered bytes of a COPY from a peer that is cut short stand in memory. -/
def landPrefix (j : Job) (s : State) : State :=
  if j.write || j.mem.isEmpty then s else countHub (jobMoved j) (hubWrite s (takePieces (jobMoved j) j.mem) ((jobBytes j).take (jobMoved j)))

end Sys2Proof.Machine
end

