-- ==== Sys2Proof/Machine/CoreSync.lean ====
section
/-! DEFINITION. Region semaphores (R113, R114, R159) and planned transfers (R112, R187, R197, R198, R201, R202). -/

namespace Sys2Proof.Machine

/-! ### Semaphores (R113) -/

/-- A waiter that is served leaves its WAIT: its counter advances and it runs on. -/
def wakeLg (c g : Nat) (s : State) : State :=
  setLg s c g { stepPc (getLg s c g) with st := .running }

/-- Serve the waiters of one semaphore strictly in arrival order while the count suffices. -/
def serveSem : (fuel sem r : Nat) → State → State
  | 0, _, _, s => s
  | n + 1, sem, r, s =>
    let x := s.rgn r
    match x.waiters.find? (fun y => y.sem == sem) with
    | none => s
    | some y =>
      let cnt := mget x.sems 0 sem
      if cnt < y.n then s
      else
        let x' : Region := { x with sems := mset x.sems 0 sem (cnt - y.n), waiters := x.waiters.erase y }
        serveSem n sem r (wakeLg y.core y.lg (s.setRgn r x'))

def semId (w : W128) : Nat := field (wImm w) 0 8
def semN (w : W128) : Nat := field (wImm w) 16 16

/-- SEM.SIG (R113, R159): it waits until every earlier UNP instruction of the lane group has completed. -/
def execSemSig (c g : Nat) (w : W128) (s : State) : Result :=
  coreRow 8 0 none (fun s =>
    let r := c / 32
    let x := s.rgn r
    let n := mget x.sems 0 (semId w) + semN w
    if unpPending s c g then s
    else if n > 65535 then coreAbort s c 5 0x0403
    else
      let s1 := s.setRgn r { x with sems := mset x.sems 0 (semId w) n }
      serveSem (x.waiters.length + 1) (semId w) r (setLg s1 c g (stepPc (getLg s1 c g)))) c g w s

/-- SEM.WAIT (R113): a later waiter never overtakes an earlier one. -/
def execSemWait (c g : Nat) (w : W128) (s : State) : Result :=
  coreRow 8 1 none (fun s =>
    let r := c / 32
    let x := s.rgn r
    let cnt := mget x.sems 0 (semId w)
    if semN w ≤ cnt && !x.waiters.any (fun y => y.sem == semId w) then
      setLg (s.setRgn r { x with sems := mset x.sems 0 (semId w) (cnt - semN w) }) c g (stepPc (getLg s c g))
    else
      setLg (s.setRgn r { x with waiters := x.waiters ++ [⟨semId w, c, g, semN w⟩] }) c g { getLg s c g with st := .onSem }) c g w s

/-- SEM.TRY (R113): it never blocks. -/
def execSemTry (c g : Nat) (w : W128) (s : State) : Result :=
  coreRow 8 2 none (fun s =>
    let r := c / 32
    let x := s.rgn r
    let cnt := mget x.sems 0 (semId w)
    let hit := decide (semN w ≤ cnt)
    let s1 := if hit then s.setRgn r { x with sems := mset x.sems 0 (semId w) (cnt - semN w) } else s
    let y := getLg s c g
    setLg s1 c g (stepPc (lgSetP y (wDst w - 0x50) (if hit then 0xFFFFFFFF#32 else 0#32)))) c g w s

/-! ### Peer table (R189) -/

/-- The peer that a caravan address names: node, export and offset, or the failed check (R189, R197). -/
def peerOf (s : State) (c : Ctx) (idx off len : Nat) (write : Bool) : Except (Nat × Nat) (Nat × Nat × Nat) :=
  if c.peerCount ≤ idx then .error (3, 0x0704)
  else
    let k := walkVa s c false 0 (c.peerVa + 16 * idx) 16 false
    match k.stop with
    | some _ => .error (3, 0x0704)
    | none =>
      let e := ofLe (readPieces s k.pieces)
      if !bitOf e 127 || off + len > field e 64 39 then .error (3, 0x0704)
      else if write && !bitOf e 126 then .error (3, 0x0702)
      else .ok (field e 0 32, field e 32 32, off)

/-! ### Planned transfers (R201, R202) -/

/-- Directory entry of the launch's current step table. -/
def stepTable (s : State) (x : Launch) : DirRec :=
  match s.planOf x.ver with
  | none => {}
  | some p => p.dirs.getD (stepOf p x.step).xfer {}

/-- Device address of row `i` of an entry. -/
def rowVa (x : Launch) (e : XferRec) (i : Nat) : Nat := x.args.getD e.slot 0 + e.memOff + i * e.memStride

/-- Translate the rows of an entry in order, stopping at the first that stops. -/
def walkRows (s : State) (c : Ctx) (x : Launch) (l : Nat) (e : XferRec) : (rows i : Nat) → Walk → Walk
  | 0, _, k => k
  | n + 1, i, k =>
    let w := walkVa s c x.translated (userLaunch l) (rowVa x e i) e.rowBytes (e.dir == 1)
    let k' : Walk := { pieces := k.pieces ++ w.pieces, moved := k.moved + w.moved, stop := w.stop }
    match w.stop with
    | none => walkRows s c x l e n (i + 1) k'
    | some _ => k'

/-- A translation fault of a launch: recorded, class K (R197, R199, R398: FE, CODE 1), and the launch ends with its status. -/
def launchFault (s : State) (l r va st d source index off : Nat) : State :=
  match s.launch? l with
  | none => s
  | some x => if x.phase = .ended then s else endLaunch l st d (fillFault s x.ctx ⟨va, 0, st, d, source, r, index, off⟩)

/-- Bytes of an entry's tile-store side, row by row. -/
def tileSide (s : State) (r : Nat) (e : XferRec) : List Byte :=
  (List.range e.rows).flatMap (fun i => bytesAt (s.core (32 * r + e.core)).ts e.rowBytes (e.ts + i * e.tsStride))

/-- A caravan entry that reaches the head of its stream engine starts to move its lines (R295, R297, R304). -/
def kickHead (r : Nat) (s : State) : State :=
  match launchAt s r, (s.rgn r).fifo with
  | some (l, x), e :: rest =>
    match e.peer, (stepTable s x).xfers[e.entry]?, s.planOf x.ver with
    | some (node, exp, off), some t, some p =>
      if e.job ≠ 0 then s
      else
        let send := p.sends.find? (fun y => y.table == (stepOf p x.step).xfer && y.record == e.entry)
        let todo := (List.range t.rows).flatMap (fun i => cutPieces (t.rowBytes / 8192 + 1) (off + i * t.memStride) (i * t.rowBytes) t.rowBytes)
        let job : Job := { node := node, user := .entry r l e.entry, write := e.write, export_ := exp
                           counter := send.bind (·.counter), todo := todo, len := t.rows * t.rowBytes
                           data := if e.write then crossed (coreRatio s (r / 8)) s (tileSide s r t) else List.replicate (t.rows * t.rowBytes) 0 }
        let (s1, k) := startJob (tickCross (!e.write || coreRatio s (r / 8)) (t.rows * t.rowBytes) s) job
        let y := s1.rgn r
        s1.setRgn r { y with fifo := { e with job := k } :: rest }
    | _, _, _ => s
  | _, _ => s

/-! ### Charges (R203) -/

/-- Core cycles at the guaranteed clock in FE cycles (R56). -/
def feOf (x : Nat) : Nat := ceilDiv (x * 8) 11

/-- Time for `l` lines of one controller with `n` lanes beside the floor slot (R203). -/
def ctlTime (l n : Nat) : Nat := ceilDiv (22 * (32 * ceilDiv (2 * ceilDiv l 32) (2 * n + 1) + 64)) 10

/-- d of R203 for a placement code, with the step's lanes. -/
def entryTime (e : XferRec) (code near far : Nat) : Nat :=
  let b := e.rows * e.rowBytes
  let pg := min (e.rows * (ceilDiv e.rowBytes 65536 + 1)) (ceilDiv ((e.rows - 1) * e.memStride + e.rowBytes) 65536 + 1)
  let one := min (b / 64) ((ceilDiv pg 4 + 1) * 1024)
  let split := min (b / 64) ((ceilDiv pg 8 + 1) * 1024)
  let se := ceilDiv b 256
  match code with
  | 1 => 1100 + max se (ctlTime one near)
  | 2 => 1100 + max (max se (ctlTime one far)) (ceilDiv b 224)
  | 3 => 1100 + max (max se (max (ctlTime split near) (ctlTime split far))) (ceilDiv (min b ((ceilDiv pg 2 + 1) * 65536)) 224)
  | _ => 1100 + max se (6600 + ceilDiv b 16)

/-- The charge of an entry that reaches the host: without SLOT_CLAIMS the larger of its FAR and HOST charges (R204). -/
def hostTime (p : Plan) (e : XferRec) : Nat := if p.place.isEmpty then max (entryTime e 2 0 0) (entryTime e 4 0 0) else entryTime e 4 0 0

/-- Push a started entry on its region's stream engine. -/
def pushEntry (s : State) (r : Nat) (e : Started) : State :=
  let x := s.rgn r
  kickHead r (s.setRgn r { x with fifo := x.fifo ++ [{ e with stamp := s.now }], started := if x.started.contains e.entry then x.started else x.started ++ [e.entry], done := x.done.filter (· != e.entry) })

/-- Start entry `n` of the step's table on region `r`: it takes all its translations now (R187). `none` while a host page is
awaited. -/
def startEntry (s : State) (r l : Nat) (x : Launch) (n : Nat) : Option State :=
  match s.ctx? x.ctx, (stepTable s x).xfers[n]? with
  | some c, some e =>
    let va := rowVa x e 0
    let extent := e.ts + (e.rows - 1) * e.tsStride + e.rowBytes
    if extent > usableTop s || (e.dir = 2 && e.ts2 + (e.rows - 1) * e.tsStride + e.rowBytes > usableTop s) then
      some (abortLaunch l r 5 0x0901 s)
    else if e.dir = 2 then some (pushEntry s r { entry := n })
    else if caravanBase ≤ va && va < hostBase then
      let len := (e.rows - 1) * e.memStride + e.rowBytes
      match peerOf s c ((va - caravanBase) / 2 ^ 39) ((va - caravanBase) % 2 ^ 39) len (e.dir == 1) with
      | .ok p => some (pushEntry s r { entry := n, write := e.dir == 1, peer := some p })
      | .error (st, d) => some (launchFault s l r va st d 0 n 0)
    else
      let k := walkRows s c x l e e.rows 0 {}
      match k.stop with
      | none => some (pushEntry s r { entry := n, mem := k.pieces, write := e.dir == 1 })
      | some (.bad 3 d) => some (launchFault s l r va 3 d 0 n 0)
      | some (.bad st d) =>
        some (pushEntry s r { entry := n, mem := k.pieces, write := e.dir == 1,
                              stop := some (st, d, rowVa x e (k.moved / e.rowBytes) + k.moved % e.rowBytes) })
      | some (.wait _) => none
      | some _ => some (launchFault s l r va 3 0x0703 0 n 0)
  | _, _ => some s

/-- The page that a starting entry waits for is asked for (R191). -/
def noteEntryWait (s : State) (l : Nat) (x : Launch) (n : Nat) : State :=
  match s.ctx? x.ctx, (stepTable s x).xfers[n]? with
  | some c, some e =>
    match (walkRows s c x l e e.rows 0 {}).stop with
    | some (.wait page) => noteWait s c (userLaunch l) page
    | _ => s
  | _, _ => s

/-- The entries of a region that were issued and have not started: each starts once its AFTER entry has completed (R202) and the host
pages it needs are present; only its stream pauses meanwhile (R192). -/
def startWaiting (r : Nat) (s : State) : State :=
  match launchAt s r with
  | none => s
  | some (l, _) =>
    foldState (s.rgn r).after (fun k a =>
      match a.launch? l with
      | none => a
      | some x =>
        let y := a.rgn r
        let ready := match (stepTable a x).xfers[k]? with
          | some e => !e.afterEn || y.done.contains e.after
          | none => false
        if x.phase = .ended || !y.after.contains k || !ready then a
        else match startEntry a r l x k with
          | some b => b.setRgn r { b.rgn r with after := (b.rgn r).after.filter (· != k) }
          | none => noteEntryWait a l x k) s

/-- Issue an entry: it starts at once unless its AFTER entry or a host page is awaited. -/
def issueEntry (r n : Nat) (s : State) : State :=
  let y := s.rgn r
  startWaiting r (s.setRgn r { y with after := y.after ++ [n], started := y.started ++ [n], done := y.done.filter (· != n) })

/-- XFER.START (R112, R202): an entry already started in the stretch ends the launch. -/
def execXferStart (c g : Nat) (w : W128) (s : State) : Result :=
  coreRow 0xA 0 none (fun s =>
    let n := field (wImm w) 0 32
    match coreLaunch s c with
    | none => s
    | some (l, _) =>
      if (s.rgn (c / 32)).started.contains n then abortLaunch l (c / 32) 5 0x0702 s
      else
        let s1 := issueEntry (c / 32) n s
        if (s1.core c).lgs.isEmpty then s1 else setLg s1 c g (stepPc (getLg s1 c g))) c g w s

/-- XFER.WAIT (R112): the lane group goes on once the entry has completed. -/
def execXferWait (c g : Nat) (w : W128) (s : State) : Result :=
  coreRow 0xA 1 none (fun s =>
    if (s.rgn (c / 32)).done.contains (field (wImm w) 0 32) then setLg s c g (stepPc (getLg s c g)) else s) c g w s

/-- AUTO_TRANSFER_START (R202): an AUTO entry of the current stretch starts at its planned time. -/
def execAutoTransferStart (r n : Nat) (s : State) : Result :=
  match launchAt s r with
  | none => .next s
  | some (_, x) =>
    match (stepTable s x).xfers[n]? with
    | none => .next s
    | some e =>
      let y := s.rgn r
      if s.flt.safe || !e.auto || e.rel != y.rel || y.started.contains n || e.startAt < y.offset || y.held != none
          || !(x.phase == .running || x.phase == .yielding) then .next s
      else
        .next (issueEntry r n s)

/-- Write rows of bytes into a core's tile store. -/
def putRows (s : State) (c ts stride rowBytes : Nat) : (rows i : Nat) → List Byte → State
  | 0, _, _ => s
  | n + 1, i, bs =>
    if bs.isEmpty then s
    else putRows (putTs s c (ts + i * stride) (bs.take rowBytes)) c ts stride rowBytes n (i + 1) (bs.drop rowBytes)

/-- The bytes of an entry move (R112): memory to tile store, tile store to memory, or tile store to tile store. They cross the bridge
between the die's cores and its fabric (R349). -/
def moveEntry (s : State) (r : Nat) (e : XferRec) (st : Started) : State :=
  let ok := coreRatio s (r / 8)
  if e.dir = 0 then
    let bs := if st.peer.isSome then ((job? s st.job).map (·.data)).getD [] else readPieces s st.mem
    tickCross ok bs.length (putRows s (32 * r + e.core) e.ts e.tsStride e.rowBytes e.rows 0 (crossed ok s bs))
  else
    let bs := crossed ok s (tileSide s r e)
    tickCross ok bs.length (if e.dir = 1 then (if st.peer.isSome then s else writePieces s st.mem bs)
      else putRows s (32 * r + e.dstCore) e.ts2 e.tsStride e.rowBytes e.rows 0 bs)

/-- A started entry moves bytes of the host aperture. -/
def hostEntry (st : Started) : Bool := st.mem.any (fun m => decide (hostBase ≤ m.1))

/-- A host entry that outlasts its charge (R203): the excess is excluded from the watch of R62, and a late LC launch breaches with
DETAIL 0x0005. The charge runs from the entry's start, or from the end of the entry before it in its region. -/
def hostExcess (l : Nat) (e : XferRec) (st : Started) (s : State) : State :=
  match s.launch? l with
  | none => s
  | some x =>
    match s.planOf x.ver with
    | none => s
    | some p =>
      let d := feOf (hostTime p e)
      if hostEntry st && decide (d < s.now - st.stamp) then
        s.setLaunch l { x with excl := x.excl + (s.now - st.stamp - d), breach := if x.breach = 0 then 5 else x.breach }
      else s

/-- Bytes that an entry moved: all of it, or up to the page whose translation failed (R198). -/
def entryBytes (e : XferRec) (st : Started) : Nat :=
  if st.stop.isNone then e.rows * e.rowBytes else (st.mem.map (·.2)).sum

/-- The entry at the head of a stream engine completes (R112, R198, R202). -/
def completeEntry (s : State) (r l : Nat) (e : XferRec) (st : Started) : State :=
  let s1 := dropJob st.job (hostExcess l e st (countRgnBytes r (entryBytes e st) (moveEntry s r e st)))
  let y := s1.rgn r
  let s2 := kickHead r (settleStacks <| settleFrames (s1.setRgn r { y with
    fifo := match y.fifo.drop 1 with
      | [] => []
      | f :: rest => { f with stamp := s.now } :: rest
    done := y.done ++ [st.entry] }))
  match st.stop with
  | some (a, d, va) => launchFault s2 l r va a d 0 st.entry ((st.mem.map (·.2)).sum)
  | none => startWaiting r s2

/-- An entry can complete while its memory and its region's clocks run (R345, R354); a caravan entry once its last line is acknowledged or
delivered (R297). -/
def entryReady (s : State) (r : Nat) (st : Started) : Bool :=
  rgnRuns s r && piecesRun s st.mem && match st.peer with
  | none => true
  | some _ => match job? s st.job with
    | some j => jobDone j
    | none => false

/-- TRANSFER_COMPLETE (R97, R112, R198, R202, R297). -/
def execTransferComplete (r : Nat) (s : State) : Result :=
  match launchAt s r, (s.rgn r).fifo with
  | some (l, x), st :: _ =>
    match (stepTable s x).xfers[st.entry]? with
    | none => .next s
    | some e =>
      if s.flt.safe then .next s
      else if entryReady s r st then .next (completeEntry s r l e st)
      else .next (pumpJob 4096 st.job s)
  | _, _ => .next s

end Sys2Proof.Machine
end

