-- ==== Sys2Proof/Machine/CoreUnp.lean ====
section
/-! DEFINITION. Unplanned accesses and the cluster data cache (R115 to R117, R154 to R170). -/

namespace Sys2Proof.Machine

/-! ### Lines (R154, R158, R161, R163) -/

def cacheWays (x : Cdc) : Nat := field x.cfg 0 5
def lockWays (x : Cdc) : Nat := field x.cfg 8 4
def lineSet (line : Nat) : Nat := line % 256

/-- The way that holds a line, searched over all sixteen. -/
def findWay (x : Cdc) (line : Nat) : Option Nat :=
  (List.range 16).find? (fun w => match mfind x.lines (256 * w + lineSet line) with
    | some y => y.line == line
    | none => false)

def lineAt (x : Cdc) (way line : Nat) : CLine := (mfind x.lines (256 * way + lineSet line)).getD { line := line }
def putLine (x : Cdc) (way : Nat) (y : CLine) : Cdc := { x with lines := mins x.lines (256 * way + lineSet y.line) y }
def dropLine (x : Cdc) (way line : Nat) : Cdc := { x with lines := mdel x.lines (256 * way + lineSet line) }

/-- Next LFSR state (R161). -/
def lfsrNext (v : Nat) : Nat :=
  let b := (v ^^^ (v / 4) ^^^ (v / 8) ^^^ (v / 32)) % 2
  v / 2 + b * 32768

/-- The victim way of a miss, and the LFSR after the choice (R161). -/
def victim (x : Cdc) (line : Nat) : Nat × Nat :=
  let lo := lockWays x
  let n := cacheWays x - lo
  match ((List.range n).map (lo + ·)).find? (fun w => (mfind x.lines (256 * w + lineSet line)).isNone) with
  | some w => (w, x.lfsr)
  | none => (lo + (x.lfsr * n) / 65536, lfsrNext x.lfsr)

/-- The 64 bytes of a line that CDC `k` reads from its home. -/
def readLine (k : Nat) (s : State) (home : Nat) : W512 := BitVec.ofNat 512 (ofLe (crossed (coreRatio s (k / 64)) s (readPhys s home 64)))
/-- The free values that such a read takes (R349). -/
def tickLine (k : Nat) (s : State) : State := tickCross (coreRatio s (k / 64)) 64 s

/-- The access that an entry of the queue is, as R169 counts its refetch: its core, lane group and line. -/
def accOf (k : Nat) (a : UAcc) : Nat × Nat × Nat := (4 * k + (if a.src = 4 then a.user else a.src), a.lg, a.va / 64)

/-- The line image a miss brings in (R163): the eviction buffer's entry, or memory. The entry comes back DIRTY, its write cancelled, or
CLEAN with its write, if that has started, completed. Only the oldest entry's write may have started; whether it has is open (a free
value, log entry 92). -/
def fetchLine (s : State) (k line home : Nat) : CLine × State :=
  let x := s.cdc k
  match x.evict.find? (fun e => e.line == line) with
  | some e =>
    let s1 := s.setCdc k { x with evict := x.evict.filter (fun y => y.line != line) }
    if x.evict.head? == some e then
      (if s.freeVal.getLsbD 0 then ({ e with dirty := false, mask := 0 }, writeBack k s1.tickFree e) else (e, s1.tickFree))
    else (e, s1)
  | none => ({ line := line, data := readLine k s home, home := home }, tickLine k s)

/-- Put a line in a way; a DIRTY line there goes to the eviction buffer. -/
def installLine (x : Cdc) (way : Nat) (y : CLine) : Cdc :=
  let x1 := match mfind x.lines (256 * way + lineSet y.line) with
    | some o => if o.dirty then { x with evict := x.evict ++ [o] } else x
    | none => x
  putLine x1 way y

/-- Whether installing into a way has to wait for the eviction buffer (R163). -/
def evictFull (x : Cdc) (way line : Nat) : Bool :=
  match mfind x.lines (256 * way + lineSet line) with
  | some o => o.dirty && decide (8 ≤ x.evict.length)
  | none => false

def lineRead (y : CLine) (off n : Nat) : Nat := field y.data.toNat (8 * off) (8 * n)
def lineWrite (y : CLine) (off n v : Nat) : CLine :=
  { y with
    dirty := true
    mask := BitVec.ofNat 64 (setField y.mask.toNat off n (2 ^ n - 1))
    data := BitVec.ofNat 512 (setField y.data.toNat (8 * off) (8 * n) v) }

/-! ### Checks and translation of an instruction's lanes (R115 to R117, R164, R170, R197) -/

def unpVa (x : Lg) (w : W128) (lane : Nat) : Nat := vsrc64 x w (wA w) lane
def unpSize (w : W128) : Nat := 2 ^ field (wMod w) 0 2

/-- The lanes that make accesses: the lowest active one in the UNIFORM form (R115). -/
def unpLanes (x : Lg) (w : W128) : List Nat :=
  if bitOf (wMod w) 2 && (wOp w == 0 || wOp w == 2) then (activeLanes x w).take 1 else activeLanes x w

/-- The first error of an instruction's addresses: status and detail. An LC launch's atomic to the host aperture meets R164 before R170 (DESIGN
CHOICE, log entry 117). -/
def unpCheck (lc : Bool) (atomic sized : Bool) (size : Nat) (vas : List Nat) : Option (Nat × Nat) :=
  vas.findSome? (fun va =>
    if sized && va % size ≠ 0 then some (5, 0x0405)
    else if caravanBase ≤ va && va < hostBase then some (5, 0x0406)
    else if hostBase ≤ va && va < 2 ^ 57 && atomic then some (5, 0x0602)
    else if hostBase ≤ va && va < 2 ^ 57 && lc then some (5, 0x0601)
    else none)

/-- Line homes of the addresses, or the first translation that stops. -/
def unpHomes (s : State) (l : Nat) (x : Launch) (write : Bool) : List Nat → Except (Tr × Nat) (List Nat)
  | [] => .ok []
  | va :: r =>
    match s.ctx? x.ctx with
    | none => .error (.bad 3 0x0701, va)
    | some c =>
      match translate s c x.translated (userLaunch l) va write with
      | .ok pa =>
        match unpHomes s l x write r with
        | .ok hs => .ok ((pa - pa % 64) :: hs)
        | .error e => .error e
      | t => .error (t, va)

/-- Memory that an atomic, a WB or an INV uses at once: the homes of the lines it updates, or of those it writes back. Loads, stores and
lock-fills queue what they need. -/
def lineUses (s : State) (k op : Nat) (vas homes : List Nat) : List (Nat × Nat) :=
  let x := s.cdc k
  if op = 2 then homes.map (fun h => (h, 64))
  else if op = 4 || op = 5 then
    (x.evict ++ (x.lines.map (·.2)).filter (·.dirty)).filterMap (fun e => if vas.any (fun va => va / 64 == e.line) then some (e.home, 64) else none)
  else []

/-- The frame of every UNP row: checks, then translations, then the accesses themselves; one that uses memory waits while it does not run
(R345). -/
def unpRow (op : Nat) (atom : Option Nat) (atomic write sized : Bool)
    (act : State → Nat → Lg → List Nat → List Nat → State) (c g : Nat) (w : W128) (s : State) : Result :=
  coreRow 9 op atom (fun s =>
    match coreLaunch s c with
    | none => s
    | some (l, x) =>
      let y := getLg s c g
      let lanes := unpLanes y w
      let vas := lanes.map (unpVa y w)
      if unpPending s c g then s
      else
        match unpCheck (x.lc && !x.asBe) atomic sized (unpSize w) vas with
        | some (st, d) => coreAbort s c st d
        | none =>
          match unpHomes s l x write vas with
          | .error (.wait page, _) => (match s.ctx? x.ctx with
              | some k => noteWait s k (userLaunch l) page
              | none => s)
          | .error (.bad st d, va) => launchFault s l (c / 32) va st d 1 0 0
          | .error (_, va) => launchFault s l (c / 32) va 3 0x0703 1 0 0
          | .ok homes =>
            if piecesRun s (lineUses s (c / 4) op vas homes) then act (setLg s c g (stepPc y)) l y lanes homes else s) c g w s

/-! ### Loads, stores and misses (R158, R159, R162) -/

/-- Start the next queued miss, the four cores and the sampler in rotation, when none is outstanding (R162). -/
def startMiss (x : Cdc) : Cdc :=
  match x.miss with
  | some _ => x
  | none =>
    match ((List.range 5).map (fun k => (x.rot + 1 + k) % 5)).findSome? (fun src => x.queue.find? (fun a => a.src == src)) with
    | none => x
    | some a => { x with miss := some (a.va / 64, a.home), rot := a.src }

/-- Give what an access read to its lanes, or to the texel reads its lane group waits for. The bits of a 32-bit register above a 1- or
2-byte value are 0 (DESIGN CHOICE, log entry 88). -/
def giveAcc (k : Nat) (a : UAcc) (v : Nat) (s : State) : State :=
  let c := 4 * k + (if a.src = 4 then a.user else a.src)
  match mfind (s.core c).lgs a.lg with
  | none => s
  | some y =>
    if a.kind = 3 then setLg s c a.lg { y with smp := y.smp.map (fun l => l.set a.dst (some v)) }
    else setLg s c a.lg (a.lanes.foldl (fun z lane => if a.size = 8 then lgSetV64 z a.dst lane v else lgSetV z a.dst lane v) y)

/-- Serve one access on a present line: loaded data goes to who asked, store data into the line. The bits of a 32-bit register above a 1- or
2-byte value are 0 (DESIGN CHOICE, log entry 88). -/
def serveAcc (s : State) (k : Nat) (a : UAcc) : State :=
  let x := s.cdc k
  match findWay x (a.va / 64) with
  | none => s
  | some way =>
    let y := lineAt x way (a.va / 64)
    let x1 : Cdc := { x with refetch := x.refetch.erase (accOf k a) }
    if a.kind = 1 then s.setCdc k (putLine x1 way (lineWrite y (a.va % 64) a.size a.data.toNat))
    else if a.kind = 2 then s.setCdc k x1
    else giveAcc k a (lineRead y (a.va % 64) a.size) (s.setCdc k x1)

/-- Serve an access whose translation a context walk has overtaken: at its own home, leaving no line behind (R168, R187). -/
def serveOld (k : Nat) (a : UAcc) (s : State) : State :=
  let at' := a.home + a.va % 64
  if a.kind = 1 then writePhys s at' (leBytes a.size a.data.toNat)
  else if a.kind = 2 then s
  else giveAcc k a (ofLe (readPhys s at' a.size)) s

/-- A lookup that misses in the ways snoops the eviction buffer: the line goes back into the way that R161 picks (R163). -/
def snoop (k line : Nat) (s : State) : State :=
  let x := s.cdc k
  match findWay x line, x.evict.find? (fun e => e.line == line) with
  | none, some e =>
    let v := victim x line
    let r := fetchLine s k line e.home
    r.2.setCdc k (installLine { r.2.cdc k with lfsr := v.2 } v.1 r.1)
  | _, _ => s

/-- Make one access: serve a hit, queue a miss (R158, R159). A line that comes back from the eviction buffer counts as a miss (R163). -/
def makeAcc (k : Nat) (a : UAcc) (s : State) : State :=
  let x := s.cdc k
  if (findWay x (a.va / 64)).isSome && a.kind != 2 then serveAcc s k a
  else
    let s1 := snoop k (a.va / 64) s
    s1.setCdc k (startMiss { s1.cdc k with queue := (s1.cdc k).queue ++ [a] })

/-- UNP.LD (R115, R159). -/
def execUnpLd (c g : Nat) (w : W128) (s : State) : Result :=
  unpRow 0 none false false true (fun s _ y lanes homes =>
    let uni := bitOf (wMod w) 2
    foldState (lanes.zip homes) (fun p a =>
      makeAcc (c / 4) ⟨c % 4, g, 0, unpVa y w p.1, p.2, unpSize w, if uni then activeLanes y w else [p.1], wDst w, 0, 0, 0, false⟩ a) s) c g w s

/-- UNP.ST (R115, R158): lanes in ascending order. -/
def execUnpSt (c g : Nat) (w : W128) (s : State) : Result :=
  unpRow 1 none false true true (fun s _ y lanes homes =>
    let data := fun lane => if unpSize w = 8 then vsrc64 y w (wB w) lane else vsrc y w (wB w) lane
    foldState (lanes.zip homes) (fun p a =>
      makeAcc (c / 4) ⟨c % 4, g, 1, unpVa y w p.1, p.2, unpSize w, [p.1], 0, BitVec.ofNat 64 (data p.1), 0, 0, false⟩ a) s) c g w s

/-- UNP.LFILL (R165): each distinct line goes into the named locked way; a line present in an unlocked way moves there. -/
def execUnpLfill (c g : Nat) (w : W128) (s : State) : Result :=
  unpRow 3 none false false false (fun s _ y lanes homes =>
    let way := field (wImm w) 0 4
    foldState (lanes.zip homes) (fun p a =>
      makeAcc (c / 4) ⟨c % 4, g, 2, unpVa y w p.1 - unpVa y w p.1 % 64, p.2, 64, [], 0, 0, way, 0, false⟩ a) s) c g w s

/-- A line leaves the way it is in, keeping its state, if it is not the wanted way. -/
def takeLine (x : Cdc) (line : Nat) : Option (CLine × Cdc) :=
  (findWay x line).map (fun w => (lineAt x w line, dropLine x w line))

/-- A lock-fill's line enters its way; what the way held is written back first (R165). -/
def lockFill (s : State) (k : Nat) (way line home : Nat) : State :=
  let (y, s1) := match takeLine (s.cdc k) line with
    | some r => (r.1, s.setCdc k r.2)
    | none => fetchLine s k line home
  match mfind (s1.cdc k).lines (256 * way + lineSet line) with
  | some o => (writeBack k s1 o).setCdc k (putLine (s1.cdc k) way y)
  | none => s1.setCdc k (putLine (s1.cdc k) way y)

/-- CDC_MISS_COMPLETE (R158, R161 to R163, R168, R187): the outstanding fill completes, every access that joined it is served in order,
and the next queued miss starts. With a DIRTY victim and a full eviction buffer it waits, and while the memory or the region's clocks do not
run (R345, R354). Of two lock-fills of one line in different ways, the first queued places it (DESIGN CHOICE, log entry 118). -/
def execCdcMissComplete (k : Nat) (s : State) : Result :=
  let x := s.cdc k
  match x.miss with
  | none => .next s
  | some (line, home) =>
    let joins := fun (a : UAcc) => a.va / 64 == line && a.home == home
    let mine := x.queue.filter joins
    let rest := x.queue.filter (fun a => !joins a)
    let fills := mine.filter (fun a => a.kind == 2)
    if !piecesRun s [(home, 64)] || !rgnRuns s (k / 8) then .next s
    else if mine.all (·.old) then
      let s1 := foldState mine (fun a b => serveOld k a b) (s.setCdc k { x with queue := rest, miss := none })
      .next (settleStacks (settleFrames (s1.setCdc k (startMiss (s1.cdc k)))))
    else match fills with
    | f :: _ =>
      let s1 := lockFill (s.setCdc k { x with queue := rest, miss := none }) k f.way line home
      let s2 := foldState mine (fun a b => serveAcc b k a) s1
      .next (settleStacks (settleFrames (s2.setCdc k (startMiss (s2.cdc k)))))
    | [] =>
      let v := victim x line
      if (findWay x line).isNone && evictFull x v.1 line then .next s
      else
        let x0 : Cdc := { x with queue := rest, miss := none }
        let s1 := if (findWay x line).isSome then s.setCdc k x0
          else
            let (y, t) := fetchLine (s.setCdc k x0) k line home
            t.setCdc k (installLine { t.cdc k with lfsr := v.2 } v.1 y)
        let s2 := foldState mine (fun a b => serveAcc b k a) s1
        .next (settleStacks (settleFrames (s2.setCdc k (startMiss (s2.cdc k)))))

/-- EVICTION_WRITE_COMPLETE (R163): the oldest entry's write-back completes, once the memory and the region's clocks run (R345, R354). -/
def execEvictionWriteComplete (k : Nat) (s : State) : Result :=
  let x := s.cdc k
  match x.evict with
  | [] => .next s
  | e :: r => .next (if piecesRun s [(e.home, 64)] && rgnRuns s (k / 8) then (writeBack k s e).setCdc k { x with evict := r } else s)

/-! ### Maintenance (R166, R167) -/

/-- Write back a named line and leave it CLEAN; an entry of the eviction buffer is written and leaves it. -/
def cleanLine (k line : Nat) (s : State) : State :=
  let x := s.cdc k
  let s1 := foldState (x.evict.filter (fun e => e.line == line)) (fun e a => writeBack k a e) s
  let x1 : Cdc := { x with evict := x.evict.filter (fun e => e.line != line) }
  match findWay x line with
  | none => s1.setCdc k x1
  | some w =>
    let y := lineAt x w line
    (writeBack k s1 y).setCdc k (putLine x1 w { y with dirty := false, mask := 0 })

/-- Write back a named line, then invalidate it in every way and in the eviction buffer. -/
def invLine (k line : Nat) (s : State) : State :=
  let s1 := cleanLine k line s
  let x := s1.cdc k
  match findWay x line with
  | none => s1
  | some w => s1.setCdc k (dropLine x w line)

/-- UNP.WB (R167). -/
def execUnpWb (c g : Nat) (w : W128) (s : State) : Result :=
  unpRow 4 none false false false (fun s _ y lanes _ =>
    foldState lanes (fun lane a => cleanLine (c / 4) (unpVa y w lane / 64) a) s) c g w s

/-- UNP.INV (R166, R167). -/
def execUnpInv (c g : Nat) (w : W128) (s : State) : Result :=
  unpRow 5 none false false false (fun s _ y lanes _ =>
    foldState lanes (fun lane a => invLine (c / 4) (unpVa y w lane / 64) a) s) c g w s

/-! ### Atomics (R116, R117, R164) -/

/-- One lane's locked read-modify-write at the line's home: the CDC's own copy is written back and invalidated first. -/
def atomLane (f : Nat → Nat → Nat → Nat) (fl : Nat → Nat → AFlags) (c g : Nat) (w : W128) (y : Lg) (lane home : Nat) (outs : List Nat)
    (s : State) : State :=
  let va := unpVa y w lane
  let n := unpSize w
  let s1 := invLine (c / 4) (va / 64) s
  let old := ofLe (readPhys s1 (home + va % 64) n)
  let b := if n = 8 then vsrc64 y w (wB w) lane else vsrc y w (wB w) lane
  let d := if n = 8 then vsrc64 y w (wC w) lane else vsrc y w (wC w) lane
  let s2 := writePhys s1 (home + va % 64) (leBytes n (f old b d))
  let z := outs.foldl (fun z k => if n = 8 then lgSetV64 z (wDst w) k old else lgSetV z (wDst w) k old) (getLg s2 c g)
  coreFlags (setLg s2 c g z) c (fl old b)

/-- An atomic row: lanes in ascending order, each receiving the value before its own update (R117). -/
def atomRow (code : Nat) (f : Nat → Nat → Nat → Nat → Nat) (fl : Nat → Nat → AFlags) (c g : Nat) (w : W128) (s : State) : Result :=
  unpRow 2 (some code) true true true (fun s _ y lanes homes =>
    let bits := 8 * unpSize w
    foldState (lanes.zip homes) (fun p a =>
      atomLane (f bits) fl c g w y p.1 p.2 (if bitOf (wMod w) 2 then activeLanes y w else [p.1]) a) s) c g w s

def noFl : Nat → Nat → AFlags := fun _ _ => 0

def execUnpAtomAdd (c g : Nat) (w : W128) (s : State) : Result := atomRow 0 (fun _ o b _ => o + b) noFl c g w s
/-- FP32 atomic add, rounded to nearest-even (R116). -/
def execUnpAtomFadd (c g : Nat) (w : W128) (s : State) : Result :=
  atomRow 1 (fun _ o b _ => fadd o b) (fun o b => (fp32Op2 fvAdd o b).2) c g w s
def execUnpAtomSmin (c g : Nat) (w : W128) (s : State) : Result :=
  atomRow 2 (fun n o b _ => if signed n b < signed n o then b else o) noFl c g w s
def execUnpAtomSmax (c g : Nat) (w : W128) (s : State) : Result :=
  atomRow 3 (fun n o b _ => if signed n o < signed n b then b else o) noFl c g w s
def execUnpAtomUmin (c g : Nat) (w : W128) (s : State) : Result := atomRow 4 (fun _ o b _ => min o b) noFl c g w s
def execUnpAtomUmax (c g : Nat) (w : W128) (s : State) : Result := atomRow 5 (fun _ o b _ => max o b) noFl c g w s
def execUnpAtomAnd (c g : Nat) (w : W128) (s : State) : Result := atomRow 6 (fun _ o b _ => o &&& b) noFl c g w s
def execUnpAtomOr (c g : Nat) (w : W128) (s : State) : Result := atomRow 7 (fun _ o b _ => o ||| b) noFl c g w s
def execUnpAtomXor (c g : Nat) (w : W128) (s : State) : Result := atomRow 8 (fun _ o b _ => o ^^^ b) noFl c g w s
def execUnpAtomExch (c g : Nat) (w : W128) (s : State) : Result := atomRow 9 (fun _ _ b _ => b) noFl c g w s
def execUnpAtomCas (c g : Nat) (w : W128) (s : State) : Result :=
  atomRow 10 (fun _ o b d => if o = d then b else o) noFl c g w s

end Sys2Proof.Machine
end

