-- ==== Sys2Proof/Machine/Run.lean ====
section
/-! DEFINITION. Running work (R22, R23, R95, R96, R118, R119, R156, R161, R245 to R264): placement, steps, slip points,
displacement, restore, the residency set, regions leaving and joining. -/

namespace Sys2Proof.Machine

/-! ### Groups (R55) -/

def groupsReg (s : State) : Nat := (mget s.regs 0x0101#32 0x010404).toNat ||| 1

/-- First region of the group that holds a region. -/
def groupOf (s : State) : Nat → Nat
  | 0 => 0
  | n + 1 => if bitOf (groupsReg s) (n + 1) then n + 1 else groupOf s n

def groupRegions (s : State) (g : Nat) : List Nat := (List.range 16).filter (fun r => groupOf s r == g)
def groups (s : State) : List Nat := (List.range 16).filter (fun r => groupOf s r == r)

/-- The group admits no LC launch until it is set up again (R61). -/
def loseGroup (g : Nat) (s : State) : State :=
  if s.fe.lostGroups.contains g then s else { s with fe := { s.fe with lostGroups := s.fe.lostGroups ++ [g] } }

/-! ### The residency set (R258, R260) -/

/-- The models of a launch's plan. -/
def modelsOf (s : State) (x : Launch) : List ModelRec := ((s.planOf x.ver).map (·.models)).getD []

def resFind (s : State) (ctx : Nat) (m : ModelRec) (rs : List Nat) : Option ResEntry :=
  s.fe.residency.find? (fun e => e.ctx == ctx && e.model == m.id && e.regions == rs)

/-- A launch holds regions. -/
def onRegions (x : Launch) : Bool :=
  x.phase == .loading || x.phase == .peerWait || x.phase == .running || x.phase == .yielding || x.phase == .restoring

/-- An entry used by a launch on its regions. -/
def entryBusy (s : State) (e : ResEntry) : Bool :=
  s.fe.launches.any (fun p => onRegions p.2
    && p.2.ctx == e.ctx && p.2.regions == e.regions && (modelsOf s p.2).any (fun m => m.id == e.model))

def overlapsEntry (m : ModelRec) (rs : List Nat) (e : ResEntry) : Bool :=
  e.regions.any (fun r => rs.contains r) && overlaps e.base e.bytes m.base m.bytes

/-- Make room for one model and enter it, not yet loaded; `none` when no room can be made. `l` is the launch it is for, and `ids` are all
its models: none of them is evicted for another (R58). At an LC admission (`pin`) the entry is only created and pinned: what a running
launch still uses there is evicted at the load (R260). -/
def enterModel (s : State) (l ctx : Nat) (rs : List Nat) (pin : Bool) (ids : List Nat) (m : ModelRec) : Option State :=
  let tick := s.fe.resTick + 1
  let touch := fun (e : ResEntry) => { e with used := tick, pins := if pin && !e.pins.contains l then e.pins ++ [l] else e.pins }
  let pinned := fun (e : ResEntry) => !e.pins.isEmpty || (e.ctx == ctx && e.regions == rs && ids.contains e.model)
  let busy := fun (e : ResEntry) => pinned e || entryBusy s e
  let other := fun (e : ResEntry) => overlapsEntry m rs e && !(e.ctx == ctx && e.model == m.id && e.regions == rs)
  match resFind s ctx m rs with
  | some e =>
    let use := fun (t : State) => { t with fe := { t.fe with
      resTick := tick, residency := t.fe.residency.map (fun y => if y = e then touch y else y) } }
    if e.loaded || pin then some (use s)
    else if s.fe.residency.any (fun y => other y && busy y) then none
    else some (use (evictModels other s))
  | none =>
    if s.fe.residency.any (fun e => other e && (if pin then pinned e else busy e)) then none
    else
      let s1 := evictModels (fun e => other e && !busy e) s
      let new : ResEntry := touch ⟨ctx, m.id, rs, m.base, m.bytes, [], false, tick⟩
      let add := fun (t : State) => { t with fe := { t.fe with resTick := tick, residency := t.fe.residency ++ [new] } }
      if s1.fe.residency.length < 16 then some (add s1)
      else
        let old := s1.fe.residency.foldl (fun (b : Option ResEntry) e =>
          if busy e then b else
            match b with
            | none => some e
            | some y => if e.used < y.used then some e else some y) none
        match old with
        | none => none
        | some y => some (add (evictModels (· == y) s1))

/-- Enter every model of a launch. -/
def enterModels (s : State) (l ctx : Nat) (rs : List Nat) (pin : Bool) (ms : List ModelRec) : Option State :=
  ms.foldl (fun a m => a.bind (fun t => enterModel t l ctx rs pin (ms.map (·.id)) m)) (some s)

def modelsLoaded (s : State) (x : Launch) : Bool :=
  (modelsOf s x).all (fun m => match resFind s x.ctx m x.regions with
    | some e => e.loaded
    | none => false)

/-! ### Clears and the start of a step (R23, R95, R96, R156, R161) -/

/-- The clear of R23 below the residency area. The CDCs keep no access of an earlier launch (R154), nor their scratch (R156). -/
def clearRegion (r : Nat) (s : State) : State :=
  let u := usableTop s
  let s1 := rgnFlush r s
  let s2 := foldState (coresOf r) (fun c a =>
    let x := a.core c
    a.setCore c { x with ts := x.ts.filter (fun e => decide (u ≤ e.1)), acc := [], mode := [.none, .none, .none, .none] }) s1
  let s2 := foldState (cdcsOf r) (fun k a => a.setCdc k { a.cdc k with scratch := [] }) (foldState (cdcsOf r) cdcDrop s2)
  s2.setRgn r { s2.rgn r with sems := [], clear := true }

/-- Cluster configuration at a step start, a slip point or a restore: the step's word applied, scratch zeroed, LFSR seeded (R155, R156,
R161). -/
def seedCdc (p : Plan) (rel step k : Nat) (s : State) : State :=
  let v := ((p.seed.toNat % 65536) ^^^ (rel * 8 + k % 8) ^^^ (step % 65536)) % 65536
  s.setCdc k { s.cdc k with
    scratch := [], lfsr := if v = 0 then 1 else v, cfg := ((p.dirs.getD (stepOf p step).xfer {}).cdcCfg).getD 0x10 }

/-- Lane groups of a core at word `pc`, with s0 to s3 as R96 gives. -/
def freshLgs (n pc s1 rel core : Nat) : Map Lg :=
  (List.range n).map (fun g =>
    let x : Lg := { pc := pc }
    (g, lgSetS (lgSetS (lgSetS (lgSetS x 0 g) 1 s1) 2 rel) 3 core))

/-- The program record of a core of relative region `rel` in a step. -/
def stepProg (p : Plan) (step rel core : Nat) : Prog := (p.code.getD (stepOf p step).code []).getD (32 * rel + core) {}

/-- The resume word of slip `j` in a program: that of its SLIP (R118). A launch's state at a slip point does not hold it (R119), so it is
read from the program: the first SLIP that names `j` (DEDUCED, log entry 52). -/
def slipResume (g : Prog) (j : Nat) : Nat :=
  ((g.words.find? (fun w => rowWord 0 3 none w && field (wImm w) 0 32 == j)).map (fun w => field (wImm w) 32 32)).getD 0

/-- Set a core's state as the Start column of R96 gives: its lane groups at word 0, or at the resume word of the slip `j` they passed. -/
def startCore (p : Plan) (step rel : Nat) (slip : Option Nat) (c : Nat) (s : State) : State :=
  let pr := stepProg p step rel (c % 32)
  let x := s.core c
  let start := match slip with
    | none => (0, 0)
    | some j => (slipResume pr j, j + 1)
  s.setCore c { x with
    lgs := freshLgs pr.lgs start.1 start.2 rel (c % 32), acc := [], mode := [.none, .none, .none, .none], matQ := [], woQ := [] }

/-- Passes of a GRAPHICS step: those whose tiles it shades, and those whose geometry it runs (R124). -/
def shadePasses (p : Plan) (step : Nat) : List Nat :=
  (List.range p.passes.length).filter (fun i => (p.passes.getD i {}).step == step)
def geoPasses (p : Plan) (step : Nat) : List Nat :=
  (List.range p.passes.length).filter (fun i =>
    let q := p.passes.getD i {}
    if q.binned then q.submitMax != 0 && q.step == step + 1 else q.step == step)

/-- A region's part of a step start. -/
def startRegion (p : Plan) (step rel r : Nat) (s : State) : State :=
  let s1 := foldState (cdcsOf r) (fun k a => seedCdc p rel step k a) s
  let s2 := foldState (coresOf r) (fun c a => startCore p step rel none c a) s1
  let s3 := foldState (coresOf r) (fun c a =>
    a.setCore c { a.core c with gfx := { passes := if (stepOf p step).graphics then shadePasses p step else [] } }) s2
  let x := s3.rgn r
  s3.setRgn r { x with
    base := x.cycles, offset := 0, started := [], done := [], after := [], held := none, passed := 0,
    geo := { passes := if (stepOf p step).graphics then geoPasses p step else [] } }

/-- Begin the launch's current step on all its regions; a CROSS_MODULE step first waits for its peers (R303). -/
def beginStep (l : Nat) (s : State) : State :=
  match s.launch? l with
  | none => s
  | some x =>
    match s.planOf x.ver with
    | none => s
    | some p =>
      let s1 := foldState x.regions.zipIdx (fun e a => startRegion p x.step e.2 e.1 a) s
      let ph : Phase := if (stepOf p x.step).cross then .peerWait else .running
      s1.setLaunch l { x with phase := ph, started := max x.started (x.step + 1), stepStamp := s.now,
                               excused := !s.pwr.emergencies.isEmpty, excl := 0 }

/-- Give regions to a launch: assigned, and cleared when they last served another context, or for a restore when they do not arrive
clear (R23, R253). -/
def takeRegions (l ctx : Nat) (restore : Bool) (rs : List Nat) (s : State) : State :=
  foldState rs.zipIdx (fun e a =>
    let x := a.rgn e.1
    let a1 := if x.lastCtx == some ctx && x.clear == false && !restore then a else clearRegion e.1 a
    a1.setRgn e.1 { a1.rgn e.1 with launch := some l, rel := e.2, lastCtx := some ctx, clear := false, held := none, napping := false }) s

/-- A version that an admitted, running or displaced launch holds (R241, R257): a BE launch that has not started holds none. -/
def verHeld (s : State) (v : Nat) : Bool :=
  s.fe.launches.any (fun p => p.2.ver == v && (p.2.lc || p.2.phase != .waiting) && p.2.phase != .ended)

/-- The resident versions, the last used first, once `v` is used: in its slot, in a free one of the 48, or in that of the least recently
used version that no launch holds; `none` when every slot is held (R241). -/
def residentWith (s : State) (v : Nat) : Option (List Nat) :=
  let rest := s.fe.resident.filter (· != v)
  if s.fe.resident.contains v || rest.length < 48 then some (v :: rest)
  else (rest.reverse.find? (fun w => !verHeld s w)).map (fun w => v :: rest.filter (· != w))

/-- Use a version (R241): it becomes the last used, and resident if it was not. -/
def useVer (v : Nat) (s : State) : Option State := (residentWith s v).map (fun l => { s with fe := { s.fe with resident := l } })

/-- Start or resume a launch on regions: models first, then step 0 or the restore (R253, R260). `none` when a model finds no room. -/
def placeLaunch (s : State) (l : Nat) (rs : List Nat) : Option State :=
  match s.launch? l with
  | none => none
  | some x =>
    match enterModels s l x.ctx rs false (modelsOf s x) with
    | none => none
    | some s1 =>
      let x1 : Launch := { x with regions := rs, sliceOver := false }
      let s2 := takeRegions l x.ctx (x.phase == .displaced) rs (s1.setLaunch l x1)
      if modelsLoaded s2 x1 then some (if x.phase = .displaced then s2.setLaunch l { x1 with phase := .restoring } else beginStep l s2)
      else some (s2.setLaunch l { x1 with phase := .loading })

/-! ### Turn and displacement (R55, R246 to R252) -/

def waits (x : Launch) : Bool := x.phase == .waiting || x.phase == .displaced

/-- A launch that has not begun to run on its regions leaves them at once, with nothing to save. -/
def unplace (l : Nat) (x : Launch) (s : State) : State :=
  let s1 := foldState (heldRegions s l x) (freeRegion x.ctx) s
  settleDraining (s1.setLaunch l { x with phase := if x.started = 0 then .waiting else .displaced })

/-- Ask a launch to yield at its next pre-emption point (R252, step 1). One that waits for its peers stands at a step boundary. -/
def askYield (l : Nat) (s : State) : State :=
  match s.launch? l with
  | none => s
  | some x =>
    match x.phase with
    | .running => s.setLaunch l { x with phase := .yielding }
    | .peerWait =>
      foldState (heldRegions s l x) (fun r a => a.setRgn r { a.rgn r with held := some 0 })
        (s.setLaunch l { x with phase := .yielding, point := .boundary })
    | .loading => unplace l x s
    | .restoring => unplace l x s
    | _ => s

/-- The admitted LC launch of a group whose turn it is: earliest deadline, then release order. -/
def edfHead (s : State) (g : Nat) : Option (Nat × Launch) :=
  s.fe.launches.foldl (fun b p =>
    if isAdmitted p.2 && p.2.group == g then
      match b with
      | none => some p
      | some y => if p.2.deadline < y.2.deadline then some p else some y
    else b) none

def regionsFree (s : State) (rs : List Nat) : Bool := rs.all (fun r => (s.rgn r).launch == none)

/-- Regions that an admitted LC launch waits for in its turn (R246). -/
def lcClaimed (s : State) : List Nat :=
  (groups s).flatMap (fun g => match edfHead s g with
    | some (_, x) => if waits x then x.regions else []
    | none => [])

/-- What stands in the way of a group's turn: launches on the regions of its head, and, since admitted LC launches of a group run one at a
time, any other that runs (R55, R250). -/
def inTheWay (s : State) (g l : Nat) (x : Launch) : List Nat :=
  (x.regions.filterMap (fun k => (s.rgn k).launch) ++ mkeys s.fe.launches (fun k y => k != l && isAdmitted y && y.group == g && onRegions y)).eraseDups

/-- LC_START (R55, R245, R250, R260). -/
def execLcStart (r : Nat) (s : State) : Result :=
  match edfHead s (groupOf s r) with
  | none => .next s
  | some (l, x) =>
    if s.flt.safe || !waits x then .next s
    else
      let ls := inTheWay s (groupOf s r) l x
      if ls.isEmpty then .next ((placeLaunch s l x.regions).getD s) else .next (foldState ls askYield s)

/-- Slip records of a step. -/
def stepSlips (p : Plan) (i : Nat) : List SlipRec := (p.slips.drop (stepOf p i).slipFirst).take (stepOf p i).slipCount

/-- Slip records of a step that a SLIP instruction executes: one at OFFSET equal to WCET is the step boundary (R251). -/
def innerSlips (p : Plan) (i : Nat) : List SlipRec := (stepSlips p i).filter (fun x => decide (x.offset < (stepOf p i).wcet))

def listMax (l : List Nat) : Nat := l.foldl max 0
/-- stretch_max of R56 for a class, in FE cycles. -/
def stretchMax (p : Plan) (be : Bool) : Nat := feOf (if be then p.stretchBe else p.stretchLc)
/-- Largest LIVE_BYTES of a plan: its slip records and its graphics points (R43, R152). -/
def liveMax (p : Plan) : Nat := max (listMax (p.slips.map (·.live))) p.gfxLive
def saveCost (b : Nat) : Nat := ceilDiv b 512 + 1600

/-- Lmax of R256: a BE launch with GRAPHICS steps may also save a tile slot per core (R152). -/
def lmax (p : Plan) (be : Bool) : Nat :=
  liveMax p + (if be && p.steps.any (·.graphics) then 32 * listMax (p.passes.map slotBytes) else 0)

def beTerm (p : Plan) : Nat := stretchMax p true + saveCost (lmax p true)

/-! ### Placement of argument slots (R204) -/

def slotCode (p : Plan) (k : Nat) : Nat := p.place.getD k 0

/-- The object of a context that holds a local page. -/
def objOfPage (s : State) (ctx page : Nat) : Option (Nat × Obj) :=
  (s.fe.objs.find? (fun e => e.1 / 2 ^ 23 == ctx && decide (e.1 % 2 ^ 23 ≤ page) && decide (page < e.1 % 2 ^ 23 + e.2.count))).map
    (fun e => (e.1 % 2 ^ 23, e.2))

/-- Relative regions whose entries name a slot. -/
def slotRels (p : Plan) (k : Nat) : List Nat :=
  (p.dirs.flatMap (·.xfers)).filterMap (fun e => if e.dir != 2 && e.slot == k then some e.rel else none)

/-- Slots that a plan names. -/
def planSlots (p : Plan) : List Nat :=
  (p.dirs.flatMap (fun d => (d.xfers.filter (fun e => e.dir != 2)).map (·.slot)))
    ++ p.passes.flatMap (fun x => (if x.submitMax = 0 then [] else [x.argDraws, x.argBins, x.argPrims])
      ++ x.attach.flatMap (fun a => a.argSurface :: (if a.storeOp = 1 then [a.argResolve] else [])) ++ x.samplers.map (·.argTex))
    ++ p.models.map (·.slot) ++ p.peers.map (·.slot) ++ p.waits.map (·.slot)

/-- Whether an argument address meets its placement code on given regions (R204). -/
def slotMeets (s : State) (ctx : Nat) (p : Plan) (rs : List Nat) (k va : Nat) : Bool :=
  let obj := if va < localEnd then objOfPage s ctx (va / 65536) else none
  let die := fun want => match obj with
    | some (_, o) => o.place != 2 && (slotRels p k).all (fun rel => want (rs.getD rel 0 / 8) == o.place)
    | none => false
  match slotCode p k with
  | 0 => true
  | 1 => die (fun d => d)
  | 2 => die (fun d => 1 - d)
  | 3 => (match obj with
    | some (_, o) => o.place == 2
    | none => false)
  | 4 => decide (hostBase ≤ va) && decide (va < 2 ^ 57)
  | 5 => decide (caravanBase ≤ va) && decide (va < hostBase)
  | _ => false

/-- Every argument that the plan names meets its code. -/
def slotsMeet (s : State) (x : Launch) (p : Plan) (rs : List Nat) : Bool :=
  p.place.isEmpty || x.args.zipIdx.all (fun e => !(planSlots p).contains e.2 || slotMeets s x.ctx p rs e.2 e.1)

/-! ### Best-effort placement (R246 to R248) -/

def shapes (n : Nat) : List (List Nat) := (List.range (16 / n)).map (fun k => (List.range n).map (n * k + ·))

/-- What a shape needs beside being free (R246). -/
def shapeFits (s : State) (x : Launch) (p : Plan) (rs : List Nat) : Bool :=
  rs.all (fun r => (s.rgn r).st == .inService && !(s.rgn r).napping && !(lcClaimed s).contains r && !x.barred.contains r)
    && slotsMeet s x p rs && !(p.singleDie && decide (16 ≤ p.regionCount))
    && (groups s).all (fun g => match mfind s.fe.beBound g with
      | some b => !(rs.any (fun r => groupOf s r == g)) || decide (beTerm p ≤ b)
      | none => true)

/-- The order of the BE list (R247): PRIORITY, highest first, then release. -/
def beBefore (a b : Nat × Launch) : Bool :=
  decide (a.2.prio > b.2.prio) || (a.2.prio == b.2.prio && (decide (a.2.release < b.2.release) || (a.2.release == b.2.release && decide (a.1 ≤ b.1))))

def insertBe (x : Nat × Launch) : List (Nat × Launch) → List (Nat × Launch)
  | [] => [x]
  | y :: r => if beBefore x y then x :: y :: r else y :: insertBe x r

def beList (s : State) : List (Nat × Launch) :=
  (s.fe.launches.filter (fun p => isBeRun p.2 && waits p.2)).foldr insertBe []

/-- Take a BE launch's reservation when it first starts (R256). -/
def takeBeUnits (s : State) (l : Nat) (x : Launch) (p : Plan) : Option State :=
  if x.units ≠ 0 || x.lcUnits then some s
  else
    let n := p.regionCount * ceilDiv (lmax p true) 65536
    if n ≤ s.fe.beFree.sum then
      let r := takeUnits n x.unitsAt s.fe.beFree
      some ((setUnits false r.2 s).setLaunch l { x with units := n, unitsAt := r.1 })
    else none

/-- Start or resume one BE launch if a shape qualifies; its version, which a waiting launch does not hold, is resident again (R241). -/
def tryBe (l : Nat) (s : State) : State :=
  match s.launch? l with
  | none => s
  | some x =>
    match s.planOf x.ver with
    | none => s
    | some p =>
      match (shapes p.regionCount).find? (fun rs => shapeFits s x p rs && regionsFree s rs) with
      | none => s
      | some rs =>
        match takeBeUnits s l x p with
        | none => s
        | some s1 => ((useVer x.ver s1).bind (fun a => placeLaunch a l rs)).getD s

/-- SLICE of FE_BE_SLICE (R248, R265). -/
def beSlice (s : State) : Nat := (mget s.regs 15625#32 0x010600).toNat % 2 ^ 24

/-- Whether a waiting launch may displace what runs on a region (R248): with SLICE 0, equal PRIORITY never does. -/
def beYields (s : State) (w : Launch) (r : Nat) : Bool :=
  match launchAt s r with
  | none => true
  | some (_, y) => isBeRun y && (decide (y.prio < w.prio) || (y.prio == w.prio && y.sliceOver && beSlice s != 0))

/-- R248: on the lowest-numbered shape that `w` could use once that work has left, BE work that must yield is asked to. -/
def tryDisplace (l : Nat) (s : State) : State :=
  match s.launch? l with
  | none => s
  | some w =>
    match s.planOf w.ver with
    | none => s
    | some p =>
      match (shapes p.regionCount).find? (fun rs => shapeFits s w p rs && rs.all (fun r => match launchAt s r with
        | some (_, y) => isBeRun y
        | none => true)) with
      | none => s
      | some rs => if rs.all (beYields s w) then foldState (rs.filterMap (fun r => (s.rgn r).launch)) askYield s else s

/-- BE_START (R247, R248): the list is walked in order; a launch that cannot start does not hold back a later one. -/
def execBeStart (s : State) : Result :=
  if s.flt.safe then .next s
  else
    let s1 := foldState (beList s) (fun p a => tryBe p.1 a) s
    .next (foldState (beList s1) (fun p a => tryDisplace p.1 a) s1)

/-- BE_SLICE_EXPIRY (R248): with SLICE 0, equal PRIORITY never displaces. -/
def execBeSliceExpiry (l : Nat) (s : State) : Result :=
  match s.launch? l with
  | none => .next s
  | some x =>
    if s.flt.safe || beSlice s = 0 || !isBeRun x || x.phase != .running then .next s
    else
      let s1 := s.setLaunch l { x with sliceOver := true }
      .next (foldState (beList s1) (fun p a => tryDisplace p.1 a) s1)

end Sys2Proof.Machine
end

