-- ==== Sys2Proof/Machine/Displace.lean ====
section
/-! DEFINITION. Slip points, saves and restores, step ends, model loads, and regions leaving and joining (R22, R62, R96, R118, R119,
R160, R251 to R263, R303, R356). -/

namespace Sys2Proof.Machine

/-! ### Slip points (R118, R252) -/

/-- Every access, transfer and queued operation of the region has completed (R97, R118). -/
def regionQuiet (s : State) (r : Nat) : Bool :=
  (s.rgn r).fifo.isEmpty && (s.rgn r).after.isEmpty && (cdcsOf r).all (fun k => (s.cdc k).queue.isEmpty)
    && (coresOf r).all (fun c => (s.core c).matQ.isEmpty && (s.core c).woQ.isEmpty)

def slipOf (y : Lg) : Option Nat :=
  match y.st with
  | .atSlip j _ => some j
  | _ => none

/-- A region whose cores run nothing in the step: every lane group of it is at every point. -/
def regionIdle (s : State) (r : Nat) : Bool := (coresOf r).all (fun c => (s.core c).lgs.isEmpty)

/-- The slip that every lane group of a region stands at or has ended before: its index. A region without lane groups is at its next
one. -/
def regionSlip (s : State) (r : Nat) : Option Nat :=
  let ls := (coresOf r).flatMap (fun c => (s.core c).lgs.map (·.2))
  if ls.isEmpty then some (s.rgn r).passed
  else if ls.all (fun y => (slipOf y).isSome || y.st == .ended) then ls.findSome? slipOf else none

def rangesOf (p : Plan) (map rel core : Nat) : List RangeRec :=
  ((p.dirs.getD map {}).ranges).filter (fun e => e.rel == rel && e.core == core)

/-- Zero every byte below U outside the kept ranges (R118, action 3). -/
def zeroOutside (u : Nat) (keep : List RangeRec) (ts : Map Byte) : Map Byte :=
  ts.filter (fun e => decide (u ≤ e.1) || keep.any (fun k => inside e.1 1 k.start k.len))

def semsZero (s : State) (r : Nat) : Bool := (s.rgn r).sems.isEmpty && (s.rgn r).waiters.isEmpty

/-- The slip record of a step by its relative index. -/
def slipRec (p : Plan) (step j : Nat) : SlipRec := (stepSlips p step).getD j ⟨0, 0, 0, 0⟩

/-- The AUTO entries of a region's stretch, those with START_AT below `upTo` that no earlier slip point completed, have completed (R202). -/
def autoDone (s : State) (x : Launch) (r upTo : Nat) : Bool :=
  let y := s.rgn r
  (stepTable s x).xfers.zipIdx.all (fun e => !e.1.auto || e.1.rel != y.rel || decide (e.1.startAt < y.offset) || decide (upTo ≤ e.1.startAt)
    || y.done.contains e.2)

/-- A region has reached slip `j`: the step has it inside (a record at the step boundary is no slip point, R251), and all that the region issued or that its stretch starts has completed (R118, R202). -/
def slipReached (s : State) (p : Plan) (x : Launch) (r j : Nat) : Bool :=
  decide (j < (innerSlips p x.step).length) && regionQuiet s r && autoDone s x r (slipRec p x.step j).offset

/-- Restart the cores of a region at a slip point's resume words (R96, R118, action 4). s1 is the index that SLIP carries, which counts
from the step's SLIP_FIRST, + 1 (DEDUCED, log entry 104). -/
def resumeRegion (p : Plan) (x : Launch) (rel j r : Nat) (s : State) : State :=
  let s1 := foldState (cdcsOf r) (fun k a => seedCdc p rel x.step k a) s
  let s2 := foldState (coresOf r) (fun c a => startCore p x.step rel (some j) c a) s1
  let y := s2.rgn r
  s2.setRgn r { y with passed := j + 1, started := [], base := y.cycles, offset := (slipRec p x.step j).offset }

/-- Actions 1 to 4 of R118 in a region; held back from issuing when it yields. -/
def slipRegion (p : Plan) (l : Nat) (x : Launch) (j r : Nat) (hold : Bool) (s : State) : State :=
  let rel := (s.rgn r).rel
  let u := usableTop s
  let s1 := foldState (coresOf r) (fun c a =>
    let y := a.core c
    a.setCore c { y with ts := zeroOutside u (rangesOf p (slipRec p x.step j).map rel (c % 32)) y.ts }) s
  let s2 := resumeRegion p x rel j r s1
  if hold then
    (s2.setRgn r { s2.rgn r with held := some j }).setLaunch l { x with point := .slip, slip := j }
  else s2

/-- SLIP_POINT (R114, R118, R202, R252, R263). A region that yields waits unless another region of the launch is already past the
point. -/
def execSlipPoint (r : Nat) (s : State) : Result :=
  match launchAt s r with
  | none => .next s
  | some (l, x) =>
    match s.planOf x.ver, regionSlip s r with
    | some p, some j =>
      if s.flt.safe || !rgnRuns s r || !slipReached s p x r j || (s.rgn r).held != none || !(x.phase == .running || x.phase == .yielding) then .next s
      else
        match x.stop with
        | some (st, d) => .next (endLaunch l st d s)
        | none =>
          if !semsZero s r then .next (abortLaunch l r 5 0x0403 s)
          else
            let others := x.regions.filter (· != r)
            let hold := x.phase == .yielding && others.all (fun k => decide ((s.rgn k).passed ≤ j) || (s.rgn k).held == some j)
            .next (slipRegion p l x j r hold s)
    | _, _ => .next s

/-! ### Saves (R119, R152, R252) -/

/-- The ranges kept at the point where a launch stands, on one core: a slip's or boundary's live map, or at a graphics point the
KEEP_MAP of the pass in work, the next tile's staged inputs and, inside a tile, that tile's slot and inputs (R43, R119, R152). -/
def liveRanges (s : State) (p : Plan) (x : Launch) (rel c : Nat) : List RangeRec :=
  match x.point with
  | .slip => rangesOf p (slipRec p x.step x.slip).map rel (c % 32)
  | .boundary =>
    match (stepSlips p (x.step - 1)).find? (fun q => q.offset == (stepOf p (x.step - 1)).wcet) with
    | some q => if x.step = 0 then [] else rangesOf p q.map rel (c % 32)
    | none => []
  | .graphics =>
    let g := (s.core c).gfx
    let i := match g.passes, (s.rgn (c / 32)).geo.passes with
      | i :: _, _ => some (i % 256)
      | [], i :: _ => some i
      | [], [] => ((shadePasses p x.step) ++ (geoPasses p x.step)).getLast?
    match i with
    | none => []
    | some i =>
      let q := p.passes.getD i {}
      let ins := fun (buf : Nat) => [(⟨rel, c % 32, q.footBase + buf * q.footBlocks * 1024, q.footBlocks * 1024⟩ : RangeRec),
        ⟨rel, c % 32, q.stageBase + 16384 * buf, 16384⟩]
      let slot := fun (n : Nat) => [(⟨rel, c % 32, n * slotBytes q, slotBytes q⟩ : RangeRec)]
      rangesOf p q.keepMap rel (c % 32)
        ++ (match g.next with
          | some n => ins n.buf ++ (if q.attach.any (fun a => a.loadOp == 1 || x.rounded.contains i) then slot n.slot else [])
          | none => [])
        ++ (if g.cur.isSome then slot g.slot ++ ins g.footBuf else [])

/-- Read the live set of one region, over the bridge of its die (R349). -/
def saveRegion (s : State) (p : Plan) (x : Launch) (r : Nat) : List Saved :=
  let rel := (s.rgn r).rel
  (coresOf r).flatMap (fun c => (liveRanges s p x rel c).map (fun k =>
    ⟨rel, c % 32, k.start, crossed (coreRatio s (r / 8)) s (bytesAt (s.core c).ts k.len k.start)⟩))

def savedBytes (ss : List Saved) : Nat := (ss.map (fun e => e.bytes.length)).sum

/-- Lane groups standing at NEXT keep their counters; their registers read as R96 starts them. -/
def standing (x : Core) : Map Lg := mmap x.lgs (fun _ y => { y with v := [], p := [], item := none })

def gfxOf (s : State) (r : Nat) : GfxSaved :=
  ⟨(s.rgn r).rel, (s.rgn r).geo, (coresOf r).map (fun c => ((s.core c).gfx, standing (s.core c)))⟩

/-- The marks of a region's transfer entries (R202). -/
def markOf (s : State) (r : Nat) : RgnMark := ⟨(s.rgn r).rel, (s.rgn r).started, (s.rgn r).done, (s.rgn r).passed, (s.rgn r).offset⟩

/-- A region stands where its launch can be saved: held at the point, or without lane groups and with all of its stretch done. -/
def readyToSave (s : State) (p : Plan) (x : Launch) (r : Nat) : Bool :=
  (s.rgn r).held != none
    || (regionIdle s r && (x.point != .slip || (decide ((s.rgn r).passed ≤ x.slip) && slipReached s p x r x.slip)))

/-- Zero a region below the residency area; it is clear for its next launch (R252). -/
def wipeRegion (r : Nat) (s : State) : State := clearRegion r s

/-- SAVE_COMPLETE (R119, R178, R252, R254). -/
def execSaveComplete (l : Nat) (s : State) : Result :=
  match s.launch? l with
  | none => .next s
  | some x =>
    match s.planOf x.ver with
    | none => .next s
    | some p =>
      if s.flt.safe || x.phase != .yielding || !x.regions.all (readyToSave s p x) || !x.regions.all (rgnRuns s) || !poolRuns s then .next s
      else if x.lostUnits ≠ 0 then
        .next ((if x.lc then countBreach x 5 0x0703 else id) (endLaunch l 5 0x0703 s))
      else
        let saved := x.regions.flatMap (saveRegion s p x)
        let gs := if x.point == .graphics then x.regions.map (gfxOf s) else []
        let s1 := foldState x.regions (fun r a =>
          freeRegion x.ctx r (wipeRegion r (countRgnBytes r (savedBytes (saved.filter (fun e => e.rel == (s.rgn r).rel))) a))) s
        let s2 := tickCross (x.regions.all (fun r => coreRatio s (r / 8))) (savedBytes saved)
          (foldState x.regions (fun r a => a.setRgn r { a.rgn r with clear := true }) s1)
        .next (settleDraining (s2.setLaunch l { x with
          phase := .displaced, saved := saved, savedOn := stripeStacks x.unitsAt (savedBytes saved), gsaved := gs, marks := x.regions.map (markOf s), leftAt := s.now }))

/-- Write the saved ranges back, relative region k onto new relative region k (R119, R253), over the bridge of its die (R349). -/
def putSaved (x : Launch) (s : State) : State :=
  foldState x.saved (fun e a =>
    let r := x.regions.getD e.rel 0
    let ok := coreRatio a (r / 8)
    tickCross ok e.bytes.length (putTs a (32 * r + e.core) e.start (crossed ok a e.bytes))) s

/-- Put the marks of a launch's transfer entries back on its regions: all of them at a graphics point; at a slip point those completed,
for the AFTER entries to come. -/
def putMarks (x : Launch) (s : State) : State :=
  foldState x.marks (fun m a =>
    let r := x.regions.getD m.rel 0
    let y := a.rgn r
    a.setRgn r (if x.point = .graphics then { y with started := m.started, done := m.done, passed := m.passed, offset := m.offset, base := y.cycles }
      else { y with done := m.done })) s

/-- A displaced launch runs on from its point; the watch of R62 leaves out the time since its save (log entry 106). -/
def resumeLaunch (l : Nat) (x : Launch) (p : Plan) (s : State) : State :=
  let y : Launch := { x with
    phase := .running, saved := [], savedOn := [], gsaved := [], marks := [], sliceOver := false, excl := x.excl + (s.now - x.leftAt) }
  match x.point with
  | .boundary => beginStep l (s.setLaunch l y)
  | .slip => (foldState x.regions.zipIdx (fun e a => resumeRegion p x e.2 x.slip e.1 a) (putMarks x s)).setLaunch l y
  | .graphics =>
    (foldState x.gsaved (fun g a =>
      let r := x.regions.getD g.rel 0
      let a1 := foldState (g.cores.zipIdx) (fun e b =>
        let c := 32 * r + e.2
        b.setCore c { b.core c with gfx := e.1.1, lgs := e.1.2 }) (foldState (cdcsOf r) (fun k b => seedCdc p g.rel x.step k b) a)
      a1.setRgn r { a1.rgn r with geo := g.geo }) (putMarks x s)).setLaunch l y

/-- RESTORE (R119, R253). -/
def execRestore (l : Nat) (s : State) : Result :=
  match s.launch? l with
  | none => .next s
  | some x =>
    match s.planOf x.ver with
    | none => .next s
    | some p =>
      if s.flt.safe || x.phase != .restoring || !x.regions.all (rgnRuns s) || !poolRuns s then .next s
      else
        let s1 := foldState x.regions.zipIdx (fun e a =>
          countRgnBytes e.1 (savedBytes (x.saved.filter (fun k => k.rel == e.2))) a) s
        .next (resumeLaunch l x p (putSaved x s1))

/-! ### Step ends (R22, R60, R61, R97, R114, R156, R160, R203, R263) -/

/-- A region has finished its part of a step: lane groups ended, nothing outstanding, every AUTO entry served, passes done. -/
def regionFinished (s : State) (x : Launch) (r : Nat) : Bool :=
  let y := s.rgn r
  regionQuiet s r
    && (coresOf r).all (fun c => (s.core c).lgs.all (fun e => e.2.st == .ended) && (s.core c).gfx.passes.isEmpty)
    && y.geo.passes.isEmpty
    && autoDone s x r (2 ^ 32)

/-- Status and detail of a launch whose last step has run. -/
def runStatus (s : State) (x : Launch) : Nat × Nat :=
  if x.excess ≠ 0 then (0x0A, x.excess)
  else if x.lc && decide (x.deadline < s.now) && x.breach ≠ 0 then (0x0B, x.breach)
  else (0, 0)

/-- A launch that has run all its steps ends; a breach is counted (R61). -/
def completeLaunch (l : Nat) (x : Launch) (s : State) : State :=
  let (st, d) := runStatus s x
  (if st = 0x0B then countBreach x st d else id) (endLaunch l st d s)

/-- A region reports the end of its step: its count of core cycles, with the front end's stamp (R24; log entry 105). -/
def reportStep (r : Nat) (s : State) : State := s.setRgn r { s.rgn r with report := (s.rgn r).cycles, reportStamp := s.now }

/-- STEP_END. -/
def execStepEnd (l : Nat) (s : State) : Result :=
  match s.launch? l with
  | none => .next s
  | some x =>
    match s.planOf x.ver with
    | none => .next s
    | some p =>
      if s.flt.safe || !(x.phase == .running || x.phase == .yielding)
          || !x.regions.all (fun r => (s.rgn r).held == none && rgnRuns s r && regionFinished s x r)
      then .next s
      else
        match x.stop, x.regions.find? (fun r => !semsZero s r) with
        | some (st, d), _ => .next (endLaunch l st d s)
        | none, some r => .next (abortLaunch l r 5 0x0403 s)
        | none, none =>
          let s1 := foldState x.regions reportStep (settleFrames (foldState x.regions rgnFlush s))
          if p.steps.length ≤ x.step + 1 then .next (completeLaunch l x s1)
          else
            let y : Launch := { x with step := x.step + 1, point := .boundary }
            if x.phase = .yielding then
              .next ((foldState x.regions (fun r a => a.setRgn r { a.rgn r with held := some 0 }) s1).setLaunch l y)
            else .next (beginStep l (s1.setLaunch l y))

/-! ### Steps that wait for peers (R303) -/

/-- The live export of a context that holds a local address. -/
def exportAt (s : State) (ctx va : Nat) : Option (Nat × Export) :=
  s.net.exports.find? (fun e => e.2.live && e.2.ctx == ctx && decide (e.2.va ≤ va) && decide (va < e.2.va + e.2.len))

/-- Subtract EXPECT of one wait record from its counter; `none` while the counter is below it. -/
def takeWait (x : Launch) (s : Option State) (w : WaitRec) : Option State :=
  match s with
  | none => none
  | some s =>
    match exportAt s x.ctx (x.args.getD w.slot 0) with
    | none => none
    | some (i, e) =>
      let n := mget e.counters 0 w.counter
      if n < w.expect then none
      else some { s with net := { s.net with exports := mins s.net.exports i { e with counters := mset e.counters 0 w.counter (n - w.expect) } } }

/-- CROSS_MODULE_STEP_START (R263, R303). -/
def execCrossModuleStepStart (l : Nat) (s : State) : Result :=
  match s.launch? l with
  | none => .next s
  | some x =>
    match s.planOf x.ver with
    | none => .next s
    | some p =>
      if s.flt.safe || x.phase != .peerWait then .next s
      else
        let ws := p.waits.filter (fun w => w.step == x.step)
        match x.stop, ws.foldl (takeWait x) (some s) with
        | some (st, d), _ => .next (endLaunch l st d s)
        | none, none => .next s
        | none, some s1 =>
          let late := s.now - x.stepStamp - feOf (listMax (ws.map (·.budget)))
          .next (s1.setLaunch l { x with
            phase := .running, excl := x.excl + late, breach := if late ≠ 0 && x.breach = 0 then 6 else x.breach })

/-! ### Regions leaving and joining (R34, R61, R62, R262) -/

/-- Every LC launch placed on a region is ended as a forced loss, and its group admits none until it is set up again (R61). -/
def forcedLoss (r : Nat) (s : State) : State :=
  loseGroup (groupOf s r) (foldState (mkeys s.fe.launches (fun _ x => isAdmitted x && x.regions.contains r)) (fun l a =>
    match a.launch? l with
    | none => a
    | some x => countBreach x 5 0x0B04 (endLaunch l 5 0x0B04 a)) s)

/-- A class F fault takes a region out until module reset (R262): its LC launches are lost, BE work on it ends with no save. -/
def regionFail (r : Nat) (s : State) : State :=
  let s1 := forcedLoss r s
  let s2 := match launchAt s1 r with
    | none => s1
    | some (l, x) => signalFault (endLaunch l 5 0x0902 s1) 1 x.ctx
  setRgnState r .failed (resetRegion r s2)

/-- The time that the watch of R62 gives a step, in FE cycles. -/
def watchLimit (t : StepRec) : Nat := feOf t.wcet + t.unplanned * 1120 + 1600

/-- FE cycles by which host entries at the head of a launch's stream engines have outlasted their charges so far (R203). -/
def flightExcess (s : State) (x : Launch) (p : Plan) : Nat :=
  (x.regions.map (fun r => match (s.rgn r).fifo with
    | [] => 0
    | st :: _ => match (stepTable s x).xfers[st.entry]? with
      | some e => if hostEntry st then s.now - st.stamp - feOf (hostTime p e) else 0
      | none => 0)).sum

/-- The current step of a launch has outlasted its watch, what is excluded aside (R62, R203, R263). -/
def stepLate (s : State) (x : Launch) (p : Plan) : Bool :=
  decide (watchLimit (stepOf p x.step) + x.excl + flightExcess s x p < s.now - x.stepStamp)

/-- A launch that stands at a step boundary has not begun its next step: nothing of it is late (R62). -/
def atBoundary (s : State) (x : Launch) : Bool := x.phase == .yielding && x.point == .boundary && x.regions.all (fun r => (s.rgn r).held != none)

/-- STEP_OVERRUN (R62): class F for the regions of a launch whose step is late with no bound or emergency event to account for it. A
noted excess of an envelope is a bound event. -/
def execStepOverrun (l : Nat) (s : State) : Result :=
  match s.launch? l with
  | none => .next s
  | some x =>
    if s.flt.safe || !isAdmitted x || !(x.phase == .running || x.phase == .yielding) || x.excused || x.excess != 0 || atBoundary s x
        || !((s.planOf x.ver).map (stepLate s x)).getD false then .next s
    else
      let s1 := countBreach x 5 0x0B05 (endLaunch l 5 0x0B05 s)
      .next (foldState x.regions (fun r a => regionFail r (faultEvent a 2 3 r 2 65535 0 true)) s1)

/-- HARD_STOP (R193, R242, R263): a stop request not met at a slip point, or a yield of a region that waits on a page request, a launch end
that its rule names no fault (R398: FE, CODE 2, class C). -/
def execHardStop (r : Nat) (s : State) : Result :=
  match launchAt s r with
  | none => .next s
  | some (l, x) =>
    if s.flt.safe then .next s
    else
      match x.stop with
      | some (st, d) => .next (endLaunch l st d s)
      | none =>
        if x.phase == .yielding && isBeRun x && s.link.waits.any (fun w => w.user == userLaunch l) then
          .next (faultEvent (endLaunch l 5 0x0701 s) 0 7 0 2 x.ctx (endInfo x 5 0x0701))
        else .next s

/-- BE work on a region is asked to yield. -/
def yieldBe (r : Nat) (s : State) : State :=
  match launchAt s r with
  | some (l, x) => if isBeRun x then askYield l s else s
  | none => s

/-- DRAIN (R262), by a write of `v`: refused and logged unless the region is IN_SERVICE. -/
def drainRegion (v r : Nat) (s : State) : State :=
  if (s.rgn r).st == .inService then settleDraining (yieldBe r (setRgnState r .draining s)) else logViol s 2 0 0 0x010610 v

/-- FORCE (R61, R262). -/
def forceOut (v r : Nat) (s : State) : State :=
  if (s.rgn r).st == .inService || (s.rgn r).st == .draining then
    settleDraining (yieldBe r (setRgnState r .draining (forcedLoss r s)))
  else logViol s 2 0 0 0x010610 v

/-- RETURN (R262). -/
def returnRegion (v r : Nat) (s : State) : State :=
  if (s.rgn r).st == .out then
    let s1 := setRgnState r .testing (resetRegion r s)
    s1.setRgn r { s1.rgn r with returning := true }
  else logViol s 2 0 0 0x010614 v

/-- A region that comes back from a RETURN serves no BE launch that has started before (R262). -/
def barStarted (r : Nat) (s : State) : State :=
  if (s.rgn r).returning then
    { s with fe := { s.fe with launches := mmap s.fe.launches (fun _ x => if x.started = 0 then x else { x with barred := r :: x.barred }) } }.setRgn r
      { s.rgn r with returning := false }
  else s

/-- REGION_SELF_TEST_DONE (R33, R262, R374, R398): one CLUSTER record for each cluster that failed. -/
def execRegionSelfTestDone (r : Nat) (bad : BitVec 8) (unitFailed : Bool) (s : State) : Result :=
  if s.flt.safe || (s.rgn r).st != .testing || !(s.pwr.dev == .starting || s.pwr.dev == .up) then .next s
  else if bad = 0#8 && !unitFailed then .next (barStarted r (setRgnState r .inService s))
  else
    let s1 := foldState ((List.range 8).filter (fun k => bad.getLsbD k)) (fun k a => faultEvent a 2 2 (8 * r + k) 3 65535 0) s
    let s2 := if unitFailed then faultEvent s1 2 3 r 1 65535 0 else s1
    .next (regionFail r s2)

/-! ### NAP (R19, R160, R356, R357) -/

/-- REGION_NAP: an idle region that no admitted LC launch is placed on; its tile stores are held on the retention supply. -/
def execRegionNap (r : Nat) (s : State) : Result :=
  let y := s.rgn r
  if !feRuns s || !bitOf (rd s 0x040008) 0 || decide (s.now < y.idleSince + 1024 * field (rd s 0x040008) 8 16)
      || y.st != .inService || y.napping || y.launch != none
      || s.fe.launches.any (fun p => isAdmitted p.2 && p.2.regions.contains r) then .next s
  else
    let s1 := rgnFlush r s
    let s2 := foldState (coresOf r) (fun c a => a.setCore c { ts := (a.core c).ts }) s1
    let s3 := foldState (cdcsOf r) (fun k a => a.setCdc k {}) s2
    .next (setMap (12 + r) 0 (s3.setRgn r { y with napping := true, sems := [] }))

/-! ### Model loads (R260) -/

/-- The entry of a model leaves the set with its range zeroed; the launch ends with the status of R197 or R174, class K. -/
def failModel (l : Nat) (x : Launch) (m : ModelRec) (st d va moved : Nat) (s : State) : State :=
  let s1 := evictModels (fun e => e.ctx == x.ctx && e.model == m.id && e.regions == x.regions) s
  let s2 := if st = 3 then fillFault s1 x.ctx ⟨va, 0, st, d, 2, x.regions.getD 0 255, x.tag, moved⟩ else signalFault s1 1 x.ctx
  endLaunch l st d s2

/-- Copy an image: core k of relative region r takes bytes (32r + k) * TS_BYTES on (R259). -/
def loadImage (x : Launch) (m : ModelRec) (img : List Byte) (s : State) : State :=
  let s1 := foldState ((List.range (32 * x.regions.length))) (fun n a =>
    let r := x.regions.getD (n / 32) 0
    let ok := coreRatio a (r / 8)
    tickCross ok m.bytes (putTs a (32 * r + n % 32) m.base (crossed ok a ((img.drop (n * m.bytes)).take m.bytes)))) s
  { s1 with fe := { s1.fe with residency := s1.fe.residency.map (fun e =>
    if e.ctx == x.ctx && e.model == m.id && e.regions == x.regions then { e with loaded := true } else e) } }

/-- Load the first model of a launch that is not yet resident. -/
def loadNext (l : Nat) (x : Launch) (c : Ctx) (m : ModelRec) (fail : Option MemFail) (s : State) : State :=
  let va := x.args.getD m.slot 0
  let k := walkVa s c false (userLaunch l) va (32 * x.regions.length * m.bytes) false
  match fail, k.stop with
  | some .dataError, _ => failModel l x m 0x10 0x0701 va 0 s
  | some .unmapped, some (.bad st d) => failModel l x m st d va k.moved s
  | some .unmapped, _ => failModel l x m 3 0x0701 va 0 s
  | none, some (.bad st d) => failModel l x m st d va k.moved s
  | none, some _ => failModel l x m 3 0x0703 va 0 s
  | none, none =>
    if piecesRun s k.pieces && x.regions.all (rgnRuns s) then
      foldState x.regions (fun r a => countRgnBytes r (32 * m.bytes) a) (loadImage x m (readPieces s k.pieces) s)
    else s

/-- MODEL_LOAD_COMPLETE: once every model is resident, step 0 starts or the displaced launch is restored. -/
def execModelLoadComplete (l : Nat) (fail : Option MemFail) (s : State) : Result :=
  match s.launch? l with
  | none => .next s
  | some x =>
    if s.flt.safe || x.phase != .loading then .next s
    else
      match s.ctx? x.ctx, (modelsOf s x).find? (fun m => match resFind s x.ctx m x.regions with
        | some e => !e.loaded
        | none => true) with
      | some c, some m =>
        let s1 := loadNext l x c m fail s
        match s1.launch? l with
        | none => .next s1
        | some y =>
          if y.phase != .loading || !modelsLoaded s1 y then .next s1
          else if y.started = 0 then .next (beginStep l s1)
          else .next (s1.setLaunch l { y with phase := .restoring })
      | _, _ => .next (if x.started = 0 then beginStep l s else s.setLaunch l { x with phase := .restoring })

end Sys2Proof.Machine
end

