-- ==== Sys2Proof/Machine/Rings.lean ====
section
/-! DEFINITION. Rings and waits (R210 to R217, R224 to R232, R240): doorbells, kicks, sweeps, residency of queues, reading a
descriptor, binding a launch's plan version, the checks at the head, and the evaluation of its wait. -/

namespace Sys2Proof.Machine

/-! ### Queues (R210 to R215) -/

/-- Software's writes to host memory before a kick or sweep. -/
def putCells (s : State) (wr : List Host.Cell) : State :=
  { s with hostMem := wr.foldl (fun m c => mset m 0 c.1 c.2) s.hostMem }

/-- The head of a queue: its oldest read, unreleased descriptor. -/
def headOf (x : Queue) : Option (Nat × Desc) := x.descs.find? (fun e => e.2.phase == .read || e.2.phase == .head)

def liveQueue (s : State) (q fn : Nat) : Bool :=
  match s.queue? q with
  | none => false
  | some x => x.st != .destroyed && x.fn == fn && (match s.ctx? x.ctx with
    | some c => c.st == .live
    | none => false)

def residentQueues (s : State) : List Nat := mkeys s.fe.queues (fun k x => x.resident && k != adminQid)
def residentCtxs (s : State) : List Nat := mkeys s.fe.ctxs (fun _ c => c.resident)

/-- The entry of a list of candidates with the smallest figure. -/
def leastBy (l : List (Nat × Nat)) : Option Nat :=
  (l.foldl (fun (b : Option (Nat × Nat)) e => match b with
    | none => some e
    | some y => if e.2 < y.2 then some e else some y) none).map (·.1)

/-- The device reports a change of its latency tolerance: 3 µs while any queue is resident, 1 ms otherwise (R269). -/
def reportLtr (s : State) : State :=
  let v := if (residentQueues s).isEmpty then 1000 else 3
  if s.link.ltr = v then s else { s with link := { s.link with ltr := v } }.send { kind := .ltr, a := v }

/-- The value of a fence, its CAUSE if it is abandoned, and its table entry if it is registered; a record that cannot be read
gives the stop of its translation. -/
def fenceView (s : State) (ctx va user : Nat) : Except Tr (Nat × Option Nat × Option (Nat × Fence)) :=
  match fenceFind s ctx va with
  | some (i, f) => .ok (f.value, if f.abandoned then some f.cause else none, some (i, f))
  | none =>
    match readRecord s ctx va user with
    | .error t => .error t
    | .ok bs =>
      let w := ofLe bs
      .ok (field w 0 64, if bitOf w 72 then some (field w 64 8) else none, none)

def reached (v target : Nat) : Bool := decide (0 ≤ diff64 v target)

/-- Whether the head's wait is reached, or it has none. -/
def waitReached (s : State) (q i : Nat) (x : Queue) (d : Desc) : Bool :=
  !dWaitEn d.raw || (q != adminQid && match fenceView s x.ctx (dWaitAddr d.raw) (userDesc q i) with
    | .ok (v, _, _) => reached v (dWaitValue d.raw)
    | .error _ => false)

/-- The queue that R215 evicts: the longest idle of those with nothing unread and nothing unreleased, else the one whose head has
waited longest on a fence that is not reached, for at least 102,400 FE cycles. -/
def evictee (s : State) : Option Nat :=
  let qs := s.fe.queues.filter (fun e => e.2.resident && e.1 != adminQid)
  let idle := qs.filter (fun e => e.2.producer == e.2.consumer && (headOf e.2).isNone)
  match leastBy (idle.map (fun e => (e.1, e.2.idleSince))) with
  | some q => some q
  | none => leastBy (qs.filterMap (fun e => match headOf e.2 with
    | some (i, d) =>
      if d.phase == .head && !waitReached s e.1 i e.2 d && sweepPeriod ≤ s.now - d.headStamp then some (e.1, d.headStamp) else none
    | none => none))

/-- A context leaves once it has no resident queue and no descriptor in flight. -/
def evictCtx (ctx : Nat) (s : State) : State :=
  if s.fe.queues.any (fun e => e.2.ctx == ctx && e.1 != adminQid && (e.2.resident || !e.2.descs.isEmpty)) then s
  else match s.ctx? ctx with
    | some c => if c.resident then s.setCtx ctx { c with resident := false } else s
    | none => s

/-- A queue leaves, and its context with its last. -/
def evictQueue (q : Nat) (s : State) : State :=
  match s.queue? q with
  | none => s
  | some x => reportLtr (evictCtx x.ctx (s.setQueue q { x with resident := false }))

/-- Evict queues until a slot for a queue, and one for its context if it needs one, are free. -/
def makeRoom (ctx : Nat) : (fuel : Nat) → State → State
  | 0, s => s
  | n + 1, s =>
    let ctxFull := !(residentCtxs s).contains ctx && decide (64 ≤ (residentCtxs s).length)
    if !ctxFull && decide ((residentQueues s).length < 256) then s
    else match evictee s with
      | none => s
      | some q => makeRoom ctx n (evictQueue q s)

/-- Make a queue and its context resident, if slots can be found (R215). -/
def makeResident (q : Nat) (s : State) : State :=
  match s.queue? q with
  | none => s
  | some x =>
    if x.resident then s
    else
      let s1 := makeRoom x.ctx 256 s
      if 256 ≤ (residentQueues s1).length || (!(residentCtxs s1).contains x.ctx && decide (64 ≤ (residentCtxs s1).length)) then s1
      else
        let s2 := reportLtr (s1.setQueue q { x with resident := true, idleSince := s.now })
        match s2.ctx? x.ctx with
        | some c => s2.setCtx x.ctx { c with resident := true }
        | none => s2

/-- A ring or doorbell access that awaits a page asks for it; while Bus Master Enable is 0 nothing is asked (R191, R280). -/
def ringWait (s : State) (x : Queue) (page : Nat) : State := waitRecord s x.ctx page

/-- Read a queue's doorbell word (R212). -/
def readDoorbell (q : Nat) (s : State) : State :=
  match s.queue? q with
  | none => s
  | some x =>
    if x.st != .active || !feRuns s then s
    else
      let k := qWalk s q x x.dbVa 8 false
      match k.stop with
      | some (.bad st d) => ringFault q x x.dbVa st d s
      | some (.wait page) => ringWait s x page
      | some _ => ringFault q x x.dbVa 3 0x0703 s
      | none =>
        let p := ofLe (readPieces s k.pieces)
        let d := diff64 p x.consumer
        let s1 := s.setQueue q { x with producer := p }
        if d < 0 || d > ((2 ^ x.sizeLog2 : Nat) : Int) then logViol s1 5 x.fn 0 q (p % 2 ^ 32)
        else if d > 0 then makeResident q s1 else s1

/-! ### The admin queue (R244) -/

/-- The admin queue as its registers give it; nothing while SIZE_LOG2 is outside 4 to 20. -/
def startAdmin (s : State) : State :=
  let w := rd s 0x118
  let n := field w 8 5
  if !bitOf w 0 || !feRuns s || n < 4 || 20 < n || (s.queue? adminQid).isSome then s
  else writeStatus adminQid (s.setQueue adminQid
    { ctx := noContext, sizeLog2 := n, vector := field w 16 11, ringVa := rd64 s 0x100, dbVa := rd64 s 0x108, cplVa := rd64 s 0x110
      resident := true, idleSince := s.now })

/-- Once its last released descriptor has completed, a disabled admin queue is gone, and a later ENABLE takes effect. -/
def settleAdmin (s : State) : State :=
  match s.queue? adminQid with
  | none => s
  | some x =>
    if x.st == .destroyed && x.descs.isEmpty then startAdmin { s with fe := { s.fe with queues := mdel s.fe.queues adminQid } } else s

/-! ### Waits (R226 to R232) -/

/-- RESULT of a LAUNCH with no flags: its plan version in [31:16] (R219). -/
def verResult (s : State) (v : Nat) : Nat := ((mfind s.fe.vers v).map (fun y => y.num % 65536 * 65536)).getD 0

/-- Refuse or end a descriptor that does not run, stamped now (R224); RESULT of a bound LAUNCH names its version (R219), and
NOT_ADMITTED completions are counted (R66). -/
def refuse (q i st d : Nat) (s : State) : State :=
  let r := match (s.desc? q i).bind (·.ver) with
    | some v => verResult s v
    | none => 0
  let s1 := finishDesc s q i st d r false
  if st = 0x0C then { s1 with fe := { s1.fe with refused := (s1.fe.refused + 1) % 2 ^ 64 } } else s1

/-- A record that claims an entry which does not name its address is logged (R227). -/
def logClaim (s : State) (ctx fn va user : Nat) : State :=
  match fenceFind s ctx va, readRecord s ctx va user with
  | none, .ok bs => if bitOf (ofLe bs) 73 then logViol s 9 fn 5 va (field (ofLe bs) 96 20) else s
  | _, _ => s

/-- A released descriptor of a queue that has not completed and signals the fence of a table entry (R231). -/
def hasSignaller (s : State) (q idx : Nat) : Bool :=
  match s.queue? q with
  | none => false
  | some x => x.descs.any (fun e => (e.2.phase == .released || e.2.phase == .done)
      && ((dSignalEn e.2.cur && ((fenceFind s x.ctx (dSignalAddr e.2.cur)).map (·.1)) == some idx)
        || (dSignalEn e.2.raw && ((fenceFind s x.ctx (dSignalAddr e.2.raw)).map (·.1)) == some idx)))

/-- The walk of R231 from a fence: the hop count of a cycle through `q0`. -/
def cycleWalk (s : State) (q0 : Nat) : (fuel hop : Nat) → Nat × Fence → Option Nat
  | 0, _, _ => none
  | n + 1, hop, (idx, f) =>
    let q := f.ctx * 16 + f.queue
    if f.abandoned || hasSignaller s q idx then none
    else if q = q0 then some hop
    else
      match (s.queue? q).bind headOf with
      | none => none
      | some (_, h) =>
        if !dWaitEn h.raw then none
        else
          match fenceFind s f.ctx (dWaitAddr h.raw) with
          | none => none
          | some e => if reached e.2.value (dWaitValue h.raw) then none else cycleWalk s q0 n (hop + 1) e

def waitBudget (x : Queue) : Nat := if x.budget = 0 then 2 ^ 30 else x.budget

/-- Evaluate the wait of a queue's head in the order of R228: reached, abandoned, cycle, budget. `late` allows the last. -/
def evalWait (q : Nat) (late : Bool) (s : State) : State :=
  match s.queue? q with
  | none => s
  | some x =>
    match headOf x with
    | none => s
    | some (i, d) =>
      let va := dWaitAddr d.raw
      let spent := late && decide (waitBudget x < s.now - d.headStamp)
      if d.phase != .head || !dWaitEn d.raw || q = adminQid then s
      else if (fenceFind s x.ctx va).isNone && hostBase ≤ va && !(s.func x.fn).busMaster then (if spent then refuse q i 8 0 s else s)
      else
        match fenceView s x.ctx va (userDesc q i) with
        | .error (.bad st dt) => refuse q i st dt (fillFault s x.ctx ⟨va, 0, st, dt, 2, 255, dTag d.raw, 0⟩)
        | .error (.wait page) => if spent then refuse q i 8 0 s else (match s.ctx? x.ctx with
          | some c => noteWait s c (userDesc q i) page
          | none => s)
        | .error _ => refuse q i 3 0x0703 (fillFault s x.ctx ⟨va, 0, 3, 0x0703, 2, 255, dTag d.raw, 0⟩)
        | .ok (v, cause, entry) =>
          let s1 := logClaim s x.ctx x.fn va (userDesc q i)
          if reached v (dWaitValue d.raw) then s1
          else
            match cause, entry with
            | some c, _ => refuse q i 6 c s1
            | none, some e => (match cycleWalk s q 64 1 e with
              | some hop => refuse q i 7 hop s
              | none => s)
            | none, none => if spent then refuse q i 8 0 s1 else s1

/-- Heads that wait on a table entry. -/
def waitersOn (s : State) (idx : Nat) : List Nat :=
  mkeys s.fe.queues (fun k x => k != adminQid && match headOf x with
    | some (_, d) => dWaitEn d.raw && ((fenceFind s x.ctx (dWaitAddr d.raw)).map (·.1)) == some idx
    | none => false)

/-- Whether the head of a queue waits on an unregistered fence. -/
def waitsUnregistered (s : State) (x : Queue) : Bool :=
  match headOf x with
  | some (_, d) => dWaitEn d.raw && (fenceFind s x.ctx (dWaitAddr d.raw)).isNone
  | none => false

/-- A change of a registered fence: the queues that wait on it become resident, and their waits are evaluated again (R215, R228). -/
def wakeFence (idx : Nat) (s : State) : State := foldState (waitersOn s idx) (fun q a => evalWait q false (makeResident q a)) s

/-- WAIT_REEVALUATION (R228): a signal of a registered fence makes the queues that wait on it resident and evaluates their waits. -/
def execWaitReevaluation (fence : Nat) (s : State) : Result :=
  if !feRuns s then .next s
  else .next (wakeFence fence s)

/-- WAIT_TIMEOUT (R232). -/
def execWaitTimeout (q : Nat) (s : State) : Result :=
  match s.queue? q with
  | none => .next s
  | some x => if feRuns s && waitsUnregistered s x then .next (evalWait q true s) else .next s

/-! ### Kicks and sweeps (R213, R214) -/

def kickQueue (q : Nat) (s : State) : State := evalWait q true (readDoorbell q (makeResident q s))

/-- KICK. Offset 0xFFFC of the physical function's page kicks the admin queue. -/
def execKick (f : Nat) (off size : Nat) (v : W32) (wr : List Host.Cell) (s : State) : Result :=
  let s0 := putCells s wr
  let qid := v.toNat % 2 ^ 20
  if !feRuns s0 || s0.link.flrBusy.contains f || s0.link.flrBusy.contains 0 then .next s0
  else if size ≠ 4 || off % 4 ≠ 0 || 65536 ≤ off then .next (logViol s0 4 f 0 off v.toNat)
  else if f = 0 && off = 0xFFFC then
    .next (if (s0.queue? adminQid).any (·.st == .active) then kickQueue adminQid s0 else logViol s0 4 f 0 off v.toNat)
  else if liveQueue s0 qid f then .next (kickQueue qid s0)
  else .next (logViol s0 4 f 0 off v.toNat)

/-- One resident queue's part of a sweep. -/
def sweepQueue (q : Nat) (s : State) : State :=
  let s1 := readDoorbell q s
  match s1.queue? q with
  | some x => if waitsUnregistered s1 x then evalWait q true s1 else s1
  | none => s1

/-- The 1,024 live queues that are not resident, in round robin from where the last sweep ended. -/
def sweepTurn (s : State) : List Nat :=
  let ks := mkeys s.fe.queues (fun k x => k != adminQid && !x.resident && x.st != .destroyed)
  (ks.filter (fun k => decide (s.fe.sweepPos ≤ k)) ++ ks.filter (fun k => decide (k < s.fe.sweepPos))).take 1024

/-- SWEEP. -/
def execSweep (wr : List Host.Cell) (s : State) : Result :=
  let s0 := putCells s wr
  if !feRuns s0 then .next s0
  else
    let turn := sweepTurn s0
    let res := mkeys s0.fe.queues (fun k x => k == adminQid || x.resident)
    let s1 := foldState turn readDoorbell (foldState res sweepQueue s0)
    .next { s1 with fe := { s1.fe with sweepPos := match turn.getLast? with
      | some k => k + 1
      | none => s1.fe.sweepPos } }

/-! ### Binding a plan version (R239 to R241, R261) -/

/-- The current version of a context's plan slot. -/
def currentVer (s : State) (ctx slot : Nat) : Option (Nat × PlanVer) :=
  s.fe.vers.foldl (fun b p =>
    if p.2.ctx == ctx && p.2.slot == slot && p.2.stored then
      match b with
      | none => some p
      | some y => if y.2.num < p.2.num then some p else b
    else b) none

def lSlot (d : W512) : Nat := dField d 56 2
def lBatch (d : W512) : Nat := dField d 58 2
def lSeq (d : W512) : Nat := dField d 60 4
def lArgs (d : W512) : Nat := dField d 40 8
def lDeadline (d : W512) : Nat := dField d 48 8

/-- The version a LAUNCH binds, by its menu if its plan has one, or the answer of R239 or R261. -/
def chooseVer (s : State) (ctx : Nat) (d : W512) : Except (Nat × Nat) Nat :=
  match currentVer s ctx (lSlot d) with
  | none => .error (1, 0x0802)
  | some (v, p) =>
    if p.plan.menu.isEmpty then .ok v
    else
      let fit := p.plan.menu.filter (fun m => decide (lSeq d ≤ m.chunk))
      if fit.isEmpty then .error (0x0A, 1)
      else
        match fit.find? (fun m => decide (lBatch d ≤ m.cap)) with
        | none => .error (0x0A, 2)
        | some m => match currentVer s ctx m.slot with
          | none => .error (1, 0x0802)
          | some (w, _) => .ok w

/-- The slots whose versions decide what a LAUNCH binds: its own, and the one its menu selects (R240, R261). -/
def bindSlots (s : State) (ctx : Nat) (d : W512) : List Nat :=
  lSlot d :: (match currentVer s ctx (lSlot d) with
    | none => []
    | some (_, p) => (((p.plan.menu.filter (fun m => decide (lSeq d ≤ m.chunk))).find? (fun m => decide (lBatch d ≤ m.cap))).map (·.slot)).toList)

/-- A load or patch of such a slot that stands before a LAUNCH in its queue and has not completed (R240). -/
def bindBlocked (s : State) (x : Queue) (i : Nat) (d : W512) : Bool :=
  x.descs.any (fun e => decide (e.1 < i) && (dOpcode e.2.raw == 0x101 || dOpcode e.2.raw == 0x102)
    && (bindSlots s x.ctx d).contains (dField e.2.raw 48 2))

/-- Bind a read LAUNCH, once nothing before it can change its slot. -/
def bindLaunch (q i : Nat) (s : State) : State :=
  match s.queue? q, s.desc? q i with
  | some x, some d =>
    if d.bound || dOpcode d.raw != 0x100 || d.phase != .read || bindBlocked s x i d.raw then s
    else
      match chooseVer s x.ctx d.raw with
      | .ok v => s.setDesc q i { d with bound := true, ver := some v }
      | .error e => s.setDesc q i { d with bound := true, bindErr := some e, menuEnd := (currentVer s x.ctx (lSlot d.raw)).isSome }
  | _, _ => s

/-- Bind what a completed load or patch held back. -/
def bindAll (q : Nat) (s : State) : State :=
  match s.queue? q with
  | none => s
  | some x => foldState (x.descs.map (·.1)) (bindLaunch q) s

/-! ### Reading a descriptor (R212, R281) -/

/-- Descriptors read and not yet completed (R215). -/
def inFlight (s : State) : Nat := (s.fe.queues.map (fun e => e.2.descs.length)).sum

/-- Whether descriptor CONSUMER of a queue may be read now. -/
def mayRead (s : State) (x : Queue) : Bool :=
  let d := diff64 x.producer x.consumer
  feRuns s && x.st == .active && x.resident && decide (0 < d) && decide (d ≤ ((2 ^ x.sizeLog2 : Nat) : Int))
    && !(decide (2 ^ x.sizeLog2 ≤ x.consumer) && (mfind x.descs (x.consumer - 2 ^ x.sizeLog2)).isSome) && decide (inFlight s < 40960)

/-- Copy the next descriptor, over the front end's bridge (R349), write CONSUMER, and bind it if it is a LAUNCH (R212, R240). -/
def readNext (q : Nat) (s : State) : State :=
  match s.queue? q with
  | none => s
  | some x =>
    if !mayRead s x then s
    else
      let va := x.ringVa + 64 * (x.consumer % 2 ^ x.sizeLog2)
      let k := qWalk s q x va 64 false
      match k.stop with
      | some (.bad st d) => ringFault q x va st d s
      | some (.wait page) => ringWait s x page
      | some _ => ringFault q x va 3 0x0703 s
      | none =>
        let raw : W512 := BitVec.ofNat 512 (ofLe (crossed (feRatio s) s (readPieces s k.pieces)))
        let y : Queue := { x with
          descs := mins x.descs x.consumer { raw := raw, cur := raw }
          consumer := (x.consumer + 1) % 2 ^ 64
          idleSince := s.now }
        bindLaunch q x.consumer (writeStatus q (tickCross (feRatio s) 64 (s.setQueue q y)))

/-- DESCRIPTOR_READ. -/
def execDescriptorRead (q : Nat) (s : State) : Result := .next (readNext q s)

/-- LAUNCH (R220, R240, R261): the read of a launch descriptor, which binds its plan version. -/
def execLaunch (q i : Nat) (s : State) : Result :=
  let s1 := match s.queue? q with
    | some x => if x.consumer = i then readNext q s else s
    | none => s
  .next (bindLaunch q i s1)

/-- Launches and bound descriptors hold their versions (R239). -/
def verBound (s : State) (v : Nat) : Bool :=
  s.fe.launches.any (fun p => p.2.ver == v) || s.fe.queues.any (fun e => e.2.descs.any (fun d => d.2.ver == some v))

/-- PLAN_RESIDENCY (R241): one of 48 resident slots, replacing the least recently used version that no launch holds. -/
def execPlanResidency (q i : Nat) (s : State) : Result :=
  match (s.desc? q i).bind (·.ver) with
  | none => .next s
  | some v => if feRuns s then .next ((useVer v s).getD s) else .next s

/-! ### The checks at the head (R10, R51, R194, R217, R219, R233, R235) -/

/-- The admin queue's type code, beside those of R210. -/
def typAdmin : Nat := 5
def qType (q : Nat) (x : Queue) : Nat := if q = adminQid then typAdmin else x.typ

/-- Queue types that serve an opcode (R219). -/
def opTypes (op : Nat) : List Nat :=
  if op = 0 then [0, 1, 2, 3, 4, 5]
  else if op = 1 || op = 2 then [0, 1]
  else if op = 3 then [0, 1, 5]
  else if 0x100 ≤ op && op ≤ 0x103 then [0]
  else if op = 0x200 || op = 0x201 || op = 0x206 then [1]
  else if (0x202 ≤ op && op ≤ 0x205) || op = 0x207 then [0, 1]
  else if op = 0x300 then [2]
  else if op = 0x400 || op = 0x401 then [3]
  else if op = 0x500 || op = 0x501 then [4]
  else if 0xF00 ≤ op && op ≤ 0xF03 then [5]
  else []

/-- Opcodes that may chain and be chained (R219: S and T name the same four). -/
def chains (op : Nat) : Bool := op == 0x200 || op == 0x201 || op == 0x400 || op == 0x401

/-- Operand fields as (first bit from byte 40, width) (R220, R221); the other bits are reserved. -/
def opFields (op : Nat) : List (Nat × Nat) :=
  if op = 1 then [(0, 64), (64, 64), (128, 5)]
  else if op = 2 then [(0, 64)]
  else if op = 3 then [(0, 64), (64, 16), (80, 1)]
  else if op = 0x100 then [(0, 192)]
  else if op = 0x101 || op = 0x102 then [(0, 64), (64, 16)]
  else if op = 0x103 then [(64, 16)]
  else if op = 0x200 || op = 0x201 then [(0, 192)]
  else if op = 0x202 then [(0, 23), (32, 24), (64, 3)]
  else if op = 0x203 then [(0, 32)]
  else if op = 0x204 || op = 0x205 then [(0, 96)]
  else if op = 0x206 then [(0, 96), (96, 2), (128, 64)]
  else if op = 0x207 then [(0, 96), (96, 5)]
  else if op = 0x300 || op = 0x500 || op = 0x501 then [(0, 96)]
  else if op = 0x400 || op = 0x401 then [(0, 96), (160, 32)]
  else if op = 0xF00 || op = 0xF02 then [(0, 64)]
  else if op = 0xF01 then [(0, 16)]
  else if op = 0xF03 then [(0, 20)]
  else []

/-- `w` with a list of fields cleared. -/
def clearFields (w : Nat) (fs : List (Nat × Nat)) : Nat := fs.foldl (fun a f => setField a f.1 f.2 0) w

/-- Every reserved bit, field and value of a descriptor is 0 or defined (R10, R217 check 2; log entry 18 for the fields whose
enable is 0). -/
def reservedOk (q : Nat) (d : W512) : Bool :=
  let op := dOpcode d
  clearFields (d.toNat / 2 ^ 320) (opFields op) == 0 && dFlags d < 64
    && (dWaitEn d || dWaitAddr d == 0) && (dSignalEn d || dSignalAddr d == 0)
    && (!dChain d || chains op) && (dChain d || !chains op || dField d 60 4 == 0)
    && !(op == 3 && (dField d 40 8 % 64 != 0 || (q != adminQid && dField d 48 2 != 0)))
    && !((op == 0x101 || op == 0x102) && (dField d 40 8 % 64 != 0 || decide (localEnd ≤ dField d 40 8)))
    && !(op == 0x202 && dField d 48 1 % 4 == 3) && !(op == 0x206 && dField d 52 1 % 4 == 3) && !(op == 0x207 && dField d 52 1 % 4 == 3)

def inCaravan (va : Nat) : Bool := decide (caravanBase ≤ va) && decide (va < hostBase)
def fenceVaOk (va : Nat) : Bool := va % 16 == 0 && !inCaravan va

/-- Check 4 of R217. -/
def fencesOk (s : State) (q : Nat) (x : Queue) (d : W512) : Bool :=
  if q = adminQid then !dWaitEn d && !dSignalEn d
  else
    (!dWaitEn d || fenceVaOk (dWaitAddr d))
      && (!dSignalEn d || (fenceVaOk (dSignalAddr d) && (match fenceFind s x.ctx (dSignalAddr d) with
        | some (_, f) => f.ctx == x.ctx
        | none => false)))
      && !((dOpcode d == 1 || dOpcode d == 2) && !fenceVaOk (dField d 40 8))

/-- Check 5: the deadline field (R51). -/
def deadlineOk (d : W512) : Bool :=
  if dOpcode d ≠ 0x100 then true
  else
    let f := lDeadline d
    if dClass d = 1 then f == 0
    else
      match f / 2 ^ 62 with
      | 0 => true
      | 1 => field f 48 14 == 0
      | 2 => field f 48 12 == 0
      | _ => false

/-- Check 6: TRANSLATED and host slots (R194): its DETAIL. -/
def translatedBad (s : State) (x : Queue) (d : Desc) : Option Nat :=
  if dTranslated d.raw && !(s.func x.fn).atsEnable then some 0x0703
  else if dOpcode d.raw = 0x100 && dClass d.raw = 0 && !dTranslated d.raw
      && (match d.ver.bind s.planOf with
        | some p => p.place.contains 4
        | none => false) then some 0x0701
  else none

/-- Vectors of a function (R273). -/
def vectorsOf (fn : Nat) : Nat := if fn = 0 then 2048 else 32

/-- A creation record as a number, read from its host bus address. -/
def creationRecord (s : State) (d : W512) : Nat := ofLe (readPhys s (hostBase + dField d 40 8) 64)

/-- Check 9 for CTX_CREATE: the ranges of R233. -/
def ctxRecordOk (w : Nat) : Bool :=
  clearFields w [(0, 6), (8, 1), (32, 20), (64, 23), (96, 24), (128, 64), (192, 17), (224, 21)] == 0
    && decide (1 ≤ field w 96 24) && decide (field w 96 24 ≤ nLta)
    && field w 128 64 % 16 == 0 && decide (field w 128 64 < localEnd) && decide (field w 192 17 ≤ 65536) && decide (field w 224 21 ≤ 1048576)

/-- An address of a queue: local or host aperture, aligned. -/
def queueVaOk (va align : Nat) : Bool :=
  va % align == 0 && (decide (va < localEnd) || (decide (hostBase ≤ va) && decide (va < 2 ^ 57)))

def typeArgOk (typ arg : Nat) : Bool :=
  if typ = 2 then decide (arg ≤ 3) else if typ = 3 then decide (arg ≤ 3) || arg == 0xFF else arg == 0

/-- Check 9 for QUEUE_CREATE: the ranges of R211 and R235, and a VECTOR other than 0 within the function's (R277). -/
def queueRecordOk (s : State) (w : Nat) : Bool :=
  let fn := match s.ctx? (field w 0 16) with
    | some c => c.fn
    | none => 0
  clearFields w [(0, 20), (24, 5), (32, 5), (40, 2), (48, 11), (64, 320), (384, 8)] == 0
    && decide (field w 24 3 ≤ 4) && decide (4 ≤ field w 32 5) && decide (field w 32 5 ≤ 20)
    && field w 48 11 != 0 && decide (field w 48 11 < vectorsOf fn)
    && queueVaOk (field w 64 64) 4096 && queueVaOk (field w 128 64) 8 && queueVaOk (field w 192 64) 4096 && queueVaOk (field w 256 64) 16
    && typeArgOk (field w 24 3) (field w 384 8)

/-- The DETAIL of the first check of R217 that a descriptor fails. -/
def headCheck (s : State) (q : Nat) (x : Queue) (d : Desc) : Option Nat :=
  let r := d.raw
  let op := dOpcode r
  if !(opTypes op).contains (qType q x) then some 0x0801
  else if !reservedOk q r then some 0x0802
  else if !(dClass r == 1 || (dClass r == 0 && op == 0x100)) then some 0x0803
  else if !fencesOk s q x r then some 0x0804
  else if !deadlineOk r then some 0x0805
  else
    match translatedBad s x d with
    | some e => some e
    | none =>
      if op = 0x100 && (lArgs r % 8 != 0 || (dClass r == 0 && decide (localEnd ≤ lArgs r))) then some 0x0808
      else if op = 0x200 && overlaps (dField r 40 8) (dField r 56 4) (dField r 48 8) (dField r 56 4) then some 0x0809
      else if op = 0xF00 && reqOpen s 0 (dField r 40 8) && !ctxRecordOk (creationRecord s r) then some 0x0807
      else if op = 0xF02 && reqOpen s 0 (dField r 40 8) && !queueRecordOk s (creationRecord s r) then some 0x0807
      else if op = 0x202 && dField r 44 4 == 0 then some 0x080A
      else none

/-- A LAUNCH reaches the head only once its version is bound and resident (R218, R240, R241). -/
def launchReady (s : State) (d : Desc) : Bool :=
  dOpcode d.raw != 0x100 || (d.bound && (match d.ver with
    | some v => s.fe.resident.contains v
    | none => true))

end Sys2Proof.Machine
end

