-- ==== Sys2Proof/Machine/Objects.lean ====
section
/-! DEFINITION. What descriptors do to objects: lengths and bounds (R223), fences (R227), the context query (R222), memory
objects (R186, R187, R195, R196, R238), copies and fills (R221, R249), and completion with its chains (R224, R225, R229, R230). -/

namespace Sys2Proof.Machine

/-! ### Lengths and bounds (R223) -/

/-- A named local range against its object: BOUNDS or UNMAPPED_LOCAL (R223). Host and caravan ranges are checked by translation. -/
def rangeCheck (s : State) (ctx va len : Nat) : Option (Nat × Nat) :=
  if localEnd ≤ va || len = 0 then none
  else
    match objOfPage s ctx (va / 65536) with
    | none => some (3, 0x0701)
    | some (p, o) => if va + len ≤ (p + o.count) * 65536 then none else some (1, 0x0801)

def objAt (s : State) (ctx h : Nat) : Option Obj := if h < 2 ^ 23 then mfind s.fe.objs (2 ^ 23 * ctx + h) else none
def setObj (s : State) (ctx h : Nat) (o : Obj) : State := { s with fe := { s.fe with objs := mins s.fe.objs (2 ^ 23 * ctx + h) o } }

/-- An object handle and page range. -/
def pagesCheck (s : State) (ctx : Nat) (d : W512) : Option (Nat × Nat) :=
  match objAt s ctx (dField d 40 4) with
  | none => some (1, 0x0802)
  | some o => if dField d 48 4 = 0 || dField d 44 4 + dField d 48 4 ≤ o.count then none else some (1, 0x0801)

/-- First failed check of a list of local ranges. -/
def rangesCheck (s : State) (ctx : Nat) (rs : List (Nat × Nat)) : Option (Nat × Nat) := rs.findSome? (fun r => rangeCheck s ctx r.1 r.2)

/-- The checks of R223 on a descriptor: ranges and handles; the PRODUCER of a FENCE_REGISTER is a live queue of its context. -/
def releaseCheck (s : State) (q : Nat) (x : Queue) (d : W512) : Option (Nat × Nat) :=
  let op := dOpcode d
  let len := dField d 56 4
  if q = adminQid then none
  else if op = 1 then
    (match rangeCheck s x.ctx (dField d 40 8) 16 with
      | some e => some e
      | none => if liveQueue s (16 * x.ctx + field (dField d 56 1) 0 4) x.fn then none else some (1, 0x0802))
  else if op = 2 then rangeCheck s x.ctx (dField d 40 8) 16
  else if op = 3 then rangeCheck s x.ctx (dField d 40 8) 64
  else if op = 0x101 || op = 0x102 then rangeCheck s x.ctx (dField d 40 8) 64
  else if op = 0x200 then rangesCheck s x.ctx [(dField d 40 8, len), (dField d 48 8, len)]
  else if op = 0x201 then rangeCheck s x.ctx (dField d 40 8) len
  else if op = 0x203 then (if (objAt s x.ctx (dField d 40 4)).isSome then none else some (1, 0x0802))
  else if op = 0x204 || op = 0x205 || op = 0x206 || op = 0x207 then pagesCheck s x.ctx d
  else if op = 0x300 || op = 0x400 || op = 0x401 || op = 0x500 || op = 0x501 then rangeCheck s x.ctx (dField d 40 8) (dField d 48 4)
  else none

/-- A refusal by translation fills the context's record (R199); the others do not. -/
def refuseAt (q i ctx va tag st d : Nat) (s : State) : State :=
  refuse q i st d (if st = 3 then fillFault s ctx ⟨va, 0, st, d, 2, 255, tag, 0⟩ else s)

/-! ### Rows that act on a released descriptor -/

/-- A command that does a released descriptor's work: its queue, its descriptor and the word being served. -/
def descRow (op : Nat) (eff : Queue → Desc → W512 → State → State) (q i : Nat) (s : State) : Result :=
  match s.queue? q, s.desc? q i with
  | some x, some d => if feRuns s && d.phase == .released && dOpcode d.cur == op then .next (eff x d d.cur s) else .next s
  | _, _ => .next s

def done (q i result : Nat) (s : State) : State := finishDesc s q i 0 0 result true
def failed (q i st d : Nat) (s : State) : State := finishDesc s q i st d 0 true

/-- NOP (R219). -/
def execNop (q i : Nat) (s : State) : Result := descRow 0 (fun _ _ _ s => done q i 0 s) q i s

/-! ### Fences (R226, R227) -/

def ctxFences (s : State) (ctx : Nat) : Nat := (s.fe.fences.filter (fun e => e.2.ctx == ctx)).length

/-- A descriptor that waits for a host page or ends with a translation failure. -/
def stopDesc (q i : Nat) (x : Queue) (d : W512) (va source off : Nat) (t : Tr) (result : Nat) (s : State) : State :=
  match t with
  | .wait page => (match s.ctx? x.ctx with
    | some c => noteWait s c (userDesc q i) page
    | none => s)
  | .bad st dt => finishDesc (fillFault s x.ctx ⟨va, 0, st, dt, source, 255, dTag d, off⟩) q i st dt result true
  | _ => finishDesc (fillFault s x.ctx ⟨va, 0, 3, 0x0703, source, 255, dTag d, off⟩) q i 3 0x0703 result true

/-- FENCE_REGISTER. The entry taken is the lowest free one (log entry 19). -/
def execFenceRegister (q i : Nat) (s : State) : Result :=
  descRow 1 (fun x _ d s =>
    let va := dField d 40 8
    let prod := field (dField d 56 1) 0 4
    let set := fun (s : State) idx v =>
      let f : Fence := { va := va, value := v, ctx := x.ctx, queue := prod }
      done q i idx (mirrorFence (setFence s idx f) idx f true (dTag d))
    match readRecord s x.ctx va (userDesc q i) with
    | .error t => stopDesc q i x d va 2 0 t 0 s
    | .ok bs =>
      let v := if bitOf (dField d 56 1) 4 then dField d 48 8 else ofLe (bs.take 8)
      match fenceFind s x.ctx va with
      | some (idx, f) => if f.ctx = x.ctx then set s idx v else failed q i 1 0x0806 s
      | none =>
        let cap := match s.ctx? x.ctx with
          | some c => c.fenceMax
          | none => 0
        match mfresh s.fe.fences (s.fe.fences.length + 1) 0 with
        | some idx => if 1048576 ≤ s.fe.fences.length || cap ≤ ctxFences s x.ctx then failed q i 1 0x0804 s else set s idx v
        | none => failed q i 1 0x0804 s) q i s

/-- FENCE_RELEASE. -/
def execFenceRelease (q i : Nat) (s : State) : Result :=
  descRow 2 (fun x _ d s =>
    match fenceFind s x.ctx (dField d 40 8) with
    | none => failed q i 1 0x0802 s
    | some (idx, f) =>
      if f.ctx ≠ x.ctx then failed q i 1 0x0802 s
      else
        let s1 := { s with fe := { s.fe with fences := mdel s.fe.fences idx } }
        done q i 0 (mirrorFence s1 idx f false (dTag d))) q i s

/-! ### The context query (R222, R199) -/

def ltaPages (c : Ctx) : List Nat := (List.range c.ltaCount).map (c.ltaBase + ·)

/-- LTA entries of a context that are VALID. -/
def validPages (s : State) (c : Ctx) : Nat :=
  (s.mem.lta.filter (fun e => decide (c.ltaBase ≤ e.1) && decide (e.1 < c.ltaBase + c.ltaCount) && ltaValid e.2)).length

def faultBytes (f : Option FaultRec) : List Byte :=
  match f with
  | none => leBytes 32 0
  | some r => leBytes 8 r.va ++ leBytes 4 r.count ++ leBytes 2 r.status ++ leBytes 2 r.detail ++ leBytes 1 r.source ++ leBytes 3 r.region
      ++ leBytes 4 r.index ++ leBytes 8 r.offset

/-- Frames ALLOCATED to a context: those its entries map, and those released that work in flight still uses (R187, R222). -/
def ctxFrames (s : State) (c : Ctx) : Nat :=
  validPages s c + (s.mem.heldLta.filter (fun e => e.2 == c.ltaBase && mget s.mem.frames .scrubbing e.1 == .held)).length

def queryBytes (s : State) (c : Ctx) : List Byte :=
  faultBytes c.fault ++ leBytes 8 c.cycles ++ leBytes 8 c.bytes ++ leBytes 8 c.energy ++ leBytes 4 (ctxFrames s c) ++ leBytes 4 c.launches

/-- Clear the fault record and show it in the status entry (R222, R234). -/
def clearFault (ctx : Nat) (s : State) : State :=
  match s.ctx? ctx with
  | none => s
  | some c => writeCtxEntry (s.setCtx ctx { c with fault := none }) ctx

/-- CTX_QUERY. -/
def execCtxQuery (q i : Nat) (s : State) : Result :=
  descRow 3 (fun x _ d s =>
    let ctx := if q = adminQid then dField d 48 2 else x.ctx
    let fin := fun (s : State) => done q i 0 (if bitOf (dField d 50 1) 0 then clearFault ctx s else s)
    match s.ctx? ctx with
    | none => failed q i 1 0x0802 s
    | some c =>
      if q = adminQid then (match hostBar s 0 (dField d 40 8) with
        | some e => failed q i 4 e s
        | none => fin (writePhys s (hostBase + dField d 40 8) (queryBytes s c)))
      else
        let k := walkVa s c (dTranslated d) (userDesc q i) (dField d 40 8) 64 true
        match k.stop with
        | none => fin (writePieces s k.pieces (queryBytes s c))
        | some t => stopDesc q i x d (dField d 40 8 + k.moved) 2 k.moved t 0 s) q i s

/-! ### LTA entries and frames (R185 to R188) -/

def ltaGet (s : State) (k : Nat) : W32 := mget s.mem.lta 0 k
def ltaSet (s : State) (k : Nat) (e : Nat) : State := { s with mem := { s.mem with lta := mset s.mem.lta 0 k (BitVec.ofNat 32 e) } }
def ltaReadMostly (e : W32) : Bool := e.getLsbD 25
def ltaDuplicate (e : W32) : Bool := e.getLsbD 26
def ltaPreferred (e : W32) : Nat := field e.toNat 27 2

/-- A page that carries the container of a plan version (R239). -/
def planHeld (s : State) (ctx first n : Nat) : Bool :=
  s.fe.vers.any (fun e => e.2.ctx == ctx && overlaps e.2.firstPage e.2.pages first n)

/-- A page of a live export (R299). -/
def exportHeld (s : State) (ctx first n : Nat) : Bool :=
  s.net.exports.any (fun e => e.2.live && e.2.ctx == ctx && overlaps e.2.va e.2.len (first * 65536) (n * 65536))

/-- The stack of page `k` of an object (R186). -/
def stackFor (o : Obj) (k : Nat) : Nat := if o.place = 2 then (o.s0 + k) % 8 else 4 * o.place + (o.s0 + k) % 4

/-- The READY stack, of a list, with the most FREE frames; the lowest-numbered on a tie. -/
def mostFree (s : State) (ks : List Nat) : Nat :=
  match (ks.filter (stackReady s)).foldl (fun (b : Option (Nat × Nat)) k => match b with
      | none => some (k, freeIn s k)
      | some y => if y.2 < freeIn s k then some (k, freeIn s k) else some y) none with
  | some y => y.1
  | none => ks.headD 0

def chooseS0 (s : State) (place : Nat) : Nat :=
  if place = 2 then mostFree s (List.range 8) else mostFree s ((List.range 4).map (4 * place + ·)) % 4

/-- Frames ALLOCATED to a function: those its contexts' entries map, and those released that work in flight still uses (R187). -/
def fnFrames (s : State) (fn : Nat) : Nat :=
  ((s.fe.ctxs.filter (fun e => e.2.fn == fn)).map (fun e => validPages s e.2)).sum
    + (s.mem.heldFn.filter (fun e => e.2 == fn && mget s.mem.frames .scrubbing e.1 == .held)).length

def quota (s : State) (fn : Nat) : Nat := field (rd s (0x020300 + 4 * fn)) 0 23

/-- Lowest-numbered FREE frame of a READY stack (log entry 19). -/
def pickFrame (s : State) (k : Nat) : Option Nat :=
  if stackReady s k then
    (s.mem.frames.find? (fun e => e.2 == .free && stackOf e.1 == k && !inReserved s e.1)).map (·.1)
  else none

/-- An LTA entry that maps a frame. -/
def validEntry (e frame : Nat) (writable : Bool) : Nat := setField (setField (setField e 0 23 frame) 23 1 1) 24 1 (b2n writable)

/-- Map one page of an object; `dup` gives a read-only copy (R195). -/
def mapPage (s : State) (c : Ctx) (h : Nat) (o : Obj) (k : Nat) (dup : Bool) : Option (State × Nat) :=
  match pickFrame s (stackFor o k) with
  | none => none
  | some f =>
    let e := (ltaGet s (c.ltaBase + h + k)).toNat
    some (ltaSet (setFrame s f .allocated) (c.ltaBase + h + k) (setField (validEntry e f (o.writable && !dup)) 26 1 (b2n dup)), f)

/-- Map a list of pages of an object. -/
def mapPages (c : Ctx) (h : Nat) (o : Obj) (ks : List Nat) (s : State) : State :=
  foldState ks (fun k a => match mapPage a c h o k false with
    | some (b, _) => b
    | none => a) s

/-- Unmap one page and release its frame. -/
def unmapPage (c : Ctx) (p : Nat) (s : State) : State :=
  let e := ltaGet s (c.ltaBase + p)
  if ltaValid e then
    releaseFrame c (ltaFrame e) (ltaSet s (c.ltaBase + p) (setField (setField (setField e.toNat 0 23 0) 23 1 0) 26 1 0))
  else s

def pageRange (d : W512) : List Nat := (List.range (dField d 48 4)).map (dField d 44 4 + ·)

/-! ### Memory objects (R238) -/

/-- MEM_ALLOC. -/
def execMemAlloc (q i : Nat) (s : State) : Result :=
  descRow 0x202 (fun x _ d s =>
    match s.ctx? x.ctx with
    | none => s
    | some c =>
      let p := dField d 40 4
      let n := dField d 44 4
      let place := field (dField d 48 1) 0 2
      let w := bitOf (dField d 48 1) 2
      if c.ltaCount < p + n || s.fe.objs.any (fun e => e.1 / 2 ^ 23 == x.ctx && overlaps (e.1 % 2 ^ 23) e.2.count p n) then failed q i 1 0x0805 s
      else
        let s1 := setObj s x.ctx p ⟨n, place, w, chooseS0 s place⟩
        done q i p (foldState (List.range n) (fun k a => ltaSet a (c.ltaBase + p + k) (b2n w * 2 ^ 24 + place * 2 ^ 29)) s1)) q i s

/-- Pages of a range that are not VALID. -/
def emptyPages (s : State) (c : Ctx) (h : Nat) (ks : List Nat) : List Nat :=
  ks.filter (fun k => !ltaValid (ltaGet s (c.ltaBase + h + k)))

/-- Frames that a list of pages needs on each stack. -/
def needOn (o : Obj) (ks : List Nat) (st : Nat) : Nat := (ks.filter (fun k => stackFor o k == st)).length

/-- MEM_MAP: the whole range or nothing; it waits while frames are still being scrubbed (R186). -/
def execMemMap (q i : Nat) (s : State) : Result :=
  descRow 0x204 (fun x _ d s =>
    match s.ctx? x.ctx, objAt s x.ctx (dField d 40 4) with
    | some c, some o =>
      let h := dField d 40 4
      let ks := emptyPages s c h (pageRange d)
      let live := fun st n => if stackReady s st then n else 0
      if (pageRange d).isEmpty then done q i 0 s
      else if quota s c.fn < fnFrames s c.fn + ks.length then failed q i 1 0x0701 s
      else if (List.range 8).all (fun st => needOn o ks st ≤ live st (freeIn s st)) then
        done q i 0 (mapPages c h o ks (contextWalk x.ctx s))
      else if (List.range 8).all (fun st => needOn o ks st ≤ live st (freeIn s st + scrubIn s st)) then s
      else failed q i 1 0x0702 s
    | _, _ => failed q i 1 0x0802 s) q i s

/-- MEM_UNMAP. -/
def execMemUnmap (q i : Nat) (s : State) : Result :=
  descRow 0x205 (fun x _ d s =>
    match s.ctx? x.ctx with
    | none => s
    | some c =>
      let h := dField d 40 4
      if (objAt s x.ctx h).isNone then failed q i 1 0x0802 s
      else if (pageRange d).isEmpty then done q i 0 s
      else if planHeld s x.ctx (h + dField d 44 4) (dField d 48 4) then failed q i 1 0x0803 s
      else if exportHeld s x.ctx (h + dField d 44 4) (dField d 48 4) then failed q i 1 0x0B02 s
      else done q i 0 (settleStacks (foldState (pageRange d) (fun k a => unmapPage c (h + k) a) (contextWalk x.ctx s)))) q i s

/-- MEM_FREE. -/
def execMemFree (q i : Nat) (s : State) : Result :=
  descRow 0x203 (fun x _ d s =>
    match s.ctx? x.ctx, objAt s x.ctx (dField d 40 4) with
    | some c, some o =>
      let h := dField d 40 4
      if planHeld s x.ctx h o.count then failed q i 1 0x0803 s
      else if exportHeld s x.ctx h o.count then failed q i 1 0x0B02 s
      else
        let s1 := foldState (List.range o.count) (fun k a => ltaSet (unmapPage c (h + k) a) (c.ltaBase + h + k) 0) (contextWalk x.ctx s)
        done q i 0 (settleStacks { s1 with fe := { s1.fe with objs := mdel s1.fe.objs (2 ^ 23 * x.ctx + h) } })
    | _, _ => failed q i 1 0x0802 s) q i s

/-! ### MIGRATE and ADVISE (R195, R196) -/

/-- Move one page to the device: the next state, or the failure or wait. -/
def pageIn (s : State) (x : Queue) (c : Ctx) (o : Obj) (q i h k host : Nat) (d : W512) : Except Tr State :=
  let e := ltaGet s (c.ltaBase + h + k)
  if ltaValid e then .ok s
  else if quota s c.fn < fnFrames s c.fn + 1 then .error (.bad 1 0x0701)
  else
    let w := walkVa s c (dTranslated d) (userDesc q i) host 65536 false
    match w.stop with
    | some t => .error t
    | none =>
      match mapPage s c h o k (ltaReadMostly e) with
      | none => if stackReady s (stackFor o k) && 0 < scrubIn s (stackFor o k) then .error (.peer 0 x.ctx) else .error (.bad 1 0x0702)
      | some (s1, f) => .ok (countHub 65536 (hubWrite s1 [(f * 65536, 65536)] (readPieces s w.pieces)))

/-- Move one page to the host. -/
def pageOut (s : State) (c : Ctx) (q i h k host : Nat) (d : W512) : Except Tr State :=
  let e := ltaGet s (c.ltaBase + h + k)
  if !ltaValid e then .ok s
  else if ltaDuplicate e then .ok (unmapPage c (h + k) s)
  else
    let w := walkVa s c (dTranslated d) (userDesc q i) host 65536 true
    match w.stop with
    | some t => .error t
    | none =>
      let ps := [(ltaFrame e * 65536, 65536)]
      .ok (countHub 65536 (unmapPage c (h + k) (writePieces (tickHub ps s) w.pieces (hubRead s ps))))

/-- Move pages in order until one fails; each moves whole or not at all. -/
def migrateFrom (x : Queue) (c : Ctx) (o : Obj) (q i : Nat) (d : W512) : (fuel n : Nat) → State → State
  | 0, n, s => done q i (n * 65536) s
  | m + 1, n, s =>
    let h := dField d 40 4
    let k := dField d 44 4 + n
    let host := dField d 56 8 + n * 65536
    let pref := ltaPreferred (ltaGet s (c.ltaBase + h + k))
    let dir := field (dField d 52 1) 0 2
    let inward := dir == 0 || (dir == 2 && pref == 1)
    let outward := dir == 1 || (dir == 2 && pref == 2)
    let r := if inward then pageIn s x c o q i h k host d
      else if !outward then .ok s
      else if planHeld s x.ctx (h + k) 1 then .error (.bad 1 0x0803)
      else pageOut s c q i h k host d
    match r with
    | .ok s1 => migrateFrom x c o q i d m (n + 1) s1
    | .error (.peer 0 _) => s
    | .error (.bad 1 e) => finishDesc s q i 1 e (n * 65536) true
    | .error t => stopDesc q i x d host 3 (n * 65536) t (n * 65536) s

/-- The dies that carry an object's pages (R186). -/
def objDies (o : Obj) : List Nat := if o.place = 2 then [0, 1] else [o.place]

/-- MIGRATE, page by page. One of a page that a plan version holds ends there, and HOST_VA below the host aperture does not translate
(log entry 20). -/
def execMigrate (q i : Nat) (s : State) : Result :=
  descRow 0x206 (fun x _ d s =>
    match s.ctx? x.ctx, objAt s x.ctx (dField d 40 4) with
    | some c, some o =>
      let n := dField d 48 4
      if n = 0 then done q i 0 s
      else if dField d 56 8 < hostBase then stopDesc q i x d (dField d 56 8) 3 0 (.bad 3 0x0703) 0 s
      else if !(objDies o).all (memRuns s) then s
      else settleStacks (migrateFrom x c o q i d n 0 (contextWalk x.ctx s))
    | _, _ => failed q i 1 0x0802 s) q i s

/-- ADVISE on one page. -/
def advisePage (c : Ctx) (o : Obj) (held : Bool) (p adv : Nat) (s : State) : State :=
  let e := ltaGet s (c.ltaBase + p)
  let e1 := if bitOf adv 2 then setField e.toNat 27 2 adv else e.toNat
  let e2 := if bitOf adv 4 then setField e1 25 1 (adv / 8) else e1
  let e3 := if bitOf adv 4 && !bitOf adv 3 && ltaDuplicate e then
    setField (setField e2 26 1 0) 24 1 (b2n (o.writable && !held)) else e2
  ltaSet s (c.ltaBase + p) e3

/-- ADVISE. -/
def execAdvise (q i : Nat) (s : State) : Result :=
  descRow 0x207 (fun x _ d s =>
    match s.ctx? x.ctx, objAt s x.ctx (dField d 40 4) with
    | some c, some o =>
      let h := dField d 40 4
      if (pageRange d).isEmpty then done q i 0 s
      else done q i 0 (foldState (pageRange d) (fun k a =>
        advisePage c o (planHeld a x.ctx (h + k) 1) (h + k) (dField d 52 1) a) (contextWalk x.ctx s))
    | _, _ => failed q i 1 0x0802 s) q i s

/-! ### Copies and fills (R221, R249, R197, R198) -/

/-- One end of a copy: its pieces, or a peer's node, export and offset, with the stop of its translation. -/
def copyEnd (s : State) (x : Queue) (q i va len : Nat) (d : W512) (write : Bool) : Walk × Option (Nat × Nat × Nat) :=
  match s.ctx? x.ctx with
  | none => ({ stop := some (.bad 3 0x0701) }, none)
  | some c =>
    if inCaravan va then
      match peerOf s c ((va - caravanBase) / 2 ^ 39) ((va - caravanBase) % 2 ^ 39) len write with
      | .ok p => ({ moved := len }, some p)
      | .error (st, dt) => ({ stop := some (.bad st dt) }, none)
    else (walkVa s c (dTranslated d) (userDesc q i) va len write, none)

/-- A page to wait for, and failures of the two ends of a copy: the failing address and its stop, an all-or-nothing one first. -/
def copyStop (a b : Walk) (src dst : Nat) : Option (Nat × Tr × Nat) :=
  match a.stop, b.stop with
  | none, none => none
  | some (.wait p), _ => some (src, .wait p, 0)
  | _, some (.wait p) => some (dst, .wait p, 0)
  | some (.bad 3 e), _ => some (src, .bad 3 e, 0)
  | _, some (.bad 3 e) => some (dst, .bad 3 e, 0)
  | some t, none => some (src + a.moved, t, a.moved)
  | none, some t => some (dst + b.moved, t, b.moved)
  | some t, some u => if a.moved ≤ b.moved then some (src + a.moved, t, a.moved) else some (dst + b.moved, u, b.moved)

/-- The first `len` bytes of a COPY that reaches a peer move as a job of the caravan unit; it completes on acknowledgement or delivery
(R295 to R297), and then stops where the other end does (R198). -/
def copyJob (q i len : Nat) (a b : Walk) (pa pb : Option (Nat × Nat × Nat)) (stop : Option (Nat × Nat × Nat)) (s : State) : State :=
  let j : Job := { node := 0, user := .copy q i, write := false, export_ := 0, stop := stop }
  if s.net.jobs.any (fun e => e.2.user == .copy q i) then s
  else
    match pa, pb with
    | some (n, e, o), _ => peerRead { j with mem := takePieces len b.pieces, onward := pb } n e o len s
    | none, some (n, e, o) =>
      let ps := takePieces len a.pieces
      peerWrite { j with uses := ps } n e o (hubRead s ps) (tickHub ps s)
    | none, none => s

/-- The bytes of a COPY between memories: read, then written, by a hub engine. -/
def copyBytes (n : Nat) (a b : Walk) (s : State) : State :=
  let ps := takePieces n a.pieces
  countHub n (hubWrite (tickHub ps s) (takePieces n b.pieces) (hubRead s ps))

/-- The copy engine serves released copies and fills in PRIORITY order of their queues, then in release order; a stream that awaits a
page or a peer holds back no other (R192, R249). -/
def copyTurn (s : State) (q i : Nat) (x : Queue) (d : Desc) : Bool :=
  s.fe.queues.all (fun e => e.2.descs.all (fun f =>
    (e.1 == q && f.1 == i) || f.2.phase != .released || !(dOpcode f.2.cur == 0x200 || dOpcode f.2.cur == 0x201)
      || s.link.waits.any (fun w => w.user == userDesc e.1 f.1 && w.fail == none) || s.net.jobs.any (fun j => j.2.user == .copy e.1 f.1)
      || decide (e.2.prio < x.prio) || (e.2.prio == x.prio && (decide (d.stamp < f.2.stamp) || (d.stamp == f.2.stamp && decide (q < e.1 ∨ (q = e.1 ∧ i < f.1)))))))

/-- COPY: bytes move up to the first host page that fails, or not at all where a local or caravan range does. -/
def execCopy (q i : Nat) (s : State) : Result :=
  descRow 0x200 (fun x y d s =>
    let src := dField d 40 8
    let dst := dField d 48 8
    let len := dField d 56 4
    if !copyTurn s q i x y then s
    else if len = 0 then done q i 0 s
    else
      let (a, pa) := copyEnd s x q i src len d false
      let (b, pb) := copyEnd s x q i dst len d true
      match copyStop a b src dst with
      | some (_, .wait p, _) => stopDesc q i x d src 2 0 (.wait p) 0 s
      | some (va, t, n) =>
        if !piecesRun s (a.pieces ++ b.pieces) then s
        else
          (match pa.isSome || pb.isSome, n, t with
          | true, n + 1, .bad st dt => copyJob q i (n + 1) a b pa pb (some (st, dt, va)) s
          | true, _, _ => stopDesc q i x d va 2 0 t 0 s
          | false, _, _ => stopDesc q i x d va 2 n t n (copyBytes n a b s))
      | none =>
        if !piecesRun s (a.pieces ++ b.pieces) then s
        else if pa.isSome || pb.isSome then copyJob q i len a b pa pb none s
        else done q i len (copyBytes len a b s)) q i s

/-- Byte `a mod 8` of the pattern for each address (R221). -/
def fillBytes (pat va len : Nat) : List Byte := (List.range len).map (fun k => BitVec.ofNat 8 (field pat (8 * ((va + k) % 8)) 8))

/-- FILL. -/
def execFill (q i : Nat) (s : State) : Result :=
  descRow 0x201 (fun x y d s =>
    let dst := dField d 40 8
    let len := dField d 56 4
    let bs := fillBytes (dField d 48 8) dst len
    if !copyTurn s q i x y then s
    else if len = 0 then done q i 0 s
    else
      let (b, pb) := copyEnd s x q i dst len d true
      match b.stop, pb with
      | some (.wait p), _ => stopDesc q i x d dst 2 0 (.wait p) 0 s
      | some t, _ => stopDesc q i x d (dst + b.moved) 2 b.moved t b.moved (countHub b.moved (hubWrite s b.pieces bs))
      | none, some (n, e, o) =>
        if s.net.jobs.any (fun y => y.2.user == .copy q i) then s
        else peerWrite { node := n, user := .copy q i, write := true, export_ := e } n e o bs s
      | none, none => if piecesRun s b.pieces then done q i len (countHub len (hubWrite s b.pieces bs)) else s) q i s

/-! ### Media engines take their work (R336, R339) -/

def engine (s : State) (e : Nat) : Engine := mget s.engines {} e
def setEngine (s : State) (e : Nat) (x : Engine) : State := { s with engines := mset s.engines {} e x }
/-- An engine that serves: it has reported ready (R374). -/
def engineUp (s : State) (e : Nat) : Bool := isReady s (32 + e) && (engine s e).st == .ready

def isMedia (op : Nat) : Bool := op == 0x400 || op == 0x401

/-- Byte field of a record. -/
def rField (w byte len : Nat) : Nat := field w (8 * byte) (8 * len)

/-- The 128-byte record of a descriptor: its number, or how its translation stopped. -/
def mediaRecord (s : State) (x : Queue) (q i : Nat) (d : W512) : Except Tr Nat :=
  match s.ctx? x.ctx with
  | none => .error (.bad 3 0x0701)
  | some c =>
    let k := walkVa s c false (userDesc q i) (dField d 40 8) 128 false
    match k.stop with
    | none => .ok (ofLe (readPieces s k.pieces))
    | some t => .error t

/-- HOLD of a MEDIA_DECODE as it reads when the descriptor is released or, chained, started (R336). -/
def holdAt (s : State) (q i : Nat) (d : W512) : Option Nat :=
  if dOpcode d != 0x400 then none
  else match s.queue? q with
    | none => none
    | some x => match mediaRecord s x q i d with
      | .ok w => some (rField w 48 4)
      | .error _ => none

def stateVa (op w : Nat) : Nat := if op = 0x400 then rField w 16 8 else rField w 40 8

/-- STATE_VA of a media descriptor. -/
def stateOf (s : State) (q i : Nat) (x : Queue) (d : Desc) : Option Nat :=
  match mediaRecord s x q i d.cur with
  | .ok r => some (stateVa (dOpcode d.cur) r)
  | .error _ => none

/-- Released media descriptors: queue, number, the queue and the descriptor. -/
def mediaWork (s : State) : List (Nat × Nat × Queue × Desc) :=
  s.fe.queues.flatMap (fun e => if e.1 = adminQid then [] else
    (e.2.descs.filter (fun d => d.2.phase == .released && isMedia (dOpcode d.2.cur))).map (fun d => (e.1, d.1, e.2, d.2)))

/-- Whether `a` is served before `b`: by PRIORITY, then by release (R339). -/
def mediaBefore (a b : Nat × Nat × Queue × Desc) : Bool :=
  if a.2.2.1.prio != b.2.2.1.prio then decide (b.2.2.1.prio < a.2.2.1.prio)
  else if a.2.2.2.stamp != b.2.2.2.stamp then decide (a.2.2.2.stamp < b.2.2.2.stamp)
  else if a.1 != b.1 then decide (a.1 < b.1) else decide (a.2.1 < b.2.1)

/-- An engine is busy from the descriptor it takes to its end, or to the end of its chain (R225, R339, R341). -/
def engineBusy (s : State) (e : Nat) : Bool :=
  s.fe.queues.any (fun x => x.2.descs.any (fun d => d.2.engine == some e && (d.2.phase == .released || (d.2.phase == .done && dChain d.2.cur))))

/-- An earlier descriptor of the same queue still uses the same STATE_VA: they run one after the other (R339). -/
def stateWaits (s : State) (w : Nat × Nat × Queue × Desc) : Bool :=
  (mediaWork s).any (fun v => v.1 == w.1 && decide (v.2.1 < w.2.1)
    && (match stateOf s v.1 v.2.1 v.2.2.1 v.2.2.2, stateOf s w.1 w.2.1 w.2.2.1 w.2.2.2 with
      | some a, some b => a == b
      | _, _ => false))

/-- The descriptor that an engine takes next: of the queues that name it, and of those that name any. -/
def nextWork (s : State) (e : Nat) : Option (Nat × Nat × Queue × Desc) :=
  ((mediaWork s).filter (fun w => (w.2.2.1.typeArg == 0xFF || w.2.2.1.typeArg % 4 == e) && w.2.2.2.engine.isNone && !stateWaits s w)).foldl
    (fun b w => match b with
      | none => some w
      | some v => if mediaBefore w v then some w else some v) none

def takeWork (e : Nat) (s : State) : State :=
  if !engineUp s e || engineBusy s e then s
  else match nextWork s e with
    | none => s
    | some (q, i, _, d) => s.setDesc q i { d with engine := some e }

/-- Idle engines take waiting work, the lowest-numbered first (R339). -/
def takeAll (s : State) : State := foldState [0, 1, 2, 3] takeWork s

/-! ### Completion (R207 to R209, R224, R225, R229, R230, R239, R407) -/

/-- What becomes of a signal fence (R209): whether it is performed. -/
def signalPerformed (st : Nat) (ran : Bool) : Bool := st == 0 || st == 0x0B || (st == 0x0A && ran)

/-- The signal of the descriptor being served: performed, abandoned, or a regression that turns OK into FENCE_REGRESSION. -/
def signalCur (q : Nat) (x : Queue) (d : Desc) (st : Nat) (s : State) : State × Nat :=
  if !dSignalEn d.cur then (s, st)
  else if signalPerformed st d.ran then
    let (s1, reg) := applySignal s q x.ctx (dSignalAddr d.cur) (dSignalValue d.cur) (dTag d.cur)
    (s1, if reg && st == 0 then 0x11 else st)
  else (abandonSignal s x.ctx (dSignalAddr d.cur) st (dTag d.cur), st)

/-- The walk of the descriptor at CHAIN_IDX (R225). -/
def chainWalk (s : State) (x : Queue) (d : W512) : Walk :=
  match s.ctx? x.ctx with
  | none => { stop := some (.bad 3 0x0701) }
  | some c => walkVa s c false 0 (dField d 60 4 * 64) 64 false

/-- The descriptor at CHAIN_IDX (R225), if it can be read. -/
def chainWord (s : State) (x : Queue) (d : W512) : Option W512 :=
  let k := chainWalk s x d
  match k.stop with
  | none => some (BitVec.ofNat 512 (ofLe (readPieces s k.pieces)))
  | some _ => none

/-- A chained descriptor that cannot be translated fills the fault record of its context (R197, R225). -/
def chainFault (x : Queue) (d : W512) (s : State) : State :=
  match (chainWalk s x d).stop with
  | some (.bad st dt) => fillFault s x.ctx ⟨dField d 60 4 * 64, 0, st, dt, 2, 255, dTag d, 0⟩
  | _ => s

def chainOk (s : State) (q : Nat) (x : Queue) (w : W512) : Bool :=
  chains (dOpcode w) && dClass w == 1 && !dWaitEn w && !dCompleteEn w && !dIrq w
    && (headCheck s q x { raw := w, cur := w }).isNone && (releaseCheck s q x w).isNone

/-- The fence of a chained descriptor that does not run, and of those behind it (R225). -/
def abandonChain (q : Nat) (x : Queue) (cause tag : Nat) : (fuel : Nat) → W512 → State → State
  | 0, _, s => s
  | n + 1, w, s =>
    let s1 := if dSignalEn w then abandonSignal s x.ctx (dSignalAddr w) cause tag else s
    if dChain w && chains (dOpcode w) then
      match chainWord s1 x w with
      | some v => abandonChain q x cause tag n v s1
      | none => chainFault x w s1
    else s1

/-- The page that the signal of a descriptor awaits before it can be completed (R229, R230). -/
def signalPage (s : State) (x : Queue) (d : W512) : Option Nat := if dSignalEn d then recordPage s x.ctx (dSignalAddr d) else none

/-- The page that a fence of a chained descriptor that does not run awaits, or one behind it (R225, R230). -/
def chainPage (s : State) (x : Queue) : (fuel : Nat) → W512 → Option Nat
  | 0, _ => none
  | n + 1, w =>
    match signalPage s x w with
    | some p => some p
    | none => if dChain w && chains (dOpcode w) then (chainWord s x w).bind (chainPage s x n) else none

/-- A chained descriptor that fails a check of R217 is logged as one at the head is (R10, R217). -/
def chainRefused (q : Nat) (x : Queue) (w : W512) (s : State) : State :=
  match headCheck s q x { raw := w, cur := w } with
  | some e => logViol s 6 x.fn 1 q e
  | none => s

/-- Count a completed descriptor (R264, R407). -/
def countDesc (q : Nat) (x : Queue) (w : W512) (result : Nat) (s : State) : State :=
  let fn := if q = adminQid then 0 else x.fn
  let op := dOpcode w
  let a := s.acct
  let up := fun (m : Map Nat) => mset m 0 fn (satInc32 (mget m 0 fn))
  let s1 := { s with acct := { a with descs := up a.descs, jobs := if op = 0x100 then up a.jobs else a.jobs } }
  match s1.ctx? x.ctx with
  | none => s1
  | some c =>
    if q = adminQid then s1
    else if op = 0x100 then s1.setCtx x.ctx { c with launches := satInc32 c.launches }
    else if op = 0x200 || op = 0x201 || op = 0x206 || op = 0x501 then
      s1.setCtx x.ctx { c with bytes := (c.bytes + result) % 2 ^ 64 }
    else s1

/-- The completion record: bytes 8 to 31, then SEQ, after the fences and the status entry of its context, and the status block of a queue
that its descriptor created (R224, R234, R235). -/
def writeCompletion (q i : Nat) (x : Queue) (d : Desc) (st dt stamp : Nat) (s : State) : State :=
  let va := x.cplVa + 32 * (i % 2 ^ x.sizeLog2)
  let behind := some (x.ctx, if dOpcode d.raw = 0xF02 && st = 0 then some d.result else none)
  let s1 := ringWrite s q (va + 8) (leBytes 4 (dTag d.raw) ++ leBytes 2 st ++ leBytes 2 dt ++ leBytes 8 stamp ++ leBytes 8 d.result) behind
  ringWrite s1 q va (leBytes 8 (i + 1)) behind

/-- Restore WRITABLE on the pages of versions that retire, and drop them (R239), with the context walk of a changed LTA entry (R168). -/
def retireVer (v : Nat) (s : State) : State :=
  match mfind s.fe.vers v with
  | none => s
  | some y =>
    let s1 := { s with fe := { s.fe with vers := mdel s.fe.vers v, resident := s.fe.resident.filter (· != v) } }
    match s.ctx? y.ctx with
    | none => s1
    | some c => foldState ((List.range y.pages).map (y.firstPage + ·)) (fun p a =>
        match objOfPage a y.ctx p with
        | some (_, o) =>
          let e := ltaGet a (c.ltaBase + p)
          if planHeld a y.ctx p 1 then a else ltaSet a (c.ltaBase + p) (setField e.toNat 24 1 (b2n (o.writable && !ltaDuplicate e)))
        | none => a) (contextWalk y.ctx s1)

/-- Versions neither current nor bound retire. -/
def settleVers (s : State) : State :=
  foldState (s.fe.vers.map (·.1)) (fun v a =>
    match mfind a.fe.vers v with
    | none => a
    | some y =>
      let current := match currentVer a y.ctx y.slot with
        | some (w, _) => w == v
        | none => false
      if current || verBound a v then a else retireVer v a) s

/-- A launch's lateness is judged when its completion is stamped (R53, R61). -/
def lateBreach (d : Desc) (s : State) : Option (Nat × Launch) :=
  match d.launch with
  | none => none
  | some l =>
    match s.launch? l with
    | none => none
    | some x =>
      if d.status == 0 && d.ran && x.lc && !x.asBe && decide (x.deadline < s.now) && x.breach != 0 then some (l, x) else none

/-- The event of a completion on a vector: after its record, where that is still held (R224, R268). -/
def raiseAfter (q v : Nat) (s : State) : State :=
  match s.link.held.reverse.find? (fun h => h.q == some q && h.irq == none) with
  | some h => { s with link := { s.link with held := (s.link.held.reverse.replace h { h with irq := some v }).reverse } }
  | none => raiseVec s v

/-- The end of a descriptor: its record unless it is OK without COMPLETE_EN, its interrupt, its place in the queue. -/
def closeDesc (q i : Nat) (st dt stamp : Nat) (s : State) : State :=
  match s.queue? q, s.desc? q i with
  | some x, some d =>
    let s1 := if dCompleteEn d.raw || st != 0 then writeCompletion q i x d st dt stamp s else s
    let s2 := if dIrq d.raw then raiseAfter q (vecIndex x.fn x.vector) s1 else s1
    match s2.queue? q with
    | none => s2
    | some y =>
      let s3 := s2.setQueue q { y with descs := mdel y.descs i, idleSince := s.now }
      let s4 := match d.launch with
        | some l => { s3 with fe := { s3.fe with launches := mdel s3.fe.launches l } }
        | none => s3
      settleAdmin (evictCtx x.ctx (bindAll q (settleVers s4)))
  | _, _ => s

/-- The end of a chain whose next descriptor does not run (R225): its fence and those behind it are abandoned, after `log`. While the record
of one awaits its translation the state before the completion, `s0`, waits for that. -/
def dropChain (q i : Nat) (x : Queue) (d : Desc) (cause st dt : Nat) (log : W512 → State → State) (s0 s : State) : State :=
  match chainWord s x d.cur with
  | none => closeDesc q i st dt d.stamp (chainFault x d.cur s)
  | some w =>
    if 16 ≤ d.chainLen then closeDesc q i st dt d.stamp (log w s)
    else match chainPage s x (16 - d.chainLen) w with
      | some page => waitRecord s0 x.ctx page
      | none => closeDesc q i st dt d.stamp (log w (abandonChain q x cause (dTag w) (16 - d.chainLen) w s))

/-- Complete a descriptor that is done: its signal, then its chain or its record. It waits while the record of a released fence that it
signals, or that a chained descriptor which does not run would signal, awaits its translation. END_STAMP is now, but for a DISP_COMMIT the
vertical blank start at which it was applied (R326). -/
def completeDesc (q i : Nat) (s : State) : State :=
  match s.queue? q, s.desc? q i with
  | some x, some d =>
    if d.phase != .done then s
    else if let some page := signalPage s x d.cur then waitRecord s x.ctx page
    else
      let (s0, st0, dt0) := match lateBreach d s with
        | some (_, l) => (countBreach l 0x0B l.breach s, 0x0B, l.breach)
        | none => (s, d.status, d.detail)
      let (s1, st1) := signalCur q x d st0 s0
      let s2 := countDesc q x d.cur d.result s1
      let stamp := if d.ran && dOpcode d.cur != 0x300 then s.now else d.stamp
      let d1 : Desc := { d with status := st1, detail := dt0, stamp := stamp }
      let s3 := s2.setDesc q i d1
      if !dChain d.cur || !chains (dOpcode d.cur) then closeDesc q i st1 dt0 stamp s3
      else if st1 ≠ 0 then
        dropChain q i x d1 st1 st1 dt0 (fun _ a => a) s s3
      else
        match chainWord s3 x d.cur with
        | some w =>
          if d.chainLen < 16 && chainOk s3 q x w then
            s3.setDesc q i { d1 with phase := .released, cur := w, chainLen := d.chainLen + 1, hold := holdAt s3 q i w }
          else dropChain q i x d1 2 2 0x0806 (chainRefused q x) s s3
        | none => dropChain q i x d1 2 2 0x0806 (chainRefused q x) s s3
  | _, _ => s

/-- DESCRIPTOR_COMPLETE. -/
def execDescriptorComplete (q i : Nat) (s : State) : Result :=
  if feRuns s then .next (takeAll (settleStacks (completeDesc q i s))) else .next s

/-- IRQ_MODERATION_TIMEOUT (R278). -/
def execIrqModerationTimeout (v : Nat) (s : State) : Result :=
  match mfind s.link.mods v with
  | none => .next s
  | some _ => .next (fireVec { s with link := { s.link with mods := mdel s.link.mods v } } v)

end Sys2Proof.Machine
end

