-- ==== Sys2Proof/Machine/PlanParse.lean ====
section
/-! DEFINITION. Plan containers as they are read (R39 to R46, R91, R121, R124, R137, R144, R200 to R206, R259, R302): an image is the
number its little-endian bytes spell. -/

namespace Sys2Proof.Machine

/-- `n` bytes at byte `off` of an image. -/
def gB (img off n : Nat) : Nat := field img (8 * off) (8 * n)

/-- The reserved bits of a record of `n` bytes at `off` are 0; `fs` are its fields as (first bit, width). -/
def rsvOk (img off n : Nat) (fs : List (Nat × Nat)) : Bool := clearFields (gB img off n) fs == 0

/-! ### Sections (R40, R41) -/

/-- (TYPE, LENGTH, OFFSET) of each section. -/
def sections (img : Nat) : List (Nat × Nat × Nat) :=
  (List.range (gB img 6 2)).map (fun i => (gB img (64 + 16 * i) 2, gB img (68 + 16 * i) 4, gB img (72 + 16 * i) 8))

def secOf (img t : Nat) : Option (Nat × Nat) := ((sections img).find? (fun x => x.1 == t)).map (·.2)
def secLen (img t : Nat) : Nat := ((secOf img t).map (·.1)).getD 0
def secOff (img t : Nat) : Nat := ((secOf img t).map (·.2)).getD 0
/-- Offsets of the fixed-size records of a section. -/
def recsOf (img t size : Nat) : List Nat := (List.range (secLen img t / size)).map (fun i => secOff img t + size * i)

/-! ### Records (R42 to R46) -/

def readStep (img o : Nat) : StepRec :=
  { graphics := bitOf (gB img (o + 4) 1) 0, cross := bitOf (gB img (o + 4) 1) 1, wcet := gB img (o + 8) 8
    slipFirst := gB img (o + 16) 4, slipCount := gB img (o + 20) 4, code := gB img (o + 24) 4, xfer := gB img (o + 28) 4
    resFirst := gB img (o + 32) 4, resCount := gB img (o + 36) 4, claim := gB img (o + 40) 4, unplanned := gB img (o + 44) 4 }

def readSlip (img o : Nat) : SlipRec := ⟨gB img o 4, gB img (o + 8) 8, gB img (o + 16) 8, gB img (o + 24) 4⟩
def readRes (img o : Nat) : ResRec := ⟨gB img o 1, gB img (o + 2) 2, gB img (o + 4) 4, gB img (o + 8) 4, gB img (o + 12) 4⟩
def readCost (img o : Nat) : CostRec := ⟨gB img o 8, gB img (o + 8) 8, gB img (o + 16) 8⟩

def readEnv (img : Nat) : Envelope :=
  match secOf img 8 with
  | none => {}
  | some (_, o) =>
    let m := gB img (o + 20) 1
    { prims := if bitOf m 0 then some (gB img o 8) else none, overdraw := if bitOf m 1 then some (gB img (o + 8) 4) else none
      seq := if bitOf m 2 then some (gB img (o + 12) 4) else none, batch := if bitOf m 3 then some (gB img (o + 16) 4) else none }

/-! ### CORE_CODE (R121) -/

def readProg (img base o : Nat) : Prog :=
  let co := gB img o 4
  { words := (List.range (gB img (o + 4) 4)).map (fun i => BitVec.ofNat 128 (gB img (base + co + 16 * i) 16))
    lgs := gB img (o + 8) 1, tile64k := field (gB img (o + 9) 1) 0 3 }

/-- Program records of the step-code record at index `k`. -/
def readCode (img k : Nat) : List Prog :=
  let base := secOff img 2
  let o := base + 16 * k
  (List.range (gB img (o + 4) 2)).map (fun i => readProg img base (base + gB img o 4 + 16 * i))

/-- Step-code records that the steps name. -/
def codeCount (steps : List StepRec) : Nat := steps.foldl (fun n x => max n (x.code + 1)) 0

/-! ### TRANSFERS and SLOT_CLAIMS (R200, R201, R204 to R206) -/

def readXfer (img o : Nat) : XferRec :=
  let b := gB img o 1
  { dir := field b 0 2, auto := bitOf b 2, afterEn := bitOf b 3, rel := gB img (o + 1) 1, core := field (gB img (o + 2) 1) 0 5
    dstCore := field (gB img (o + 3) 1) 0 5, slot := gB img (o + 4) 1, memOff := gB img (o + 8) 8, ts := gB img (o + 16) 4
    ts2 := gB img (o + 20) 4, rowBytes := gB img (o + 24) 4, rows := gB img (o + 28) 4, memStride := gB img (o + 32) 8
    tsStride := gB img (o + 40) 4, startAt := gB img (o + 44) 4, after := gB img (o + 48) 4 }

def readRange (img o : Nat) : RangeRec := ⟨gB img o 1, field (gB img (o + 1) 1) 0 5, gB img (o + 4) 4, gB img (o + 8) 4⟩

def readNode (img o : Nat) : NodeRec :=
  ⟨gB img o 1 == 1, gB img (o + 1) 1, field (gB img (o + 2) 1) 0 5, gB img (o + 4) 4, gB img (o + 8) 8, gB img (o + 16) 8,
    gB img (o + 24) 4, gB img (o + 28) 4⟩

/-- Bytes of one record of a directory kind. -/
def dirSize (kind : Nat) : Nat := if kind = 1 then 64 else if kind = 2 then 16 else 32

def tableCount (img : Nat) : Nat := gB img (secOff img 3) 4
def dirOff (img i : Nat) : Nat := secOff img 3 + 16 + 16 * i

/-- Offsets of the records of a directory entry. -/
def dirRecs (img i : Nat) : List Nat :=
  let o := dirOff img i
  (List.range (gB img (o + 4) 4)).map (fun k => secOff img 3 + gB img (o + 8) 4 + dirSize (gB img o 1) * k)

def readDir (img i : Nat) : DirRec :=
  let o := dirOff img i
  let kind := gB img o 1
  { kind := kind, cdcCfg := if bitOf (gB img (o + 1) 1) 0 then some (gB img (o + 12) 4) else none
    xfers := if kind = 1 then (dirRecs img i).map (readXfer img) else []
    ranges := if kind = 2 then (dirRecs img i).map (readRange img) else []
    nodes := if kind = 3 then (dirRecs img i).map (readNode img) else [] }

def readPlace (img : Nat) : List Nat :=
  match secOf img 4 with
  | none => []
  | some (_, o) => (List.range 256).map (fun k => gB img (o + k) 1)

def readClaims (img : Nat) : List ClaimRec :=
  match secOf img 4 with
  | none => []
  | some (len, o) => (List.range ((len - 256) / 16)).map (fun k => ⟨gB img (o + 256 + 16 * k) 1, gB img (o + 257 + 16 * k) 1⟩)

/-! ### PASSES (R124, R131, R137, R144) -/

def readAttach (img o : Nat) : Attach :=
  let b := gB img (o + 1) 1
  { layout := gB img o 1, loadOp := field b 0 2, storeOp := field b 2 2, blend := bitOf b 4, argSurface := gB img (o + 2) 1
    argResolve := gB img (o + 3) 1, st := gB img (o + 4) 4, clear := gB img (o + 8) 8, pitch := gB img (o + 16) 4 }

def readSampler (img o : Nat) : Sampler :=
  let b := gB img (o + 2) 1
  { argTex := gB img o 1, layout := gB img (o + 1) 1, filter := field b 0 2, addrU := field b 2 2, addrV := field b 4 2
    planned := bitOf b 6, levels := gB img (o + 3) 1, width := gB img (o + 4) 2, height := gB img (o + 6) 2, uvAttr := gB img (o + 8) 1
    minLod := gB img (o + 12) 2, maxLod := gB img (o + 14) 2, lodBias := gB img (o + 16) 2 }

def passTiles (p : PassRec) : Nat := ceilDiv p.width (tileW p) * ceilDiv p.height (tileH p)

def readPass (img i : Nat) : PassRec :=
  let s := secOff img 9
  let o := s + 16 + 128 * i
  let f := gB img (o + 4) 1
  let c := gB img (o + 35) 1
  let p : PassRec :=
    { step := gB img (o + 2) 2, binned := bitOf f 0, network := bitOf f 1, samplesLog2 := field f 2 2, shape := field f 4 2
      halo := gB img (o + 7) 1, width := gB img (o + 8) 2, height := gB img (o + 10) 2, footBlocks := gB img (o + 12) 2
      submitMax := gB img (o + 16) 4, tileEntries := gB img (o + 20) 4, binEntries := gB img (o + 24) 8, argDraws := gB img (o + 32) 1
      argBins := gB img (o + 33) 1, argPrims := gB img (o + 34) 1, cull := field c 0 2, frontCw := bitOf c 2, depthClamp := bitOf c 3
      vin := gB img (o + 36) 2, vout := gB img (o + 38) 2, footBase := gB img (o + 52) 4, stageBase := gB img (o + 56) 4
      scratchBase := gB img (o + 60) 4, scratchBytes := gB img (o + 64) 2, netBase := gB img (o + 68) 4, netBytes := gB img (o + 72) 4
      keepMap := gB img (o + 76) 4, keepBytes := gB img (o + 80) 8
      attach := (List.range (gB img (o + 5) 1)).map (fun k => readAttach img (s + gB img (o + 40) 4 + 32 * k))
      samplers := (List.range (gB img (o + 6) 1)).map (fun k => readSampler img (s + gB img (o + 44) 4 + 32 * k)) }
  { p with tileMap := if p.binned then (List.range (passTiles p)).map (fun k => gB img (s + gB img (o + 48) 4 + 2 * k) 2) else [] }

def passCount (img : Nat) : Nat := if (secOf img 9).isSome then gB img (secOff img 9) 4 else 0

/-! ### MODEL, HOPS and REDUCTION (R91, R259, R302) -/

def modelCount (img : Nat) : Nat := if (secOf img 10).isSome then gB img (secOff img 10) 2 else 0
def menuCount (img : Nat) : Nat := if (secOf img 10).isSome then gB img (secOff img 10 + 2) 2 else 0
def readModel (img k : Nat) : ModelRec :=
  let o := secOff img 10 + 16 + 32 * k
  ⟨gB img o 8, gB img (o + 8) 1, gB img (o + 12) 4, gB img (o + 16) 4⟩
def menuOff (img k : Nat) : Nat := secOff img 10 + 16 + 32 * modelCount img + 16 * k
def readMenu (img k : Nat) : MenuRec := ⟨gB img (menuOff img k) 2, gB img (menuOff img k + 2) 2, gB img (menuOff img k + 4) 2⟩

/-- Counts of the HOPS section: peers, sends, waits, places. -/
def hopsCount (img i : Nat) : Nat := if (secOf img 11).isSome then gB img (secOff img 11 + 2 * i) 2 else 0
def hopsOff (img kind k : Nat) : Nat :=
  secOff img 11 + 16 + 16 * (((List.range kind).map (hopsCount img)).sum + k)
def readPeer (img k : Nat) : PeerRec :=
  let o := hopsOff img 0 k
  ⟨gB img o 1, bitOf (gB img (o + 1) 1) 0, gB img (o + 2) 1, gB img (o + 4) 4⟩
def readSend (img k : Nat) : SendRec :=
  let o := hopsOff img 1 k
  let b := gB img (o + 10) 1
  ⟨gB img o 4, gB img (o + 4) 4, gB img (o + 8) 2, if bitOf b 4 then some (field b 0 4) else none⟩
def readWait (img k : Nat) : WaitRec :=
  let o := hopsOff img 2 k
  ⟨gB img o 4, gB img (o + 4) 1, field (gB img (o + 5) 1) 0 4, gB img (o + 8) 4, gB img (o + 12) 4⟩
def readPlaceRec (img k : Nat) : PlaceRec :=
  let o := hopsOff img 3 k
  ⟨gB img o 4, gB img (o + 4) 4, gB img (o + 8) 2⟩

def readRed (img o : Nat) : RedRec :=
  ⟨gB img o 4, gB img (o + 8) 8, field (gB img (o + 16) 1) 0 2, field (gB img (o + 17) 1) 0 5, bitOf (gB img (o + 18) 1) 0,
    bitOf (gB img (o + 18) 1) 1, gB img (o + 20) 4, gB img (o + 24) 4⟩

/-- The plan of an image; the figures computed at load are filled in later. PLAN_ID is kept and returned by no command: R39 says queries and
fault records return it, and no record of R222 or R399 has a field for it (DESIGN CHOICE, log entry 100). -/
def readPlan (img : Nat) : Plan :=
  let fl := gB img 21 1
  let steps := ((recsOf img 1 64).take (gB img 16 4)).map (readStep img)
  { totalBytes := gB img 8 8, regionCount := gB img 20 1, singleDie := bitOf fl 0, lc := bitOf fl 1, be := bitOf fl 2, render := bitOf fl 3
    spans := bitOf fl 4, stochastic := bitOf fl 5, peakPower := gB img 24 4, seed := BitVec.ofNat 64 (gB img 32 8), planId := gB img 40 8
    steps := steps, code := (List.range (codeCount steps)).map (readCode img)
    dirs := (List.range (tableCount img)).map (readDir img), place := readPlace img, claims := readClaims img
    slips := (recsOf img 5 32).map (readSlip img), res := (recsOf img 6 16).map (readRes img), costs := (recsOf img 7 32).map (readCost img)
    env := readEnv img, passes := (List.range (passCount img)).map (readPass img)
    models := (List.range (modelCount img)).map (readModel img), menu := (List.range (menuCount img)).map (readMenu img)
    peers := (List.range (hopsCount img 0)).map (readPeer img), sends := (List.range (hopsCount img 1)).map (readSend img)
    waits := (List.range (hopsCount img 2)).map (readWait img), places := (List.range (hopsCount img 3)).map (readPlaceRec img)
    reds := (recsOf img 12 32).map (readRed img) }

/-! ### Load checks 1 to 8, 10, 11, 16 and 17 (R48) -/

/-- Check 1. -/
def check1 (img : Nat) : Bool := gB img 0 4 == 0x504B524B && gB img 4 1 == 1 && decide (gB img 5 1 ≤ 2)

/-- Check 2; `room` is what the memory object holds from the container on. -/
def check2 (img room : Nat) : Bool :=
  let t := gB img 8 8
  t % 64 == 0 && decide (64 ≤ t) && decide (t ≤ 67108864) && decide (t ≤ room) && decide (1 ≤ gB img 6 2) && decide (gB img 6 2 ≤ 16)
    && decide (1 ≤ gB img 16 4) && decide (gB img 16 4 ≤ 65536) && [1, 2, 4, 8, 16].contains (gB img 20 1)

/-- Check 3: CRC-32C with its own field as zero. -/
def check3 (img : Nat) : Bool := (crc32c (leBytes (gB img 8 8) (setField img (8 * 48) 32 0))).toNat == gB img 48 4

/-- Check 4. -/
def check4 (img : Nat) : Bool :=
  rsvOk img 0 64 [(0, 168), (168, 6), (192, 32), (256, 160)]
    && (List.range (gB img 6 2)).all (fun i => rsvOk img (64 + 16 * i) 16 [(0, 16), (32, 32), (64, 64)])
    && (recsOf img 1 64).all (fun o => rsvOk img o 64 [(0, 32), (32, 2), (64, 64), (128, 256)])
    && (recsOf img 5 32).all (fun o => rsvOk img o 32 [(0, 32), (64, 64), (128, 64), (192, 32)])
    && (recsOf img 6 16).all (fun o => rsvOk img o 16 [(0, 8), (16, 16), (32, 96)])
    && (recsOf img 7 32).all (fun o => rsvOk img o 32 [(0, 192)])
    && (recsOf img 8 32).all (fun o => rsvOk img o 32 [(0, 64), (64, 96), (160, 4)])

/-- Check 5. -/
def check5 (img : Nat) : Bool :=
  let ss := sections img
  let n := gB img 16 4
  ss.all (fun x => x.2.2 % 64 == 0 && decide (64 + 16 * gB img 6 2 ≤ x.2.2) && decide (x.2.2 + x.2.1 ≤ gB img 8 8))
    && ss.zipIdx.all (fun a => ss.zipIdx.all (fun b => a.2 == b.2 || !overlaps a.1.2.2 a.1.2.1 b.1.2.2 b.1.2.1))
    && ss.all (fun x => (x.1 != 1 || x.2.1 == 64 * n) && (x.1 != 7 || x.2.1 == 32 * n) && (x.1 != 8 || x.2.1 == 32)
      && (x.1 != 5 || x.2.1 % 32 == 0) && (x.1 != 6 || x.2.1 % 16 == 0))

/-- A plan reduces across regions or modules: a node list stands on two regions, or a node on another module (R41, R82, R206). -/
def reducesAcross (p : Plan) : Bool :=
  p.dirs.any (fun d => d.nodes.any (fun a => d.nodes.any (fun b => a.rel != b.rel))) || p.places.any (fun y => y.peer != 0xFFFF)

/-- Check 6. -/
def check6 (img : Nat) (p : Plan) : Bool :=
  let ts := (sections img).map (·.1)
  let has := fun t => ts.contains t
  ts.all (fun t => decide (1 ≤ t) && decide (t ≤ 12)) && ts.all (fun t => ts.count t == 1)
    && has 1 && has 2 && has 3 && has 7 && (!p.lc || (has 4 && has 8)) && (!(p.lc || p.be) || has 5) && (!p.render || has 9)
    && (!p.spans || has 11) && (has 6 || p.steps.all (fun x => x.resCount == 0)) && (has 12 || !reducesAcross p)

/-- Check 7. -/
def check7 (img : Nat) (p : Plan) : Bool :=
  p.steps.zipIdx.all (fun e =>
    gB img (secOff img 1 + 64 * e.2) 4 == e.2 && decide (16 * (e.1.code + 1) ≤ secLen img 2) && decide (e.1.xfer < tableCount img)
      && decide (e.1.slipFirst + e.1.slipCount ≤ p.slips.length) && decide (e.1.resFirst + e.1.resCount ≤ p.res.length))

def stepRes (p : Plan) (i : Nat) : List ResRec := (p.res.drop (stepOf p i).resFirst).take (stepOf p i).resCount

def ascending : List Nat → Bool
  | [] => true
  | [_] => true
  | a :: b :: r => decide (a < b) && ascending (b :: r)

def stepIdx (p : Plan) : List Nat := List.range p.steps.length

/-- Check 8: every slip record, whether or not a step's range names it. -/
def check8 (p : Plan) : Bool :=
  p.slips.all (fun x => decide (x.step < p.steps.length) && decide (x.offset ≤ (stepOf p x.step).wcet) && decide (x.live ≤ 16777216))
    && (stepIdx p).all (fun i =>
      (stepSlips p i).all (fun x => x.step == i) && ascending ((p.slips.filter (fun x => x.step == i)).map (·.offset)))

/-- A resource record's own fields (R44): a semaphore, or credits for a peer of the plan. -/
def resOk (p : Plan) (r : ResRec) : Bool :=
  decide (r.kind ≤ 1) && (r.kind != 0 || (decide (r.id ≤ 255) && r.count == 1))
    && (r.kind != 1 || (decide (r.id < p.peers.length) && decide (1 ≤ r.count))) && decide (r.acquire ≤ r.release)

/-- Check 10: every resource record is well formed, and the holds of each step end in it and hold no slip point. -/
def check10 (p : Plan) : Bool :=
  p.res.all (resOk p) && (stepIdx p).all (fun i => (stepRes p i).all (fun r =>
    decide (r.release ≤ (stepOf p i).wcet)
      && p.slips.all (fun x => x.step != i || !(decide (r.acquire ≤ x.offset) && decide (x.offset < r.release)))))

/-- Check 11. -/
def check11 (img : Nat) (p : Plan) : Bool :=
  (match secOf img 8 with
    | none => true
    | some (_, o) =>
      let m := gB img (o + 20) 1
      (bitOf m 0 || gB img o 8 == 0) && (bitOf m 1 || gB img (o + 8) 4 == 0) && (bitOf m 2 || gB img (o + 12) 4 == 0)
        && (bitOf m 3 || gB img (o + 16) 4 == 0))
    && !(p.render && p.lc && (p.env.prims.isNone || p.env.overdraw.isNone))

/-- Check 16. -/
def check16 (p : Plan) : Bool := (stepIdx p).all (fun i => decide ((p.costs.getD i ⟨0, 0, 0⟩).cycles ≤ (stepOf p i).wcet * p.regionCount))

/-! ### Check 13: TRANSFERS and SLOT_CLAIMS (R155, R205, R207) -/

def dirOk (img i : Nat) : Bool :=
  let o := dirOff img i
  let kind := gB img o 1
  let cfg := bitOf (gB img (o + 1) 1) 0
  let w := gB img (o + 12) 4
  decide (1 ≤ kind) && decide (kind ≤ 3) && rsvOk img o 4 [(0, 8), (8, 1)] && (!cfg || kind == 1) && (cfg || w == 0)
    && (!cfg || (clearFields w [(0, 5), (8, 4)] == 0 && decide (2 ≤ field w 0 5) && decide (field w 0 5 ≤ 16) && decide (field w 8 4 + 2 ≤ field w 0 5)))
    && gB img (o + 8) 4 % 16 == 0
    && decide (gB img (o + 8) 4 + dirSize kind * gB img (o + 4) 4 ≤ secLen img 3)

def tsExtent (e : XferRec) (a : Nat) : Nat := a + (e.rows - 1) * e.tsStride + e.rowBytes

def xferRecOk (img : Nat) (p : Plan) (xs : List XferRec) (o k : Nat) : Bool :=
  let e := readXfer img o
  rsvOk img o 64 [(0, 4), (8, 8), (16, 5), (24, 5), (32, 8), (64, 352)] && decide (e.dir ≤ 2) && decide (e.rel < p.regionCount)
    && e.memOff % 64 == 0 && e.ts % 64 == 0 && e.ts2 % 64 == 0 && e.rowBytes % 64 == 0 && decide (64 ≤ e.rowBytes) && decide (e.rowBytes ≤ 524288)
    && decide (1 ≤ e.rows) && decide (e.rows ≤ 65536) && e.memStride % 64 == 0 && e.tsStride % 64 == 0
    && decide (tsExtent e e.ts ≤ 524288) && (e.dir != 2 || decide (tsExtent e e.ts2 ≤ 524288))
    && (e.rows == 1 || (e.dir != 0 || decide (e.rowBytes ≤ e.tsStride)) && (e.dir != 1 || decide (e.rowBytes ≤ e.memStride)))
    && (!e.afterEn || (decide (e.after < k) && (xs.getD e.after {}).rel == e.rel))
    && (e.dir == 2 || p.place.isEmpty || p.place.getD e.slot 0 != 0)

def rangesOk (img : Nat) (p : Plan) (i : Nat) : Bool :=
  let rs := (p.dirs.getD i {}).ranges
  (dirRecs img i).all (fun o => rsvOk img o 16 [(0, 8), (8, 5), (32, 64)])
    && rs.all (fun r => decide (r.rel < p.regionCount) && r.start % 4096 == 0 && r.len % 4096 == 0 && decide (4096 ≤ r.len)
      && decide (r.start + r.len ≤ 524288))
    && rs.zipIdx.all (fun a => rs.zipIdx.all (fun b =>
      a.2 == b.2 || a.1.rel != b.1.rel || a.1.core != b.1.core || !overlaps a.1.start a.1.len b.1.start b.1.len))

/-- The bytes of a range list on any one region stay within a bound (R205). -/
def rangesWithin (p : Plan) (i bound : Nat) : Bool :=
  (List.range p.regionCount).all (fun r =>
    decide ((((p.dirs.getD i {}).ranges.filter (fun x => x.rel == r)).map (·.len)).sum ≤ bound))

def namesRanges (p : Plan) (i : Nat) : Bool := decide (i < p.dirs.length) && (p.dirs.getD i {}).kind == 2

/-- Check 13. -/
def check13 (img : Nat) (p : Plan) : Bool :=
  rsvOk img (secOff img 3) 16 [(0, 32)] && decide (16 ≤ secLen img 3) && decide (1 ≤ tableCount img) && decide (tableCount img ≤ 1048576)
    && decide (16 + 16 * tableCount img ≤ secLen img 3)
    && (List.range (tableCount img)).all (fun i => dirOk img i
      && ((p.dirs.getD i {}).kind != 1 || (dirRecs img i).zipIdx.all (fun e => xferRecOk img p (p.dirs.getD i {}).xfers e.1 e.2))
      && ((p.dirs.getD i {}).kind != 2 || rangesOk img p i)
      && ((p.dirs.getD i {}).kind != 3 || (dirRecs img i).all (fun o => rsvOk img o 32 [(0, 8), (8, 8), (16, 5), (32, 224)] && decide (gB img o 1 ≤ 1))))
    && p.steps.all (fun x =>
      let t := p.dirs.getD x.xfer {}
      t.kind == 1 && t.xfers.all (fun e => !e.auto || decide (e.startAt ≤ x.wcet))
        && (!p.lc || decide (x.claim < p.claims.length) || t.xfers.all (fun e => e.dir == 2)))
    && p.slips.all (fun x => namesRanges p x.map && rangesWithin p x.map x.live)
    && p.passes.all (fun x => namesRanges p x.keepMap && rangesWithin p x.keepMap x.keepBytes)
    && (match secOf img 4 with
      | none => true
      | some (len, o) => decide (256 ≤ len) && (len - 256) % 16 == 0 && p.place.all (fun c => decide (c ≤ 5))
        && (List.range p.claims.length).all (fun k => rsvOk img (o + 256 + 16 * k) 16 [(0, 16)])
        && p.claims.all (fun c => decide (c.near ≤ 17) && decide (c.far ≤ 17)))

/-! ### Check 14: MODEL, HOPS and REDUCTION (R81, R82, R92, R206, R259, R305) -/

def menuAscends : List MenuRec → Bool
  | [] => true
  | [_] => true
  | a :: b :: r => (decide (a.chunk < b.chunk) || (a.chunk == b.chunk && decide (a.cap < b.cap))) && menuAscends (b :: r)

def modelOk (img : Nat) (p : Plan) (slot : Nat) : Bool :=
  match secOf img 10 with
  | none => true
  | some (len, o) =>
    decide (16 + 32 * modelCount img + 16 * menuCount img ≤ len) && rsvOk img o 16 [(0, 16), (16, 16)]
      && decide (modelCount img ≤ 4) && decide (menuCount img ≤ 64)
      && (List.range (modelCount img)).all (fun k => rsvOk img (o + 16 + 32 * k) 32 [(0, 72), (96, 64)])
      && (List.range (menuCount img)).all (fun k => rsvOk img (menuOff img k) 16 [(0, 48)])
      && p.models.all (fun m => m.id != 0 && m.base % 4096 == 0 && m.bytes % 4096 == 0 && decide (4096 ≤ m.bytes) && decide (m.base + m.bytes ≤ 524288)
        && (p.models.filter (fun y => y.id == m.id)).length == 1)
      && p.menu.all (fun m => decide (m.slot ≤ 4095) && [0, 256, 512, 1024, 2048].contains m.chunk && decide (m.cap ≤ 256))
      && menuAscends p.menu && (match p.menu with
        | [] => true
        | m :: _ => m.slot == slot)

/-- A k range that is a chunk or a whole subtree of R81, at level `l` of chunks of 4,096. -/
def subtreeAt (k a b l : Nat) : Bool := a % (4096 * 2 ^ l) == 0 && decide (a < k) && b == min (a + 4096 * 2 ^ l) k
def isSubtree (k a b : Nat) : Bool := (List.range 24).any (subtreeAt k a b)

/-- The k ranges of R82 and R92 for one node of a reduction. -/
def nodeRangeOk (r : RedRec) (ns : List NodeRec) (n : NodeRec) : Bool :=
  if r.mode = 0 then
    n.combine || (n.kStart % 32 == 0 && (n.kEnd % 32 == 0 || n.kEnd == r.k) && decide (n.kEnd ≤ roundUp r.k 32) && decide (n.kStart < n.kEnd))
  else if n.combine then
    (List.range 24).any (fun l => subtreeAt r.k n.kStart n.kEnd l && (match ns[n.a]? with
      | some x => l != 0 && x.kEnd == n.kStart + 4096 * 2 ^ (l - 1)
      | none => false))
  else isSubtree r.k n.kStart n.kEnd

/-- A reduction node list, named by a reduction or not (R206): children precede their parents, and the last record is the one root. -/
def listOk (p : Plan) (ns : List NodeRec) : Bool :=
  ns.zipIdx.all (fun e =>
    let n := e.1
    decide (n.rel < p.regionCount) && decide (n.step < p.steps.length) && decide (n.kStart < n.kEnd)
      && (!n.combine || (decide (n.a < e.2) && decide (n.b < e.2) && (match ns[n.a]?, ns[n.b]? with
        | some a, some b => a.kStart == n.kStart && b.kEnd == n.kEnd && a.kEnd == b.kStart
            && [a, b].all (fun c => decide (c.step < n.step) || (c.step == n.step && c.rel == n.rel && c.core == n.core))
        | _, _ => false)))
      && (e.2 + 1 == ns.length || (ns.map (fun m => if m.combine then b2n (m.a == e.2) + b2n (m.b == e.2) else 0)).sum == 1))

/-- The node list of a reduction: its k ranges and its root (R82, R92). -/
def nodesOk (p : Plan) (r : RedRec) : Bool :=
  let ns := (p.dirs.getD r.node {}).nodes
  ns.all (nodeRangeOk r ns)
    && (match ns.getLast? with
      | none => false
      | some root => root.kStart == 0 && (root.kEnd == r.k || (r.mode == 0 && root.kEnd == roundUp r.k 32)))

def redOk (img : Nat) (p : Plan) : Bool :=
  match secOf img 12 with
  | none => true
  | some (len, _) =>
    len != 0 && len % 32 == 0
      && (recsOf img 12 32).all (fun o => rsvOk img o 32 [(0, 32), (64, 64), (128, 2), (136, 5), (144, 2), (160, 64)])
      && p.reds.all (fun r => decide (1 ≤ r.k) && decide (r.k ≤ 2 ^ 35) && (p.reds.filter (fun y => y.tensor == r.tensor)).length == 1
        && decide (r.mode ≤ 2) && isFmt r.fmt && (r.fmt != 0x10 || r.mode == 0) && (!r.stochastic || p.stochastic) && decide (1 ≤ r.parts)
        && decide (r.node < p.dirs.length) && (p.dirs.getD r.node {}).kind == 3 && nodesOk p r
        && ((p.dirs.getD r.node {}).nodes.filter (fun n => !n.combine)).length == r.parts)

/-- Core cycles of a peer's path (R304). -/
def peerPath (q : PeerRec) : Nat := q.hopsMax * 1430 + ceilDiv (q.switchNs * 22) 10

/-- The peer index of a caravan entry, from its one send record (R302). -/
def sendsOf (p : Plan) (table k : Nat) : List SendRec := p.sends.filter (fun y => y.table == table && y.record == k)

/-- Credits of a step for a peer. -/
def creditOf (p : Plan) (i peer : Nat) : Option Nat :=
  ((stepRes p i).find? (fun r => r.kind == 1 && r.id == peer)).map (·.count)

def hopsOk (img : Nat) (p : Plan) : Bool :=
  match secOf img 11 with
  | none => p.dirs.all (fun d => d.xfers.all (fun e => e.dir == 2 || p.place.getD e.slot 0 != 5))
  | some (len, o) =>
    let np := hopsCount img 0
    decide (16 + 16 * (np + hopsCount img 1 + hopsCount img 2 + hopsCount img 3) ≤ len) && rsvOk img o 16 [(0, 64)]
      && decide (1 ≤ np) && decide (np ≤ 64)
      && (List.range np).all (fun k => rsvOk img (hopsOff img 0 k) 16 [(0, 9), (16, 8), (32, 32)])
      && (List.range (hopsCount img 1)).all (fun k => rsvOk img (hopsOff img 1 k) 16 [(0, 80), (80, 5)])
      && (List.range (hopsCount img 2)).all (fun k => rsvOk img (hopsOff img 2 k) 16 [(0, 40), (40, 4), (64, 64)])
      && (List.range (hopsCount img 3)).all (fun k => rsvOk img (hopsOff img 3 k) 16 [(0, 80)])
      && p.peers.all (fun q => decide (1 ≤ q.hopsMax))
      && p.sends.all (fun y => decide (y.peer < np) && decide (y.table < p.dirs.length)
        && (match (p.dirs.getD y.table {}).xfers[y.record]? with
          | some e => (p.peers.getD y.peer ⟨0, false, 1, 0⟩).slot == e.slot
          | none => false)
        && p.steps.all (fun x => x.xfer != y.table || x.cross))
      && p.dirs.zipIdx.all (fun d => d.1.xfers.zipIdx.all (fun e =>
        e.1.dir == 2 || p.place.getD e.1.slot 0 != 5 || (sendsOf p d.2 e.2).length == 1))
      && p.waits.all (fun w => decide (w.step < p.steps.length) && (stepOf p w.step).cross && decide (1 ≤ w.expect) && decide (w.budget ≤ (stepOf p w.step).wcet)
        && p.sends.all (fun y => y.table != (stepOf p w.step).xfer || decide (2 * peerPath (p.peers.getD y.peer ⟨0, false, 1, 0⟩) ≤ w.budget)))
      && (stepIdx p).all (fun i => p.sends.all (fun y => y.table != (stepOf p i).xfer || (creditOf p i y.peer).isSome))
      && p.places.all (fun y => (p.dirs.getD y.list {}).kind == 3 && decide (y.record < (p.dirs.getD y.list {}).nodes.length)
        && (decide (y.peer < np) || y.peer == 0xFFFF))

/-! ### Check 14: PASSES (R124, R129 to R131, R137, R144) -/

def layoutOk (l : Nat) : Bool := decide (l ≤ 0x0B)
def isDepth (l : Nat) : Bool := l == 0x0A || l == 0x0B

def factorOk (f : Nat) : Bool := decide (f ≤ 10)

/-- The STATE word of an attachment (R144). -/
def stateOk (a : Attach) : Bool :=
  let w := a.st
  if isDepth a.layout then
    clearFields w [(0, 25)] == 0 && !a.blend
  else
    clearFields w [(0, 26)] == 0 && factorOk (field w 0 4) && factorOk (field w 4 4) && decide (field w 8 3 ≤ 4) && factorOk (field w 11 4)
      && factorOk (field w 15 4) && decide (field w 19 3 ≤ 4)

/-- An attachment record (R144). Of a depth attachment's CLEAR, bits [63:40] must be 0 (DESIGN CHOICE, log entry 114). -/
def attachOk (img o : Nat) : Bool :=
  let a := readAttach img o
  rsvOk img o 32 [(0, 13), (16, 16), (32, 128)] && layoutOk a.layout && decide (a.loadOp ≤ 2) && decide (a.storeOp ≤ 2) && stateOk a && a.pitch % 256 == 0
    && (!isDepth a.layout || clearFields a.clear [(0, 40)] == 0)

def samplerOk (img o : Nat) : Bool :=
  let x := readSampler img o
  rsvOk img o 32 [(0, 23), (24, 8), (32, 40), (96, 48)] && decide (x.layout ≤ 9) && decide (x.filter ≤ 2) && decide (x.addrU ≤ 2) && decide (x.addrV ≤ 2)
    && decide (1 ≤ x.levels) && decide (x.levels ≤ 15) && decide (1 ≤ x.width) && decide (x.width ≤ 16384) && decide (1 ≤ x.height)
    && decide (x.height ≤ 16384) && decide (x.minLod ≤ x.maxLod)

/-- The tile shape R129 gives, `none` where it refuses the pass. -/
def shapeFor (b : Nat) (binned : Bool) : Option Nat :=
  if b = 0 then none
  else if b ≤ 8 then some (if binned then 2 else 0)
  else if b ≤ 32 then some 0
  else if b ≤ 128 && binned then some 1
  else none

/-- Owner of tile `t` as (relative region, core within it) (R131). -/
def tileOwner (p : PassRec) (regions t : Nat) : Nat × Nat :=
  if p.binned then
    let e := p.tileMap.getD t 0
    (field e 0 4, field e 4 5)
  else
    let nx := ceilDiv p.width (tileW p)
    let o := (t % nx + 5 * (t / nx)) % (32 * regions)
    (o % regions, o / regions)

/-- Tiles of a core in ascending order (R131). -/
def tilesOf (p : PassRec) (regions rel core : Nat) : List Nat :=
  (List.range (passTiles p)).filter (fun t => tileOwner p regions t == (rel, core))

def tilesMax (p : PassRec) (regions : Nat) : Nat :=
  listMax ((List.range (32 * regions)).map (fun k => (tilesOf p regions (k / 32) (k % 32)).length))

/-- Tile-store areas of a pass on a core (R130): slots, footprint buffers, staging windows, item scratch, network area. -/
def passAreas (p : PassRec) (regions rel core lgs : Nat) : List (Nat × Nat) :=
  let slots := if p.binned then 2 else (tilesOf p regions rel core).length
  [(0, slots * slotBytes p), (p.footBase, 2 * p.footBlocks * 1024), (p.stageBase, 32768), (p.scratchBase, p.scratchBytes * lgs), (p.netBase, p.netBytes)]

/-- The areas of a pass on a core (R130). LANE_GROUPS is that of the step that shades the pass (DESIGN CHOICE, log entry 115). -/
def passAreasOk (p : Plan) (x : PassRec) (rel core : Nat) : Bool :=
  let pr := (p.code.getD (stepOf p x.step).code []).getD (32 * rel + core) {}
  let keep := ((p.dirs.getD x.keepMap {}).ranges.filter (fun r => r.rel == rel && r.core == core)).map (fun r => (r.start, r.len))
  let as := passAreas x p.regionCount rel core pr.lgs ++ keep
  let slots := (as.getD 0 (0, 0)).2
  decide (slots ≤ pr.tile64k * 65536) && as.all (fun a => decide (a.1 + a.2 ≤ 524288))
    && as.zipIdx.all (fun a => as.zipIdx.all (fun b => a.2 == b.2 || a.1.2 == 0 || b.1.2 == 0 || !overlaps a.1.1 a.1.2 b.1.1 b.1.2))

/-! ### Texture levels and blocks (R138, R142) -/

def levelW (m : Sampler) (l : Nat) : Nat := max 1 (m.width / 2 ^ l)
def levelH (m : Sampler) (l : Nat) : Nat := max 1 (m.height / 2 ^ l)
def blockW (m : Sampler) : Nat :=
  match layoutBytes m.layout with
  | 1 | 2 => 32
  | 4 | 8 => 16
  | _ => 8
def blockH (m : Sampler) : Nat :=
  match layoutBytes m.layout with
  | 1 => 32
  | 2 | 4 => 16
  | _ => 8
def blockCols (m : Sampler) (l : Nat) : Nat := ceilDiv (levelW m l) (blockW m)
def blockRows (m : Sampler) (l : Nat) : Nat := ceilDiv (levelH m l) (blockH m)
def levelOff (m : Sampler) (l : Nat) : Nat := ((List.range l).map (fun j => blockCols m j * blockRows m j * 1024)).sum
def blockOff (m : Sampler) (l row col : Nat) : Nat := levelOff m l + (row * blockCols m l + col) * 1024
def level0 (m : Sampler) : Nat := m.minLod / 256
def level1 (m : Sampler) : Nat := min (m.maxLod / 256 + 1) (m.levels - 1)

/-- Blocks of the static footprint of a DIRECT pass (R142). -/
def staticCount (p : PassRec) : Nat :=
  ((p.samplers.filter (·.planned)).map (fun m =>
    ((List.range (level1 m + 1 - level0 m)).map (fun d => blockRows m (level0 m + d) * blockCols m (level0 m + d))).sum)).sum

/-- The argument slot whose surface an attachment stores to, if it stores (R144). -/
def storeSlot (a : Attach) : Option Nat := if a.storeOp = 0 then some a.argSurface else if a.storeOp = 1 then some a.argResolve else none

/-- A pass loads no attachment from an argument slot that an earlier pass of its step stores to (R127). -/
def passLoadsOk (p : Plan) (i : Nat) : Bool :=
  let x := p.passes.getD i {}
  x.attach.all (fun a => a.loadOp != 1 || (p.passes.take i).all (fun y => y.step != x.step || y.attach.all (fun b => storeSlot b != some a.argSurface)))

def passOk (img : Nat) (p : Plan) (i : Nat) : Bool :=
  let s := secOff img 9
  let len := secLen img 9
  let o := s + 16 + 128 * i
  let x := p.passes.getD i {}
  let na := gB img (o + 5) 1
  let ns := gB img (o + 6) 1
  rsvOk img o 128 [(0, 38), (40, 72), (128, 152), (280, 4), (288, 240), (544, 160)]
    && gB img o 2 == i && decide (x.step < p.steps.length) && (stepOf p x.step).graphics && decide (x.shape ≤ 2) && decide (1 ≤ na) && decide (na ≤ 8) && decide (ns ≤ 8)
    && decide (x.halo ≤ 16) && (x.binned || x.halo == 0) && decide (1 ≤ x.width) && decide (x.width ≤ 16384) && decide (1 ≤ x.height) && decide (x.height ≤ 16384)
    && decide (x.footBlocks ≤ 192) && decide (x.submitMax ≤ 2 ^ 28) && decide (x.tileEntries ≤ 65536) && decide (x.cull ≤ 2)
    && decide (4 ≤ x.vin) && decide (x.vin ≤ 256) && x.vin % 4 == 0 && decide (16 ≤ x.vout) && decide (x.vout ≤ 256) && x.vout % 4 == 0
    && [40, 44, 48].all (fun k => gB img (o + k) 4 % 16 == 0) && (x.binned || gB img (o + 48) 4 == 0)
    && decide (gB img (o + 40) 4 + 32 * na ≤ len) && decide (gB img (o + 44) 4 + 32 * ns ≤ len)
    && (!x.binned || decide (gB img (o + 48) 4 + 2 * passTiles x ≤ len))
    && x.footBase % 1024 == 0 && x.stageBase % 4096 == 0 && x.scratchBase % 64 == 0 && decide (x.scratchBytes ≤ 8192) && x.scratchBytes % 64 == 0
    && x.netBase % 64 == 0 && x.netBytes % 64 == 0 && decide (x.netBytes ≤ 262144) && (x.network || x.netBytes == 0) && decide (x.keepBytes ≤ 16777216)
    && (List.range na).all (fun k => attachOk img (s + gB img (o + 40) 4 + 32 * k))
    && (List.range ns).all (fun k => samplerOk img (s + gB img (o + 44) 4 + 32 * k))
    && (match shapeFor (passB x) x.binned with
      | some t => t == x.shape
      | none => false)
    && x.tileMap.all (fun e => decide (field e 0 4 < p.regionCount) && decide (e < 512))
    && (!(x.binned && x.submitMax != 0) || (decide (1 ≤ x.step) && (stepOf p (x.step - 1)).graphics))
    && (x.binned || decide (staticCount x ≤ x.footBlocks)) && passLoadsOk p i
    && (List.range (32 * p.regionCount)).all (fun k => passAreasOk p x (k / 32) (k % 32))

def passesOk (img : Nat) (p : Plan) : Bool :=
  match secOf img 9 with
  | none => true
  | some (len, o) =>
    decide (16 ≤ len) && rsvOk img o 16 [(0, 32)] && decide (1 ≤ passCount img) && decide (passCount img ≤ 256) && decide (16 + 128 * passCount img ≤ len)
      && (List.range (passCount img)).all (passOk img p)

/-- Check 14. -/
def check14 (img : Nat) (p : Plan) (slot : Nat) : Bool :=
  passesOk img p && modelOk img p slot && hopsOk img p && redOk img p && p.dirs.all (fun d => d.kind != 3 || listOk p d.nodes)

/-! ### The highest tile-store byte of a plan (R258) -/

def tsTopOf (p : Plan) : Nat :=
  listMax (p.dirs.flatMap (fun d => d.xfers.flatMap (fun e => tsExtent e e.ts :: (if e.dir = 2 then [tsExtent e e.ts2] else []))
      ++ d.ranges.map (fun r => r.start + r.len))
    ++ p.passes.flatMap (fun x => (List.range (32 * p.regionCount)).flatMap (fun k =>
      (passAreas x p.regionCount (k / 32) (k % 32) ((p.code.getD (stepOf p x.step).code []).getD k {}).lgs).map (fun a => if a.2 = 0 then 0 else a.1 + a.2))))

end Sys2Proof.Machine
end

