-- ==== Sys2Proof/Machine/Wcet.lean ====
section
/-! DEFINITION. Load checks of core programs and of time (R47, R48, R101, R116, R118, R122, R146, R150 to R152, R203, R251, R303, R304):
checks 9, 12 and 15, the part of check 14 that reads programs, and the stretches that admission uses. -/

namespace Sys2Proof.Machine

/-! ### Paths of one program (R118, R122, R146) -/

/-- A point of a path: the word, the slips executed, the transfers started and not yet waited for, per accumulator tile what the path
has set since its last GFX.NEXT (0 not set, 1 LONG, 2 FP32, 3 not known, 4 FP32 that a MAT.MMA feeds), and the scalar registers whose
value is static: those a SMOV of an immediate last wrote on the path (DEDUCED, log entry 74). -/
structure PathPt where
  pc : Nat
  slips : Nat
  pend : List Nat
  tiles : List Nat
  regs : Map Nat := []
  deriving DecidableEq, Repr

def brTarget (w : W128) : Nat := field (wImm w) 0 32
def brBound (w : W128) : Nat := field (wImm w) 32 32

/-- LOCK_WAYS of a step (R155, R165). -/
def stepLockWays (p : Plan) (i : Nat) : Nat := field (((p.dirs.getD (stepOf p i).xfer {}).cdcCfg).getD 0x10) 8 4

/-- The hold that a semaphore word names, when it is a record of its step (R113). -/
def holdOf (p : Plan) (i : Nat) (w : W128) : Option ResRec :=
  match (stepRes p i)[field (wImm w) 32 8]? with
  | none => none
  | some r => if r.kind = 0 && r.id = field (wImm w) 0 8 then some r else none

/-- What R122 asks of each word of a program, at index `k` of `n`. -/
def wordChecks (p : Plan) (i n k : Nat) (w : W128) : Bool :=
  wordWf w
    && (!(wCls w == 0 && wOp w == 1) || (decide (brTarget w < n) && (decide (k < brTarget w) || decide (1 ≤ brBound w))))
    && (!(wCls w == 8) || (holdOf p i w).isSome)
    && (!(wCls w == 9 && wOp w == 3) || decide (field (wImm w) 0 4 < stepLockWays p i))
    && (!(wCls w == 0xA) || decide (field (wImm w) 0 32 < (p.dirs.getD (stepOf p i).xfer {}).xfers.length))
    && (!(wCls w == 0 && wOp w == 3) || decide (field (wImm w) 32 32 < n))

/-- Operand codes a word writes, with the registers after a first one where the class takes several; GFX.NEXT sets every scalar register
(R146). -/
def wordWrites (w : W128) : List Nat :=
  let wide := fun n => (List.range n).map (wDst w + ·)
  match wCls w with
  | 0x1 | 0x2 | 0x3 => [wDst w]
  | 0x4 => wide (if wOp w = 1 then 2 else 1)
  | 0x5 => if wOp w = 0 then wide (if field (wMod w) 2 2 == 3 then 2 else 1) else []
  | 0x8 => if wOp w = 2 then [wDst w] else []
  | 0xB => if wOp w = 2 then [wDst w] else if wOp w = 5 || wOp w = 6 then wide 4 else if wOp w = 0 then (List.range 16).map (0x40 + ·) else []
  | _ => []

/-- The static registers after a word. -/
def staticRegs (m : Map Nat) (w : W128) : Map Nat :=
  let m1 := (wordWrites w).foldl mdel m
  if wCls w = 1 && wOp w = 0 then
    (if wA w = 0xFE then mins m1 (wDst w) (ssrc {} w 0xFE) else match mfind m (wA w) with
      | some v => mins m1 (wDst w) v
      | none => m1)
  else m1

/-- A word's tile-store addresses where their values are static (R122): aligned, and inside the store. An address that is not static
counts as 0, so that only the part its immediates give is checked. -/
def staticOk (m : Map Nat) (w : W128) : Bool :=
  let v := fun c => if isS c then mget m 0 c else 0
  let o : MatOp := ⟨0, 0, w, v (wA w), v (wB w), v (wC w), v (wDst w), true⟩
  let size := 2 ^ field (wMod w) 2 2
  let form := field (wMod w) 0 2
  match wCls w, wOp w with
  | 0x5, _ => form = 1 || bitOf (wMod w) 4
      || (o.a % size == 0 && decide (o.a + size * (if form = 0 && wPred w = 7 && wPneg w = 0 then 32 else 1) ≤ 524288))
  | 0x6, _ => o.a % 64 == 0 && o.b % 64 == 0 && (opReads o).all (fun p => p.1 % 16 == 0 && decide (p.1 + p.2 ≤ 524288))
  | 0x7, 0x01 => o.a % 64 == 0 && (opReads o).all (fun p => decide (p.1 + p.2 ≤ 524288))
  | 0x7, 0x02 => o.b % woAlign (wFmt w) == 0 && (woSpans o).all (fun p => decide (p.1 + p.2 ≤ 524288))
  | _, _ => true

/-- The highest tile-store byte that a word's static addresses reach (R258); 0 where a register it takes is not static. What TS.LD and
MAT.MMA read inside a model of the plan may stand above U and does not count (DEDUCED, log entry 74). -/
def wordTop (p : Plan) (m : Map Nat) (w : W128) : Nat :=
  let known := fun c => !isS c || (mfind m c).isSome
  let v := fun c => if isS c then mget m 0 c else 0
  let o : MatOp := ⟨0, 0, w, v (wA w), v (wB w), v (wC w), v (wDst w), true⟩
  let own := fun (e : Nat × Nat) => p.models.any (fun y => decide (y.base ≤ e.1) && decide (e.1 + e.2 ≤ y.base + y.bytes))
  let form := field (wMod w) 0 2
  let size := 2 ^ field (wMod w) 2 2
  let tops := fun (es : List (Nat × Nat)) => listMax (es.map (fun e => e.1 + e.2))
  match wCls w, wOp w with
  | 0x5, op =>
    if form = 1 || bitOf (wMod w) 4 || !known (wA w) then 0
    else
      let e := (o.a, size * (if form = 0 && wPred w = 7 && wPneg w = 0 then 32 else 1))
      if op = 0 && own e then 0 else e.1 + e.2
  | 0x6, _ => if known (wA w) && known (wB w) && known (wC w) then tops ((opReads o).filter (fun e => !own e)) else 0
  | 0x7, 0x01 => if known (wA w) then tops (opReads o) else 0
  | 0x7, 0x02 => if known (wB w) && (!isMx (wFmt w) || known (wDst w)) then tops (woSpans o) else 0
  | _, _ => 0

/-- Points after one word; `none` when the path breaks a rule. The XFER.WAIT that R118 asks before a SLIP stands on the path of its
XFER.START (DESIGN CHOICE, log entry 112). -/
def pathNext (p : Plan) (i : Nat) (ws : List W128) (x : PathPt) : Option (List PathPt) :=
  match ws[x.pc]? with
  | none => none
  | some w =>
    let go := fun (y : PathPt) => if staticOk x.regs w then some [{ y with pc := x.pc + 1, regs := staticRegs x.regs w }] else none
    let tile := fun c => c - 0x58
    let k := field (wImm w) 0 32
    match wCls w, wOp w with
    | 0x0, 0x01 =>
      if wMod w = 0 then some [{ x with pc := brTarget w }] else some [{ x with pc := brTarget w }, { x with pc := x.pc + 1 }]
    | 0x0, 0x03 =>
      if k = x.slips && decide (x.slips < (innerSlips p i).length) && x.pend.isEmpty then
        some [{ x with slips := x.slips + 1, pc := field (wImm w) 32 32, regs := [] }]
      else none
    | 0x0, 0x04 => if x.slips = (innerSlips p i).length then some [] else none
    | 0xA, 0x00 => go { x with pend := if x.pend.contains k then x.pend else x.pend ++ [k] }
    | 0xA, _ => go { x with pend := x.pend.erase k }
    | 0xB, 0x00 => go { x with tiles := [0, 0, 0, 0] }
    | 0x7, 0x02 => if x.tiles.getD (tile (wA w)) 3 = 0 || (isMxCode (wFmt w) && x.tiles.getD (tile (wA w) + 1) 3 = 0) then none else go x
    | 0x7, _ => go { x with tiles := x.tiles.set (tile (wDst w)) (if wFmt w = 0x10 then 1 else 2) }
    | 0x6, _ =>
      if x.tiles.getD (tile (wDst w)) 3 = 0 then none
      else go { x with tiles := x.tiles.set (tile (wDst w)) (if isLongFmt (wFmt w) && isLongFmt (wMod w % 32) then 1 else 4) }
    | _, _ => go x

/-- Every point reachable from a work list; `none` when some path breaks a rule. -/
def reach (f : PathPt → Option (List PathPt)) : (fuel : Nat) → (work seen : List PathPt) → Option (List PathPt)
  | 0, _, _ => none
  | _ + 1, [], seen => some seen
  | n + 1, x :: r, seen =>
    if seen.contains x then reach f n r seen
    else match f x with
      | none => none
      | some ys => reach f n (ys ++ r) (x :: seen)

/-- Bound on the points a search visits, far above what 65,536 words and their states give. -/
def pathFuel : Nat := 2 ^ 64

/-- Points of a program in a step. -/
def progPoints (p : Plan) (i : Nat) (g : Prog) : Option (List PathPt) :=
  if g.lgs = 0 then some [] else reach (pathNext p i g.words) pathFuel [⟨0, 0, [], [3, 3, 3, 3], []⟩] []

def stepProgs (p : Plan) (i : Nat) : List Prog := (p.code.getD (stepOf p i).code []).take (32 * p.regionCount)

/-- A program of a step holds a UNP store or atomic on a path (R101). -/
def progStores (p : Plan) (i : Nat) (g : Prog) : Bool :=
  match progPoints p i g with
  | none => false
  | some pts => pts.any (fun x => match g.words[x.pc]? with
    | some w => wCls w == 9 && (wOp w == 1 || wOp w == 2)
    | none => false)

/-- The highest tile-store byte that static addresses of a plan's programs reach (R258). -/
def codeTop (p : Plan) : Nat :=
  listMax ((stepIdx p).flatMap (fun i => (stepProgs p i).flatMap (fun g => ((progPoints p i g).getD []).map (fun x =>
    ((g.words[x.pc]?).map (wordTop p x.regs)).getD 0))))

def stepStores (p : Plan) (i : Nat) : Bool := (stepProgs p i).any (progStores p i)

/-- Words of a program on a path, each once. -/
def pathWords (g : Prog) (pts : List PathPt) : List W128 := (pts.map (·.pc)).dedup.filterMap (fun k => g.words[k]?)

/-- What words of a program can leave in an accumulator tile: the codes of `PathPt.tiles`. -/
def tileKinds (ws : List W128) (tile : Nat) : List Nat :=
  ws.filterMap (fun w =>
    if (wCls w = 6 || (wCls w = 7 && wOp w != 2)) && wDst w = 0x58 + tile then
      some (if wCls w = 7 then (if wFmt w = 0x10 then 1 else 2) else if isLongFmt (wFmt w) && isLongFmt (wMod w % 32) then 1 else 4)
    else none)

/-- ACC_MODE agrees with what feeds a tile (R75, R80, R92): a long accumulator; FP32 of matrix operations; FP32 of vector operations. -/
def modeAgrees (mode t : Nat) : Bool :=
  match mode with
  | 0 => t == 1
  | 1 => t == 2 || t == 4
  | _ => t == 2

/-- Write-outs that name a REDUCTION record agree with it (R92, R111): its index, its format, and its accumulator, as the path has set
it, or where another lane group sets it as some word of the program may: for mode 2 then no word feeds the tile by a matrix operation. -/
def redWord (p : Plan) (ws : List W128) (x : PathPt) (w : W128) : Bool :=
  if wCls w = 7 && wOp w = 2 && bitOf (wMod w) 0 then
    match p.reds[field (wImm w) 32 20]? with
    | none => false
    | some r =>
      let t := x.tiles.getD (wA w - 0x58) 3
      let ks := tileKinds ws (wA w - 0x58)
      r.fmt == wFmt w && (if t = 3 then ks.any (modeAgrees r.mode) && (r.mode != 2 || ks.all (modeAgrees 2)) else modeAgrees r.mode t)
  else true

def check14Code (p : Plan) : Bool :=
  (stepIdx p).all (fun i => (stepProgs p i).all (fun g =>
    match progPoints p i g with
    | none => true
    | some pts => pts.all (fun x => match g.words[x.pc]? with
      | some w => redWord p (pathWords g pts) x w
      | none => true)))

/-- A node that this module computes: no place record names another module for it (R206, R302). -/
def nodeHere (p : Plan) (list k : Nat) : Bool := !p.places.any (fun y => y.list == list && y.record == k && y.peer != 0xFFFF)

/-- A word that feeds a partial of an ACC_MODE (R75, R80, R92): a matrix operation into a long accumulator, one into FP32, or an FP32
vector operation. -/
def feedWord (mode : Nat) (w : W128) : Bool :=
  match mode with
  | 0 => wCls w == 6 && isLongFmt (wFmt w) && isLongFmt (wMod w % 32)
  | 1 => wCls w == 6 && !(isLongFmt (wFmt w) && isLongFmt (wMod w % 32))
  | _ => wCls w == 2 && decide (wOp w ≤ 5)

/-- A word that can combine two children (R79, R81): of long accumulators a load of an image or an integer addition of its parts, of FP32
values an FP32 addition or subtraction, alone or fused. -/
def joinWord (mode : Nat) (w : W128) : Bool :=
  if mode = 0 then (wCls w == 7 && wOp w == 1 && wFmt w == 0x10) || (wCls w == 2 && wOp w == 0x20)
  else wCls w == 2 && (wOp w == 0 || wOp w == 1 || wOp w == 3)

/-- A node against the program of its step and core (R82, R92): a core that runs, and holds a word that feeds a partial, or combines two
children, of its ACC_MODE (DEDUCED, log entry 74). -/
def nodeFed (p : Plan) (r : RedRec) (n : NodeRec) : Bool :=
  let g := (p.code.getD (stepOf p n.step).code []).getD (32 * n.rel + n.core) {}
  match progPoints p n.step g with
  | none => true
  | some pts =>
    let ws := pathWords g pts
    g.lgs != 0 && ws.any (if n.combine then joinWord r.mode else feedWord r.mode)

/-- The values of a node's children that it does not find on its own core are moved by the transfer tables (R82): an entry out of the
child's core and one into the node's core, in the steps from the child's to the node's, each where that end is of this module (DEDUCED,
log entry 74). -/
def nodeMoved (p : Plan) (r : RedRec) (ns : List NodeRec) (k : Nat) (n : NodeRec) : Bool :=
  !n.combine || [n.a, n.b].all (fun j => match ns[j]? with
    | none => true
    | some c =>
      let es := (stepIdx p).flatMap (fun i => if c.step ≤ i && i ≤ n.step then (p.dirs.getD (stepOf p i).xfer {}).xfers else [])
      let home := nodeHere p r.node k
      let near := nodeHere p r.node j
      (home && near && c.rel == n.rel && c.core == n.core)
        || ((!near || es.any (fun e => e.rel == c.rel && e.core == c.core && e.dir != 0))
          && (!home || es.any (fun e => e.rel == n.rel && ((e.dir == 0 && e.core == n.core) || (e.dir == 2 && e.dstCore == n.core))))))

def check14Nodes (p : Plan) : Bool :=
  p.reds.all (fun r =>
    let ns := (p.dirs.getD r.node {}).nodes
    ns.zipIdx.all (fun e => (!nodeHere p r.node e.2 || nodeFed p r e.1) && nodeMoved p r ns e.2 e.1))

/-! ### Durations of transfer entries (R203, R304) -/

/-- d of R304 for a caravan entry with `s` lines a region. -/
def caravanTime (e : XferRec) (q : PeerRec) (s : Nat) : Nat :=
  let b := e.rows * e.rowBytes
  let k := if q.rate400 then 2 else 1
  3300 + 2 * peerPath q + max (max (ceilDiv b 256) (ceilDiv (b * 704 * k) 1000)) (ceilDiv b (64 * max s 1) * (2 * peerPath q + 2200))

/-- The charge of entry `k` of step `i`: without SLOT_CLAIMS the larger of its FAR and HOST charges (R204). -/
def chargeOf (p : Plan) (i k : Nat) (e : XferRec) : Nat :=
  let c := p.claims.getD (stepOf p i).claim ⟨0, 0⟩
  if e.dir = 2 then 220 + ceilDiv (e.rows * e.rowBytes) 256
  else if p.place.isEmpty then max (entryTime e 2 0 0) (entryTime e 4 0 0)
  else if slotCode p e.slot = 5 then
    match sendsOf p (stepOf p i).xfer k with
    | y :: _ => caravanTime e (p.peers.getD y.peer ⟨0, false, 1, 0⟩) (((creditOf p i y.peer).getD 0) / p.regionCount)
    | [] => 0
  else entryTime e (slotCode p e.slot) c.near c.far

/-! ### The worst case of one region's programs (R101) -/

/-- A lane group of the recomputation: `st` 0 running, 1 ended, 2 at BAR, 3 at SLIP, 4 on XFER entry `arg`, 5 on semaphore `arg` for `n`. -/
structure WAgent where
  core : Nat
  lg : Nat
  pc : Nat := 0
  t : Nat := 0
  /-- When each written register is ready, by operand code. -/
  ready : Map Nat := []
  loops : Map Nat := []
  st : Nat := 0
  arg : Nat := 0
  n : Nat := 0
  deriving DecidableEq, Repr

/-- A core's matrix engine and write-out (R90, R110), and its count of unplanned accesses (R116). -/
structure WCore where
  eng : Nat := 0
  starts : List Nat := []
  wo : Nat := 0
  woStarts : List Nat := []
  /-- End of the last engine operation and of the last write-out on each tile. -/
  tileOp : Map Nat := []
  tileWo : Map Nat := []
  modes : Map Nat := []
  unp : Nat := 0
  deriving DecidableEq, Repr

/-- The recomputation of one region: agents, cores, the stream engine, semaphores. -/
structure WSim where
  ags : List WAgent := []
  cores : Map WCore := []
  fifo : Nat := 0
  done : Map Nat := []
  /-- Entry starts to come: (time, entry, its slip offset at an AUTO start). -/
  evs : List (Nat × Nat × Option Nat) := []
  /-- Issued entries that wait for their AFTER entry. -/
  after : List (Nat × Nat) := []
  sems : Map Nat := []
  sigAt : Map Nat := []
  slips : Nat := 0
  fin : Nat := 0
  /-- A semaphore instruction fell outside its hold (R114). -/
  semBad : Bool := false
  deriving DecidableEq, Repr

/-- What the recomputation of one path answers: the time, the largest count of a core, and whether every semaphore is in its hold. -/
structure WOut where
  time : Nat := 0
  unp : Nat := 0
  ok : Bool := true
  deriving DecidableEq, Repr

/-- Where a recomputation looks: the plan, step and relative region, and whether it follows one item of one lane group (R150). -/
structure WEnv where
  p : Plan
  i : Nat
  rel : Nat
  solo : Bool := false

def WSim.setAg (x : WSim) (a : WAgent) : WSim :=
  { x with ags := x.ags.map (fun b => if b.core = a.core ∧ b.lg = a.lg then a else b) }
def WSim.setCore (x : WSim) (c : Nat) (y : WCore) : WSim := { x with cores := mset x.cores {} c y }
def WSim.core (x : WSim) (c : Nat) : WCore := mget x.cores {} c
def WSim.atLeast (x : WSim) (t : Nat) : WSim := { x with fin := max x.fin t }

def envProg (v : WEnv) (core : Nat) : Prog := (v.p.code.getD (stepOf v.p v.i).code []).getD (32 * v.rel + core) {}
def envXfers (v : WEnv) : List XferRec := (v.p.dirs.getD (stepOf v.p v.i).xfer {}).xfers

/-- Operand codes a word reads, with the registers after a first one where the class takes several. -/
def wordReads (w : W128) : List Nat :=
  let wide := fun c n => if isV c then (List.range n).map (c + ·) else [c]
  let size8 := field (wMod w) 0 2 == 3
  [0x50 + wPred w] ++
  (match wCls w with
    | 0x9 => wide (wA w) 2 ++ wide (wB w) (if size8 then 2 else 1) ++ wide (wC w) (if size8 then 2 else 1)
    | 0x5 => [wA w, wB w] ++ wide (wC w) (if field (wMod w) 2 2 == 3 then 2 else 1)
    | 0xB => wide (wA w) (if wOp w = 6 then 2 else 4) ++ [wB w]
    | 0x7 => if wOp w = 2 then [wB w, wC w, wDst w] else [wA w]
    | 0x6 => [wA w, wB w, wC w]
    | _ => [wA w, wB w, wC w])

/-- A planned sampler of a step's passes is trilinear: FILTER 2 (R137). -/
def samplerTri (p : Plan) (i k : Nat) : Bool := (shadePasses p i).any (fun j => (((p.passes.getD j {}).samplers)[k]?.map (·.filter)) == some 2)

/-- Issue occupancy and result latency of a word (R100, R101, R146, R157). Unplanned accesses are priced by admission. A TS.ST is charged
the time of a load, 8 + 3 and its conflicts (DESIGN CHOICE, log entry 110). -/
def wordCost (p : Plan) (i : Nat) (w : W128) : Nat × Nat :=
  match wCls w, wOp w with
  | 0x1, _ => (1, 2)
  | 0x2, _ => (1, 4)
  | 0x3, _ => (4, 12)
  | 0x4, op => if op = 1 || elemBits (wFmt w) < 16 then (2, 8) else (1, 4)
  | 0x5, _ =>
    let conf := if field (wMod w) 0 2 = 1 then 31 else 0
    (1 + conf, (if bitOf (wMod w) 4 then 16 + 12 else 8 + 3) + conf)
  | 0xB, 0x01 => (1, 4)
  | 0xB, 0x02 => (1, 8)
  | 0xB, 0x03 => (1, 4)
  | 0xB, 0x05 => if samplerTri p i (field (wImm w) 0 3) then (4, 48) else (2, 32)
  | 0xB, 0x06 => (2, 2)
  | 0xB, 0x07 => (1, 256)
  | _, _ => (1, 1)

/-- Unplanned accesses a word is charged (R116, R146). -/
def wordUnp (p : Plan) (i : Nat) (w : W128) : Nat :=
  if wCls w = 9 then (if decide (wOp w ≤ 2) && bitOf (wMod w) 2 then 1 else 32)
  else if wCls w = 0xB && wOp w = 6 then (if samplerTri p i (field (wImm w) 0 3) then 256 else 128)
  else 0

/-- Engine cycles of one matrix queue entry (R90, R100). -/
def engTime (w : W128) : Nat :=
  if wCls w = 6 then
    let b := max (elemBits (wFmt w)) (elemBits (wMod w % 32))
    field (wImm w) 0 8 * (if b = 16 then 64 else if b = 8 then 32 else 16)
  else if wOp w = 0 then 1
  else if wFmt w = 0x10 then 16 else 4

/-- The earliest time from `t` at which a queue of four has room, from the start times of its entries, newest first (R110). -/
def queueRoom (starts : List Nat) (t : Nat) : Nat := max t (starts.getD 3 0)

/-- Serve the semaphore's waiters in arrival order (R113): each is satisfied 24 cycles after the signal (R114), which is the last SEM.SIG
before the count suffices (DESIGN CHOICE, log entry 111). -/
def wServe (v : WEnv) (sem : Nat) : (ws : List WAgent) → WSim → WSim
  | [], x => x
  | a :: r, x =>
    let have_ := mget x.sems 0 sem
    if a.n ≤ have_ then
      let t := max (a.t + 1) (mget x.sigAt 0 sem + 24)
      let bad := match (envProg v a.core).words[a.pc]? with
        | none => false
        | some w => (match holdOf v.p v.i w with
          | none => true
          | some h => decide (h.release ≤ t))
      wServe v sem r { x.setAg { a with st := 0, pc := a.pc + 1, t := t } with sems := mset x.sems 0 sem (have_ - a.n), semBad := x.semBad || bad }
    else x

/-- Lane groups waiting on a semaphore, in arrival order. -/
def wWaiters (x : WSim) (sem : Nat) : List WAgent :=
  let ws := x.ags.filter (fun a => a.st == 5 && a.arg == sem)
  ws.foldr (fun a acc => acc.takeWhile (fun b => decide (b.t < a.t)) ++ [a] ++ acc.dropWhile (fun b => decide (b.t < a.t))) []

/-- Release a core's barrier when every lane group has arrived or ended (R103). -/
def wBarrier (c : Nat) (x : WSim) : WSim :=
  let mine := x.ags.filter (fun a => a.core == c)
  if mine.any (fun a => a.st == 2) && mine.all (fun a => a.st == 1 || a.st == 2) then
    let t := listMax (mine.map (·.t)) + 8
    { x with ags := x.ags.map (fun a => if a.core = c && a.st = 2 then { a with st := 0, t := t } else a) }
  else x

/-- An entry is issued at `t` (R112). -/
def wIssueEntry (k t : Nat) (x : WSim) : WSim := { x with done := mdel x.done k, evs := x.evs ++ [(t, k, none)] }

/-- An entry starts at `t`: it completes in the order of the region's FIFO (R203). -/
def wStartEntry (v : WEnv) (k t : Nat) (x : WSim) : WSim :=
  let c := max t x.fifo + chargeOf v.p v.i k ((envXfers v).getD k {})
  let ready := x.after.filter (fun a => let e := (envXfers v).getD a.2 {}; e.after == k)
  ({ x with
    fifo := c
    done := mins x.done k c
    after := x.after.filter (fun a => !ready.contains a)
    evs := x.evs ++ ready.map (fun a => (max a.1 c, a.2, none))
    ags := x.ags.map (fun a => if a.st = 4 && a.arg = k then { a with st := 0, t := max a.t c } else a) } : WSim).atLeast c

/-- An entry whose time has come starts, or waits for its AFTER entry (R202, R203). -/
def wFire (v : WEnv) (e : Nat × Nat × Option Nat) (x0 : WSim) : WSim :=
  let x := { x0 with evs := x0.evs.erase e }
  let r := (envXfers v).getD e.2.1 {}
  if r.afterEn then
    match mfind x.done r.after with
    | some c => wStartEntry v e.2.1 (max e.1 c) x
    | none => { x with after := x.after ++ [(e.1, e.2.1)] }
  else wStartEntry v e.2.1 e.1 x

/-- AUTO entries of the region from an offset on, at their times after `t` (R202). -/
def wAuto (v : WEnv) (off t : Nat) (x : WSim) : WSim :=
  (envXfers v).zipIdx.foldl (fun y e =>
    if e.1.auto && e.1.rel == v.rel && decide (off ≤ e.1.startAt) then
      { y with evs := y.evs ++ [(t + (e.1.startAt - off), e.2, some e.1.startAt)] }
    else y) x

/-- Take one matrix or accumulator operation (R110). -/
def wEngine (w : W128) (a : WAgent) (t0 : Nat) (x : WSim) : WSim :=
  let c := x.core a.core
  let tile := wDst w - 0x58
  let t := queueRoom c.starts t0
  let st := max (max t c.eng) (mget c.tileWo 0 tile)
  let e := st + engTime w
  let modes := if wCls w = 7 then mset c.modes 0 tile (if wFmt w = 0x10 then 1 else 2) else c.modes
  ((x.setCore a.core { c with eng := e, starts := (st :: c.starts).take 4, tileOp := mset c.tileOp 0 tile e, modes := modes }).setAg
    { a with pc := a.pc + 1, t := t + 1 }).atLeast e

/-- Take one write-out (R90, R110, R111). -/
def wWriteOut (w : W128) (a : WAgent) (t0 : Nat) (x : WSim) : WSim :=
  let c := x.core a.core
  let tiles := if isMxCode (wFmt w) then [wA w - 0x58, wA w - 0x57] else [wA w - 0x58]
  let t := queueRoom c.woStarts t0
  let st := max (max t c.wo) (listMax (tiles.map (mget c.tileOp 0)))
  let e := st + (tiles.map (fun k => if mget c.modes 0 k = 2 then 4 else 16)).sum
  ((x.setCore a.core { c with wo := e, woStarts := (st :: c.woStarts).take 4, tileWo := tiles.foldl (fun m k => mset m 0 k e) c.tileWo }).setAg
    { a with pc := a.pc + 1, t := t + 1 }).atLeast e

/-- Whether a time lies in the hold that a semaphore word names (R114). -/
def inHold (v : WEnv) (w : W128) (t : Nat) : Bool :=
  match holdOf v.p v.i w with
  | none => false
  | some h => decide (h.acquire ≤ t) && decide (t < h.release)

/-- One instruction of one lane group; several states where the path divides. -/
def wInstr (v : WEnv) (a : WAgent) (w : W128) (x : WSim) : List WSim :=
  let lgs := (envProg v a.core).lgs
  let t := listMax (a.t :: (wordReads w).map (mget a.ready 0)) + (lgs - 1)
  let cost := wordCost v.p v.i w
  let plain := fun (x : WSim) => (x.setAg { a with
    pc := a.pc + 1
    t := t + cost.1
    ready := (wordWrites w).foldl (fun m r => mset m 0 r (t + cost.2)) a.ready }).atLeast (t + max cost.1 cost.2)
  let k := field (wImm w) 0 32
  let sem := field (wImm w) 0 8
  let n := field (wImm w) 16 16
  let c := x.core a.core
  let x1 := if wordUnp v.p v.i w = 0 then x else x.setCore a.core { c with unp := c.unp + wordUnp v.p v.i w }
  match wCls w, wOp w with
  | 0x0, 0x01 =>
    let taken := fun (l : Map Nat) => (x.setAg { a with pc := brTarget w, t := t + 4, loops := l }).atLeast (t + 4)
    let past := fun (l : Map Nat) => (x.setAg { a with pc := a.pc + 1, t := t + 1, loops := l }).atLeast (t + 1)
    if a.pc < brTarget w then (if wMod w = 0 then [taken a.loops] else [taken a.loops, past a.loops])
    else
      let m := mget a.loops 0 a.pc
      if m < brBound w then [taken (mset a.loops 0 a.pc (m + 1))]
      else if wMod w = 0 then [(x.setAg { a with st := 1, t := t + 1 }).atLeast (t + 1)]
      else [past (mset a.loops 0 a.pc 0)]
  | 0x0, 0x02 =>
    if v.solo then [(x.setAg { a with pc := a.pc + 1, t := t + 9 }).atLeast (t + 9)]
    else [wBarrier a.core (x.setAg { a with pc := a.pc + 1, st := 2, t := t + 1 })]
  | 0x0, 0x03 => [(x.setAg { a with st := if v.solo then 1 else 3, pc := field (wImm w) 32 32, t := t + 1 }).atLeast (t + 1)]
  | 0x0, 0x04 => [wBarrier a.core ((x.setAg { a with st := 1, t := t + 1 }).atLeast (t + 1))]
  | 0x6, _ => [wEngine w a t x]
  | 0x7, 0x02 => [wWriteOut w a t x]
  | 0x7, _ => [wEngine w a t x]
  | 0x8, 0x00 =>
    let y := x.setAg { a with pc := a.pc + 1, t := t + 1 }
    let y := { y with sems := mset y.sems 0 sem (mget y.sems 0 sem + n), sigAt := mset y.sigAt 0 sem t, semBad := y.semBad || !inHold v w t }
    [wServe v sem (wWaiters y sem) y]
  | 0x8, 0x01 =>
    let y := { x with semBad := x.semBad || !inHold v w t }
    if v.solo then [(y.setAg { a with pc := a.pc + 1, t := t + 24 }).atLeast (t + 24)]
    else
      let y := y.setAg { a with st := 5, arg := sem, n := n, t := t }
      [wServe v sem (wWaiters y sem) y]
  | 0x8, _ =>
    let y := plain { x with semBad := x.semBad || !inHold v w t }
    [if (wWaiters x sem).isEmpty && decide (n ≤ mget x.sems 0 sem) then { y with sems := mset y.sems 0 sem (mget x.sems 0 sem - n) } else y]
  | 0xA, 0x00 => [wIssueEntry k t (plain x)]
  | 0xA, _ =>
    match mfind x.done k with
    | some d => [(x.setAg { a with pc := a.pc + 1, t := max (t + 1) d }).atLeast (max (t + 1) d)]
    | none =>
      if v.solo && !(x.evs.any (fun e => e.2.1 == k)) then [plain x]
      else [x.setAg { a with pc := a.pc + 1, st := 4, arg := k, t := t + 1 }]
  | 0xB, 0x00 =>
    -- the items of a GRAPHICS step are charged by R150
    [wBarrier a.core ((x.setAg { a with st := 1, t := t + 1 }).atLeast (t + 1))]
  | _, _ => [plain x1]

/-- The region passes a slip point at the last arrival and completion, 320 cycles later (R118). -/
def wSlip (v : WEnv) (x : WSim) : WSim :=
  let off := ((innerSlips v.p v.i)[x.slips]?.map (·.offset)).getD 0
  let t := max x.fin (listMax (x.ags.map (·.t))) + 320
  let core := fun (y : WCore) => ({ unp := y.unp } : WCore)
  wAuto v off t { x with
    ags := x.ags.map (fun a => { a with st := 0, t := t, ready := [], loops := [] })
    cores := mmap x.cores (fun _ y => core y)
    fifo := t
    evs := []
    after := []
    sems := []
    sigAt := []
    slips := x.slips + 1
    fin := t }

/-- The next agent to issue: the earliest, then the lower core and lane group. -/
def wFirst (x : WSim) : Option WAgent :=
  x.ags.foldl (fun b a =>
    if a.st != 0 then b else match b with
      | none => some a
      | some y => if a.t < y.t then some a else b) none

def wFirstEv (evs : List (Nat × Nat × Option Nat)) : Option (Nat × Nat × Option Nat) :=
  evs.foldl (fun b e => match b with
    | none => some e
    | some y => if e.1 < y.1 then some e else b) none

/-- One event of the recomputation; `none` when the region has finished or can go no further. An AUTO entry at or above the next slip
point's OFFSET starts after it (R202); every other start comes before it. -/
def wStep (v : WEnv) (x : WSim) : Option (List WSim) :=
  let instr := fun (a : WAgent) => match (envProg v a.core).words[a.pc]? with
    | none => [x.setAg { a with st := 1 }]
    | some w => wInstr v a w x
  let slip := x.after.isEmpty && x.ags.any (fun a => a.st == 3) && x.ags.all (fun a => a.st == 3 || a.st == 1)
  let later := fun (e : Nat × Nat × Option Nat) => match e.2.2, (innerSlips v.p v.i)[x.slips]? with
    | some st, some y => !x.ags.isEmpty && decide (y.offset ≤ st)
    | _, _ => false
  match wFirst x, wFirstEv (x.evs.filter (fun e => !later e)) with
  | some a, some e => if e.1 ≤ a.t then some [wFire v e x] else some (instr a)
  | some a, none => some (instr a)
  | none, some e => some [wFire v e x]
  | none, none => if slip then some [wSlip v x] else none

def wJoin (a b : Option WOut) : Option WOut :=
  match a, b with
  | some x, some y => some ⟨max x.time y.time, max x.unp y.unp, x.ok && y.ok⟩
  | _, _ => none

/-- The largest result over every path; `none` when some path never finishes. -/
def wRun (v : WEnv) : (fuel : Nat) → WSim → Option WOut
  | 0, _ => none
  | n + 1, x =>
    match wStep v x with
    | none => if x.ags.all (fun a => a.st == 1) && x.after.isEmpty then some ⟨x.fin, listMax (x.cores.map (fun c => c.2.unp)), !x.semBad⟩ else none
    | some ys => (ys.map (wRun v n)).foldl wJoin (some {})

/-- Lane groups of a relative region at word 0. -/
def wAgents (p : Plan) (i rel : Nat) : List WAgent :=
  (List.range 32).flatMap (fun c => (List.range ((p.code.getD (stepOf p i).code []).getD (32 * rel + c) {}).lgs).map (fun g => { core := c, lg := g }))

/-- The result of R101 for one relative region. -/
def wRegion (p : Plan) (i rel : Nat) : Option WOut :=
  let v : WEnv := { p := p, i := i, rel := rel }
  wRun v pathFuel (wAuto v 0 0 { ags := wAgents p i rel })

/-! ### Graphics steps (R150, R151) -/

/-- The worst item of one core of a step: from each GFX.NEXT to the next, on every path. -/
def itemCost (p : Plan) (i rel core : Nat) : Option WOut :=
  let g := (p.code.getD (stepOf p i).code []).getD (32 * rel + core) {}
  match progPoints p i g with
  | none => none
  | some pts =>
    let starts := (pts.filter (fun x => match g.words[x.pc]? with
      | some w => wCls w == 0xB && wOp w == 0
      | none => false)).map (·.pc)
    (starts.map (fun k => wRun { p := p, i := i, rel := rel, solo := true } pathFuel { ags := [{ core := core, lg := 0, pc := k + 1 }] })).foldl
      wJoin (some {})

/-- V, F or N of a step: the worst item of its programs, which R150 runs on every path from GFX.NEXT to the next. -/
def stepItem (p : Plan) (i : Nat) : Option WOut :=
  ((List.range (32 * p.regionCount)).map (fun k => itemCost p i (k / 32) (k % 32))).foldl wJoin (some {})

def scratchClear (x : PassRec) : Nat := ceilDiv x.scratchBytes 512
def precBytes (x : PassRec) : Nat := 64 + 3 * x.vout
def gLead (x : PassRec) : Nat := ceilDiv (3072 * (x.vin + 4)) 256
def gBatches (p : Plan) (x : PassRec) : Nat := ceilDiv (ceilDiv x.submitMax 1024) p.regionCount
def gBatch (x : PassRec) (item : Nat) : Nat :=
  max (4096 + 3 * (item + scratchClear x)) (ceilDiv (3072 * (x.vin + 4) + 1024 * (precBytes x + 32)) 256)
def gExcess (x : PassRec) : Nat := x.binEntries - 4 * x.submitMax
/-- Bytes that LOAD attachments bring over the extent (R144). -/
def loadBytes (x : PassRec) : Nat := ((x.attach.filter (fun a => a.loadOp == 1)).map (fun a => layoutBytes a.layout * passSamples x)).sum * tilePixels x
/-- Bytes a tile stores or resolves over its own pixels (R144). -/
def writeBytes (x : PassRec) : Nat :=
  (x.attach.map (fun a => if a.storeOp = 0 then layoutBytes a.layout * passSamples x else if a.storeOp = 1 then layoutBytes a.layout else 0)).sum
    * (tileW x * tileH x)
def stageBytes (x : PassRec) : Nat := x.footBlocks * 1024 + x.tileEntries * (8 + precBytes x) + loadBytes x
def fragLead (x : PassRec) : Nat := ceilDiv (stageBytes x) 8
def fragQuads (p : Plan) (x : PassRec) : Nat := if x.submitMax = 0 then 0 else ceilDiv ((p.env.overdraw.getD 0) * tilePixels x) 16
def netCost (x : PassRec) (item : Nat) : Nat := if x.network then item + scratchClear x else 0
/-- T of R150. -/
def tileTime (p : Plan) (x : PassRec) (item : Nat) : Nat :=
  960 + max (max (ceilDiv (fragQuads p x) 8 * (item + scratchClear x)) x.tileEntries) (max (ceilDiv (stageBytes x) 8) (ceilDiv (writeBytes x) 8))
    + netCost x item
/-- A binning step comes before the pass's fragment step (R124). -/
def binnedBefore (x : PassRec) : Bool := x.binned && x.submitMax != 0

/-- The fragment charge of a DIRECT pass (R150). -/
def directFrag (p : Plan) (x : PassRec) (item : Nat) : Nat :=
  let n := tilesMax x p.regionCount
  ceilDiv (n * loadBytes x) 8 + n * tileTime p x item + ceilDiv (n * writeBytes x) 8

/-- Worst case of a GRAPHICS step's passes (R150). -/
def gfxWorst (p : Plan) (i item : Nat) : Nat :=
  let geo := ((geoPasses p i).map (fun k => p.passes.getD k {})).filter (·.binned)
  let shade := (shadePasses p i).map (fun k => p.passes.getD k {})
  (geo.map (fun x => gLead x + gBatches p x * gBatch x item + gExcess x + fragLead x)).sum
    + (shade.map (fun x =>
      if x.binned then (if binnedBefore x then 0 else fragLead x) + tilesMax x p.regionCount * tileTime p x item + ceilDiv (writeBytes x) 8
      else gBatches p x * gBatch x item + gExcess x + directFrag p x item)).sum

/-- The step end of R101. -/
def stepEndTime (p : Plan) (i : Nat) : Nat := 1024 + (if stepStores p i then 4096 else 0)

/-- Passes of a step bound by the envelope: without both bounds the graphics terms have no bound (R150). -/
def gfxBounded (p : Plan) : Bool := p.env.prims.isSome && p.env.overdraw.isSome

/-- The largest BUDGET of a step's wait records (R303). -/
def stepBudget (p : Plan) (i : Nat) : Nat := listMax ((p.waits.filter (fun w => w.step == i)).map (·.budget))

/-- The recomputed worst case of a step, with the unplanned count; `none` when a path never finishes. -/
def stepWorst (p : Plan) (i : Nat) : Option WOut :=
  match ((List.range p.regionCount).map (wRegion p i)).foldl wJoin (some {}) with
  | none => none
  | some r =>
    let tail := stepEndTime p i + (if (stepOf p i).cross then stepBudget p i else 0)
    if !(stepOf p i).graphics then some { r with time := r.time + tail }
    else
      match stepItem p i with
      | none => none
      | some k =>
        let items := ((geoPasses p i).map (fun j => 96 * gBatches p (p.passes.getD j {}))).sum
          + ((shadePasses p i).map (fun j =>
            let x := p.passes.getD j {}
            tilesMax x p.regionCount * ((if gfxBounded p then ceilDiv (fragQuads p x) 8 else 0) + (if x.network then 32 else 0)))).sum
        some ⟨(if gfxBounded p then max r.time (gfxWorst p i k.time) else r.time) + tail, r.unp + items * k.unp, r.ok && k.ok⟩

/-- Graphics stretches of a step, with the step end on the last phase (R151); `be` takes the BE fragment stretch of R152. -/
def gfxStretches (p : Plan) (i item : Nat) (be : Bool) : List Nat :=
  let geo := fun (x : PassRec) (tail : Nat) => [gBatch x item + gLead x, gBatch x item, gBatch x item + gExcess x + tail]
    ++ (if gBatches p x ≤ 1 then [gBatch x item + gLead x + gExcess x + tail] else [])
  let inner := fun (x : PassRec) => 960 + ceilDiv (tilePixels x) 32 * (item + scratchClear x) + netCost x item
  let frag := fun (x : PassRec) =>
    let lead := if binnedBefore x then 0 else fragLead x
    let last := ceilDiv (writeBytes x) 8
    if be then [inner x]
    else [tileTime p x item + lead, tileTime p x item, tileTime p x item + last]
      ++ (if tilesMax x p.regionCount ≤ 1 then [tileTime p x item + lead + last] else [])
  let direct := fun (x : PassRec) =>
    if be then [gBatch x item, inner x] else [gBatch x item + directFrag p x item]
  let phases := ((geoPasses p i).filter (fun k => (p.passes.getD k {}).binned)).map (fun k => geo (p.passes.getD k {}) (fragLead (p.passes.getD k {})))
    ++ (shadePasses p i).map (fun k => let x := p.passes.getD k {}; if x.binned then frag x else direct x)
  let ended := (match phases.getLast? with
    | some l => [(l.getLast?.getD 0) + stepEndTime p i]
    | none => [stepEndTime p i])
  phases.flatten ++ ended

/-- Declared stretches of a step (R47), with the write-back of R251 on those that end at a slip inside the step. -/
def declaredStretches (p : Plan) (i : Nat) : List Nat :=
  let offs := (innerSlips p i).map (·.offset)
  let add := if stepStores p i then 4096 else 0
  List.zipWith (fun a b => b - a + add) (0 :: offs) offs ++ [(stepOf p i).wcet - (offs.getLast?.getD 0)]

/-- The largest stretch of a step for one class. -/
def stepStretch (p : Plan) (i : Nat) (be : Bool) : Nat :=
  if (stepOf p i).graphics then
    (if gfxBounded p || be then (match stepItem p i with
      | some k => listMax (gfxStretches p i k.time be)
      | none => 0)
    else 0)
  else listMax (declaredStretches p i)

def planStretch (p : Plan) (be : Bool) : Nat := listMax ((stepIdx p).map (fun i => stepStretch p i be))

/-- Staged bytes of a core at a tile boundary (R152): one footprint buffer, one staging window, and the next slot of LOAD attachments. -/
def stagedBytes (x : PassRec) : Nat := x.footBlocks * 1024 + 16384 + (if loadBytes x = 0 then 0 else slotBytes x)
/-- LIVE_BYTES at a pass's tile boundary (R152). -/
def gfxLiveOf (x : PassRec) : Nat := x.keepBytes + 32 * stagedBytes x
/-- LIVE_BYTES at the graphics points of a pass: a DIRECT pass has batch boundaries only, and keeps KEEP_MAP there (R151, R152). -/
def pointLive (x : PassRec) : Nat := if x.binned then gfxLiveOf x else x.keepBytes

/-! ### The checks -/

/-- Check 9 (R47, R151, R251). -/
def check9 (p : Plan) : Bool :=
  (!p.lc || decide (planStretch p false ≤ 220000)) && (!p.be || decide (planStretch p true ≤ 88000))

/-- The parts of CORE_CODE stand where R121 says. -/
def codeLayout (img : Nat) (p : Plan) : Bool :=
  let base := secOff img 2
  let len := secLen img 2
  (List.range (codeCount p.steps)).all (fun k =>
    let o := base + 16 * k
    let po := gB img o 4
    rsvOk img o 16 [(0, 48)] && po % 16 == 0 && gB img (o + 4) 2 == 32 * p.regionCount && decide (16 * codeCount p.steps ≤ po)
      && decide (po + 16 * (32 * p.regionCount) ≤ len)
      && (List.range (32 * p.regionCount)).all (fun r =>
        let q := base + po + 16 * r
        let co := gB img q 4
        let n := gB img (q + 4) 4
        let g := gB img (q + 8) 1
        rsvOk img q 16 [(0, 72), (72, 3)] && co % 16 == 0 && decide (n ≤ 65536) && decide (g ≤ 32) && (n == 0) == (g == 0) && decide (co + 16 * n ≤ len)))

/-- Check 12 (R121, R122). -/
def check12 (img : Nat) (p : Plan) : Bool :=
  codeLayout img p
    && (stepIdx p).all (fun i =>
      (stepProgs p i).all (fun g => g.words.zipIdx.all (fun e => wordChecks p i g.words.length e.2 e.1) && (progPoints p i g).isSome)
        && (match stepWorst p i with
          | none => true
          | some r => r.ok && decide (r.unp ≤ (stepOf p i).unplanned)))

/-- The slip record at the end of a binning step covers the staged first tiles (R151). -/
def binSlipOk (p : Plan) (x : PassRec) : Bool :=
  if !binnedBefore x then true
  else
    (stepSlips p (x.step - 1)).any (fun y => y.offset == (stepOf p (x.step - 1)).wcet
      && (List.range (32 * p.regionCount)).all (fun k =>
        let rs := (p.dirs.getD y.map {}).ranges.filter (fun r => r.rel == k / 32 && r.core == k % 32)
        let has := fun a n => n == 0 || (List.range (ceilDiv (a % 4096 + n) 4096)).all (fun u => rs.any (fun r =>
          decide (r.start ≤ (a / 4096 + u) * 4096) && decide ((a / 4096 + u) * 4096 < r.start + r.len)))
        (tilesOf x p.regionCount (k / 32) (k % 32)).isEmpty
          || (has x.footBase (x.footBlocks * 1024) && has x.stageBase 16384 && (loadBytes x == 0 || has 0 (slotBytes x)))))

/-- The part of check 14 that needs programs and live sets (R92, R151, R152). -/
def check14More (p : Plan) : Bool :=
  check14Code p && check14Nodes p && p.passes.all (fun x => binSlipOk p x && decide (pointLive x ≤ 16777216))

/-- Check 15. -/
def check15 (p : Plan) : Bool :=
  (stepIdx p).all (fun i => match stepWorst p i with
    | none => false
    | some r => decide (r.time ≤ (stepOf p i).wcet))

/-- A plan with the figures that admission and the residency area use (R56, R152, R251, R258). -/
def withFigures (p : Plan) : Plan :=
  { p with
    stretchLc := planStretch p false, stretchBe := planStretch p true
    gfxLive := listMax (p.passes.map pointLive), tsTop := max (tsTopOf p) (codeTop p) }

/-- The first failed check of R48, in the order of its table; 0 when every check passes. -/
def planFault (img room slot : Nat) : Nat :=
  let p := readPlan img
  if !check1 img then 1
  else if !check2 img room then 2
  else if !check3 img then 3
  else if !check4 img then 4
  else if !check5 img then 5
  else if !check6 img p then 6
  else if !check7 img p then 7
  else if !check8 p then 8
  else if !check9 p then 9
  else if !check10 p then 10
  else if !check11 img p then 11
  else if !check12 img p then 12
  else if !check13 img p then 13
  else if !check14 img p slot || !check14More p then 14
  else if !check15 p then 15
  else if !check16 p then 16
  else if !p.lc && !p.be then 17
  else 0

end Sys2Proof.Machine
end

