-- ==== Sys2Proof/Machine/Plans.lean ====
section
/-! DEFINITION. Storing plans (R48, R239, R240): loading, patching and freeing a plan slot. -/

namespace Sys2Proof.Machine

/-- The bytes of the container that a load names: the whole of it where its header's TOTAL_BYTES fits the object, else the header. -/
def containerWalk (s : State) (q i ctx va room : Nat) : Walk :=
  match s.ctx? ctx with
  | none => { stop := some (.bad 3 0x0701) }
  | some c =>
    let k := walkVa s c false (userDesc q i) va 64 false
    match k.stop with
    | some _ => k
    | none =>
      let t := gB (ofLe (readPieces s k.pieces)) 8 8
      if t ≤ 64 || room < t then k else walkVa s c false (userDesc q i) va t false

/-- Bytes of a context's object from a local address on. -/
def roomAt (s : State) (ctx va : Nat) : Nat :=
  match objOfPage s ctx (va / 65536) with
  | none => 0
  | some (h, o) => (h + o.count) * 65536 - va

/-- Versions of a slot that still exist. -/
def slotVers (s : State) (ctx slot : Nat) : List (Nat × PlanVer) := s.fe.vers.filter (fun e => e.2.ctx == ctx && e.2.slot == slot)

/-- Hold the pages that carry a container at WRITABLE 0 (R239), with the context walk of a changed LTA entry (R168). -/
def holdPages (ctx first n : Nat) (s : State) : State :=
  match s.ctx? ctx with
  | none => s
  | some c => foldState ((List.range n).map (first + ·)) (fun p a => ltaSet a (c.ltaBase + p) (setField (ltaGet a (c.ltaBase + p)).toNat 24 1 0)) (contextWalk ctx s)

/-- Validate the container of a descriptor and store it as version `num` of its slot. -/
def storePlan (q i : Nat) (x : Queue) (d : W512) (num : Nat) (s : State) : State :=
  let va := dField d 40 8
  let slot := dField d 48 2
  let room := roomAt s x.ctx va
  let k := containerWalk s q i x.ctx va room
  match k.stop with
  | some t => stopDesc q i x d va 2 0 t 0 s
  | none =>
    let img := ofLe (readPieces s k.pieces)
    let e := planFault img room slot
    if e ≠ 0 then failed q i 0x0F e s
    else
      let p := withFigures (readPlan img)
      let first := va / 65536
      let n := (va + p.totalBytes - 1) / 65536 - first + 1
      let y : PlanVer := ⟨x.ctx, slot, num, p, first, n, true⟩
      let s1 := { s with fe := { s.fe with vers := mins s.fe.vers s.fe.nextVer y, nextVer := s.fe.nextVer + 1 } }
      done q i num (holdPages x.ctx first n s1)

/-- PLAN_LOAD: a free slot takes version 1. -/
def execPlanLoad (q i : Nat) (s : State) : Result :=
  descRow 0x101 (fun x _ d s =>
    let slot := dField d 48 2
    if 4096 ≤ slot || (currentVer s x.ctx slot).isSome then failed q i 1 0x0802 s else storePlan q i x d 1 s) q i s

/-- PLAN_PATCH: a slot in use takes its next version; it waits while the slot holds 8. -/
def execPlanPatch (q i : Nat) (s : State) : Result :=
  descRow 0x102 (fun x _ d s =>
    let slot := dField d 48 2
    match currentVer s x.ctx slot with
    | none => failed q i 1 0x0802 s
    | some (_, y) => if 8 ≤ (slotVers s x.ctx slot).length then s else storePlan q i x d (y.num + 1) s) q i s

/-- PLAN_FREE: the slot is free for new loads, and its versions retire as their launches complete. -/
def execPlanFree (q i : Nat) (s : State) : Result :=
  descRow 0x103 (fun x _ d s =>
    let slot := dField d 48 2
    match currentVer s x.ctx slot with
    | none => failed q i 1 0x0802 s
    | some _ => done q i 0 { s with fe := { s.fe with
        vers := s.fe.vers.map (fun e => if e.2.ctx = x.ctx ∧ e.2.slot = slot then (e.1, { e.2 with stored := false }) else e) } }) q i s

end Sys2Proof.Machine
end

