-- ==== Sys2Proof/Machine/Release.lean ====
section
/-! DEFINITION. Release (R50 to R64, R181, R194, R204, R218, R223, R245, R246, R256, R258, R263, R305, R377, R426): what a descriptor needs,
the checks of a launch at its release, and admission. -/

namespace Sys2Proof.Machine

/-! ### The functions a descriptor needs (R376, R377) -/

/-- One function: ready, failed, or (`none`) still starting or off. -/
def need1 (s : State) (i : Nat) : Option Bool := if isReady s i then some true else if isFailed s i then some false else none
def needAll (l : List (Option Bool)) : Option Bool :=
  if l.any (· == some false) then some false else if l.all (· == some true) then some true else none
def needAny (l : List (Option Bool)) : Option Bool :=
  if l.any (· == some true) then some true else if l.all (· == some false) then some false else none

/-- Stacks that a local range touches: those of its mapped pages. -/
def rangeStacks (s : State) (c : Ctx) (va len : Nat) : List Nat :=
  if localEnd ≤ va || len = 0 then []
  else (((List.range ((va + len - 1) / 65536 - va / 65536 + 1)).map (va / 65536 + ·)).filterMap (fun p =>
    match ltaEntry s c p with
    | some e => if ltaValid e then some (stackOf (ltaFrame e)) else none
    | none => none)).eraseDups

def stackNeed (s : State) (st : Nat) : Option Bool := need1 s (4 + st)

/-- Dies that each candidate placement of a launch occupies: the groups of an LC launch, the shapes of a BE launch. -/
def candDies (s : State) (lc : Bool) (p : Plan) : List (List Nat) :=
  let dies := fun (rs : List Nat) => (rs.map (· / 8)).eraseDups
  if lc then (groups s).map (fun g => dies (groupRegions s g)) else (shapes p.regionCount).map dies

/-- A launch waits for stacks still training, unless some placement has all of its dies' stacks ready. -/
def launchStacks (s : State) (lc : Bool) (p : Plan) : Option Bool :=
  needAny ((candDies s lc p).map (fun ds => needAll ((ds.flatMap stacksOfDie).map (stackNeed s))))

/-! ### Argument slots (R125, R204, R220) -/

/-- Entries of the argument block the device reads: slot 0 to the highest named. -/
def argCount (p : Plan) : Nat := match planSlots p with
  | [] => 0
  | l => listMax l + 1

def splitArgs : (n : Nat) → List Byte → List Nat
  | 0, _ => []
  | n + 1, bs => ofLe (bs.take 8) :: splitArgs n (bs.drop 8)

/-- An argument address plus MEM_OFFSET off a multiple of 64 (R204). -/
def argsMisaligned (p : Plan) (args : List Nat) : Bool :=
  p.dirs.any (fun d => d.xfers.any (fun e => e.dir != 2 && (args.getD e.slot 0 + e.memOff) % 64 != 0))

/-- What no shape can change about a slot of a BE launch (R204). -/
def slotKindOk (s : State) (ctx : Nat) (code va : Nat) : Bool :=
  let place := if va < localEnd then (objOfPage s ctx (va / 65536)).map (·.2.place) else none
  match code with
  | 1 | 2 => place == some 0 || place == some 1
  | 3 => place == some 2
  | 4 => decide (hostBase ≤ va) && decide (va < 2 ^ 57)
  | 5 => inCaravan va
  | _ => true

def slotKindsOk (s : State) (ctx : Nat) (p : Plan) (args : List Nat) : Bool := 
  args.zipIdx.all (fun e => !(planSlots p).contains e.2 || slotKindOk s ctx (slotCode p e.2) e.1)

/-- A wait slot's local address lies in an export of the context (R302, R305). -/
def waitSlotsOk (s : State) (ctx : Nat) (p : Plan) (args : List Nat) : Bool :=
  p.waits.all (fun w => s.net.exports.any (fun e => e.2.live && e.2.ctx == ctx
    && decide (e.2.va ≤ args.getD w.slot 0) && decide (args.getD w.slot 0 < e.2.va + e.2.len)))

/-- The node of each peer record, where its slot's address resolves to one. -/
def peerNodes (s : State) (ctx : Nat) (p : Plan) (args : List Nat) : List (PeerRec × Option Nat) :=
  p.peers.map (fun r =>
    let va := args.getD r.slot 0
    (r, match s.ctx? ctx with
      | none => none
      | some c => if inCaravan va then
          (match peerOf s c ((va - caravanBase) / 2 ^ 39) 0 0 false with
            | .ok (n, _, _) => some n
            | .error _ => none)
        else none))

/-- Rate of a sub-port: 400GbE unless the port is broken out (R291). -/
def subIs400 (s : State) (q : Nat) : Bool := breakout s q

/-- Largest lines per region that the plan counts on for a peer (R304). -/
def peerShare (p : Plan) (k : Nat) : Nat := listMax ((stepIdx p).map (fun i => ((creditOf p i k).getD 0) / p.regionCount))

/-- The placement rules of R305 on the nodes a launch names. -/
def peersMeet (s : State) (ctx : Nat) (p : Plan) (args : List Nat) : Bool :=
  (peerNodes s ctx p args).zipIdx.all (fun e => match e.1.2.bind (node? s) with
    | none => false
    | some n => decide (n.hops ≤ e.1.1.hopsMax) && decide (n.switchNs ≤ e.1.1.switchNs)
        && !(subIs400 s n.sub && !e.1.1.rate400) && decide (peerShare p e.2 ≤ n.window / 32))

/-! ### Deadlines (R51, R52) -/

def headReg (s : State) (h off : Nat) : Nat := rd s (0x071000 + 0x1000 * h + off)
def headHtotal (s : State) (h : Nat) : Nat := field (headReg s h 0x004) 16 16
def headVactive (s : State) (h : Nat) : Nat := field (headReg s h 0x00C) 0 16
def headVtotal (s : State) (h : Nat) : Nat := field (headReg s h 0x00C) 16 16
def headRate (s : State) (h : Nat) : Nat := field (headReg s h 0x014) 0 23
def head (s : State) (h : Nat) : Head := mget s.heads {} h
def setHead (s : State) (h : Nat) (x : Head) : State := { s with heads := mset s.heads {} h x }
/-- Floor of FE cycles per line (R316). -/
def lineFe (s : State) (h : Nat) : Nat := headHtotal s h * 1600000 / headRate s h

/-- The FE deadline of a LAUNCH released now; `none` is NOT_ADMITTED with DETAIL 0x0008. -/
def deadlineOf (s : State) (d : W512) : Option Int :=
  let f := lDeadline d
  let now : Int := s.now
  match f / 2 ^ 62 with
  | 0 => some (now + signed 62 (f + 2 ^ 62 - s.now % 2 ^ 62))
  | 1 => some (now + (field f 0 48 : Nat))
  | _ =>
    let h := field f 60 2
    let x := head s h
    let line := field f 0 16
    match x.startStamp with
    | none => none
    | some v =>
      if x.st == .off || x.failed || x.timingStopped || decide (headVtotal s h ≤ line) then none
      else
        let lf : Int := lineFe s h
        let frames := signed 32 (field f 16 32 + 2 ^ 32 - x.frame % 2 ^ 32)
        let guard : Int := field (rd s 0x010400) 8 8
        some ((v : Int) + frames * (headVtotal s h : Int) * lf + (line : Int) * lf - max (guard * lf) 1824)

/-! ### The figures of the test (R56, R426) -/

/-- Steps not finished, the current one counted whole. -/
def wcetLeft (p : Plan) (step : Nat) : Nat := ((p.steps.drop step).map (fun x => feOf x.wcet + x.unplanned * 1120)).sum

def isResident (s : State) (ctx : Nat) (rs : List Nat) (m : ModelRec) : Bool :=
  match resFind s ctx m rs with
  | some e => e.loaded
  | none => false

/-- load(a): for each model not resident, its bytes at 512 per FE cycle and region, with the fixed cost. R56 and R260 give the term for
one model; with several each adds its own, 1,600 cycles included (DEDUCED, log entry 101). -/
def loadCost (s : State) (ctx : Nat) (rs : List Nat) (p : Plan) : Nat :=
  ((p.models.filter (fun m => !isResident s ctx rs m)).map (fun m => ceilDiv m.bytes 16 + 1600)).sum

def planAt (s : State) (x : Launch) : Plan := (s.planOf x.ver).getD {}

/-- Admitted launches of a group. -/
def admittedIn (s : State) (g : Nat) : List Launch := (s.fe.launches.filter (fun e => isAdmitted e.2 && e.2.group == g)).map (·.2)

/-- BE launches that run on regions of a group, or were displaced from them and have not resumed (R426). -/
def beIn (s : State) (g : Nat) : List Launch :=
  (s.fe.launches.filter (fun e => isBeRun e.2 && (onRegions e.2 || e.2.phase == .displaced) && e.2.regions.any (fun r => groupOf s r == g))).map (·.2)

/-- The displacement term o. -/
def displaceTerm (s : State) (g : Nat) (set : List Launch) : Nat :=
  max (listMax ((beIn s g).map (fun b => beTerm (planAt s b)))) (listMax (set.map (fun a => 2 * saveCost (liveMax (planAt s a)))))

/-- wcet_left + load + o of one launch. -/
def demandOf (s : State) (o : Nat) (a : Launch) : Nat :=
  wcetLeft (planAt s a) a.step + loadCost s a.ctx a.regions (planAt s a) + o

/-- The deadline test at one deadline. -/
def testAt (s : State) (o : Nat) (set : List Launch) (x : Nat) : Bool :=
  let dem := ((set.filter (fun a => decide (a.deadline ≤ x))).map (demandOf s o)).sum
  let blk := listMax ((set.filter (fun a => decide (x < a.deadline))).map (fun a => stretchMax (planAt s a) false))
  decide (dem + blk + s.now ≤ x)

def shareOf (s : State) (fn : Nat) : Nat := min 256 (field (rd s (0x010500 + 4 * fn)) 0 9)

/-- share_test at one deadline (R64). -/
def shareAt (s : State) (o fn : Nat) (set : List Launch) (x : Nat) : Bool :=
  let mine := set.filter (fun a => a.fn == fn)
  decide (((mine.filter (fun a => decide (a.deadline ≤ x))).map (demandOf s o)).sum ≤ shareOf s fn * (x - s.now) / 256)

/-! ### The slot wheels (R181) -/

def regionsOn (rs : List Nat) (d : Nat) : Nat := (rs.filter (fun r => r / 8 == d)).length

/-- Lanes that a launch claims on every controller of a die. -/
def claimOn (s : State) (x : Launch) (d : Nat) : Nat :=
  let p := planAt s x
  listMax (p.steps.map (fun t =>
    let c := p.claims.getD t.claim ⟨0, 0⟩
    c.near * regionsOn x.regions d + c.far * regionsOn x.regions (1 - d)))

/-- Dies whose memory an argument address resolves to. -/
def argDies (s : State) (ctx va : Nat) : List Nat :=
  if localEnd ≤ va then []
  else match objOfPage s ctx (va / 65536) with
    | some (_, o) => if o.place = 2 then [0, 1] else [o.place]
    | none => []

def dieReady (s : State) (d : Nat) : Bool := (stacksOfDie d).all (stackReady s)

/-- wheel_fits(c, g), with the placement codes of R204 and R305. -/
def wheelFits (s : State) (c : Launch) (g : Nat) : Bool :=
  let p := planAt s c
  [0, 1].all (fun d =>
    decide (((groups s).map (fun h => listMax (((admittedIn s h) ++ (if h = g then [c] else [])).map (fun a => claimOn s a d)))).sum ≤ 17))
    && ((groupRegions s g).map (· / 8)).all (dieReady s)
    && c.args.all (fun va => (argDies s c.ctx va).all (dieReady s))
    && slotsMeet s c p c.regions && peersMeet s c.ctx p c.args

/-- power_fits(c, g) in mW (R57). FLOOR_W is the calibrated floor. -/
def peakOf (s : State) (x : Launch) : Nat := (planAt s x).peakPower * (planAt s x).regionCount
def powerFits (s : State) (c : Launch) (g : Nat) : Bool :=
  decide (1000 * Config.powerFloorW.toNat
    + ((groups s).map (fun h => listMax (((admittedIn s h) ++ (if h = g then [c] else [])).map (peakOf s)))).sum ≤ 1000 * capW s)

/-- power_fits of the launches already admitted (R57, R63). -/
def admittedFit (s : State) : Bool :=
  decide (1000 * Config.powerFloorW.toNat + ((groups s).map (fun g => listMax ((admittedIn s g).map (peakOf s)))).sum ≤ 1000 * capW s)

/-- CAP_DEFERRED (R63): a lowered cap does not yet hold for the launches admitted before it. With none left it applies in full. -/
def capDeferred (s : State) : Bool := lcAdmitted s != 0 && !admittedFit s
/-- The power the device draws up to. -/
def drawLimit (s : State) : Nat := if capDeferred s then max s.fe.heldCap (capW s) else capW s

/-- A die whose core clock may be lowered for the cap: on its PLL, with no admitted LC launch, above CORE_MIN (R348). -/
def mayLower (s : State) (d : Nat) : Bool :=
  clkCur s d == 0 && !s.clk.stopped.contains d && decide (coreMin s d < coreMhz s d) && !s.fe.launches.any (fun p => isAdmitted p.2 && onDie d p.2)

/-- A die's clock goes down for the cap, to a frequency from CORE_MIN up that the spec does not give. -/
def capDie (d : Nat) (s : State) : State :=
  let f := coreMin s d + s.freeVal.toNat % (coreMhz s d - coreMin s d)
  let s1 := setMhz d f s.tickFree
  { s1 with pwr := { s1.pwr with capped := if s1.pwr.capped.contains d then s1.pwr.capped else s1.pwr.capped ++ [d] } }

/-- The cap limits a die's clock no more. -/
def uncapDie (d : Nat) (s : State) : State :=
  if s.pwr.capped.contains d then retarget d { s with pwr := { s.pwr with capped := s.pwr.capped.filter (· != d) } } else s

/-- While the board draws more than the limit, the clocks of dies without LC work go down; once none can, the issue of BE regions stalls.
Within the limit both end (R57, R348; log entry 98). -/
def capWatch (s : State) : State :=
  let high := decide (drawLimit s < s.pwr.inputW)
  let low := [0, 1].filter (mayLower s)
  if high && !low.isEmpty then foldState low capDie s
  else
    let s1 := { s with pwr := { s.pwr with capStall := high } }
    if high then s1 else foldState [0, 1] uncapDie s1

/-- A die that comes to hold an admitted LC launch keeps 2,200 MHz or above against the cap (R57, R348). -/
def uncapLc (s : State) : State :=
  foldState [0, 1] (fun d a => if a.fe.launches.any (fun p => isAdmitted p.2 && onDie d p.2) then uncapDie d a else a) s

/-! ### Groups (R54, R55, R245) -/

/-- The regions R245 gives a launch in a group: the lowest-numbered that qualify, on one die with SINGLE_DIE. -/
def pickRegions (s : State) (p : Plan) (g : Nat) (ok : Nat → Bool) : Option (List Nat) :=
  let rs := (groupRegions s g).filter ok
  let take := fun (l : List Nat) => if p.regionCount ≤ l.length then some (l.take p.regionCount) else none
  if p.singleDie then (match take (rs.filter (· < 8)) with
    | some l => some l
    | none => take (rs.filter (8 ≤ ·)))
  else take rs

/-- IN_SERVICE now, and not napping (R356). -/
def serves (s : State) (r : Nat) : Bool := (s.rgn r).st == .inService && !(s.rgn r).napping
/-- IN_SERVICE, or about to be without any act of software (R54). -/
def willServe (s : State) (r : Nat) : Bool := (s.rgn r).st == .inService || (s.rgn r).st == .testing

def openGroups (s : State) : List Nat := (groups s).filter (fun g => !s.fe.lostGroups.contains g)

/-- A group can hold the launch now; or, with `false`, once regions report. -/
def canHold (s : State) (p : Plan) (now : Bool) : Bool :=
  (openGroups s).any (fun g => (pickRegions s p g (if now then serves s else willServe s)).isSome)

/-- A launch needs region `r`: one released that is placed on it or is placed on none yet, or a LAUNCH that only regions coming up keep from
its release (R54, R218, R356). -/
def needsRegion (s : State) (r : Nat) : Bool :=
  s.fe.launches.any (fun p => p.2.phase != .ended && (p.2.regions.contains r || p.2.regions.isEmpty))
    || s.fe.queues.any (fun q => q.2.descs.any (fun e => (e.2.phase == .read || e.2.phase == .head) && (match e.2.ver.bind s.planOf with
      | some p => !canHold s p true && canHold s p false
      | none => false)))

/-- NAP_EXIT. -/
def execNapExit (r : Nat) (s : State) : Result :=
  let y := s.rgn r
  if s.flt.safe || !y.napping || !needsRegion s r then .next s
  else .next (setMap (12 + r) 1 (s.setRgn r { y with napping := false, idleSince := s.now }))

/-! ### Admission (R56) -/

/-- Save-pool units of a launch (R256). -/
def unitsOf (p : Plan) (be : Bool) : Nat := p.regionCount * ceilDiv (lmax p be) 65536

/-- The test in one group: the state with the launch recorded, or the reason. -/
def admitIn (s : State) (c : Launch) (p : Plan) (g : Nat) (rs : List Nat) : Except Nat State :=
  let c : Launch := { c with group := g, regions := rs, units := unitsOf p false, lcUnits := true }
  let set := admittedIn s g ++ [c]
  if 256 < set.length || 1024 ≤ lcAdmitted s || s.fe.lcFree.sum < c.units then .error 0x0A
  else
    let o := displaceTerm s g set
    if !(set.all (fun a => testAt s o set a.deadline)) then .error 3
    else if !((set.filter (fun a => a.fn == c.fn)).all (fun a => shareAt s o c.fn set a.deadline)) then .error 4
    else if !wheelFits s c g then .error 5
    else if !powerFits s c g then .error 0x0B
    else
      let l := s.fe.nextLaunch
      match enterModels s l c.ctx rs true p.models with
      | none => .error 0x0C
      | some s1 =>
        let u := takeUnits c.units c.unitsAt s1.fe.lcFree
        .ok { s1 with fe := { s1.fe with
          launches := mins s1.fe.launches l { c with unitsAt := u.1 }, nextLaunch := l + 1, lcFree := u.2, beBound := mins s1.fe.beBound g o } }

/-- Groups in ascending order: the first that admits, else the reason of the last that was tried. -/
def admitGroups (s : State) (c : Launch) (p : Plan) : (why : Nat) → List Nat → Except Nat State
  | why, [] => .error why
  | why, g :: r =>
    match pickRegions s p g (serves s) with
    | none => admitGroups s c p why r
    | some rs => match admitIn s c p g rs with
      | .ok t => .ok t
      | .error e => admitGroups s c p e r

/-- The launch that a released descriptor becomes. -/
def launchOf (s : State) (q i : Nat) (x : Queue) (d : Desc) (v : Nat) (lc : Bool) (args : List Nat) : Launch :=
  { q := q, i := i, ctx := x.ctx, fn := x.fn, tag := dTag d.raw, ver := v, lc := lc, prio := x.prio, release := s.now
    translated := dTranslated d.raw, args := args, batch := lBatch d.raw }

/-- A descriptor is released: its launch is the one just recorded; an idle engine takes a media descriptor (R339). -/
def released (q i : Nat) (l : Option Nat) (s : State) : State :=
  match s.desc? q i with
  | none => s
  | some d =>
    let s1 := dropWaits (s.setDesc q i { d with phase := .released, launch := l, stamp := s.now, hold := holdAt s q i d.raw }) (userDesc q i)
    if isMedia (dOpcode d.raw) then takeAll s1 else s1

/-- Excess of a launch's operands over its envelope (R60): the DETAIL. -/
def launchExcess (p : Plan) (d : W512) : Option Nat :=
  let past := fun (b : Option Nat) v => match b with
    | some m => decide (m < v)
    | none => false
  if past p.env.seq (lSeq d) then some 1 else if past p.env.batch (lBatch d) then some 2 else none

/-- The BE or LC work that a newly admitted launch displaces is asked to yield (R250). -/
def askForTurn (g : Nat) (s : State) : State :=
  match edfHead s g with
  | none => s
  | some (l, x) => if waits x then foldState (inTheWay s g l x) askYield s else s

/-- A thermal emergency begins when the clock of a hot die that holds an admitted LC launch is below 2,200 MHz (R348). -/
def watchHeat (s : State) : State :=
  foldState [0, 1] (fun d a =>
    if a.pwr.hot.contains d && decide (coreMhz a d < 2200) && a.fe.launches.any (fun p => isAdmitted p.2 && onDie d p.2)
    then beginEmergency 1 (onDie d) a else a) s

/-- A refusal that is class K for its context and has no SOURCE and CODE of its own in R398 (R258, R261, R256): its signals only. -/
def refuseK (q i ctx st d : Nat) (s : State) : State := refuse q i st d (signalFault s 1 ctx)

/-- The admission of an LC launch, in the order of R56. -/
def admitLc (q i : Nat) (x : Queue) (d : Desc) (v : Nat) (p : Plan) (args : List Nat) (s : State) : State :=
  match deadlineOf s d.raw with
  | none => refuse q i 0x0C 8 s
  | some dl =>
    if dl ≤ (s.now : Int) then refuse q i 0x0C 1 s
    else if dl - (s.now : Int) > 2 ^ 36 then refuse q i 0x0C 2 s
    else
      match launchExcess p d.raw with
      | some e => refuse q i 0x0A e s
      | none =>
        if !s.pwr.emergencies.isEmpty || !bitOf (rd s 0x010400) 0 then refuse q i 0x0C 9 s
        else
          let c : Launch := { launchOf s q i x d v true args with deadline := dl.toNat }
          match admitGroups s c p 6 (openGroups s) with
          | .error e => if e = 0xA then refuseK q i x.ctx 0x0C e s else refuse q i 0x0C e s
          | .ok s1 =>
            let g := match s1.launch? s.fe.nextLaunch with
              | some y => y.group
              | none => 0
            askForTurn g (watchHeat (uncapLc (released q i (some s.fe.nextLaunch) ((useVer v s1).getD s1))))

/-- The release of a BE launch (R246). -/
def releaseBe (q i : Nat) (x : Queue) (d : Desc) (v : Nat) (p : Plan) (args : List Nat) (s : State) : State :=
  match launchExcess p d.raw with
  | some e => refuse q i 0x0A e s
  | none =>
    let c := launchOf s q i x d v false args
    let l := s.fe.nextLaunch
    if (p.singleDie && decide (16 ≤ p.regionCount)) || !((shapes p.regionCount).any (slotsMeet s c p)) then refuse q i 0x0C 6 s
    else released q i (some l) ((useVer v { s with fe := { s.fe with launches := mins s.fe.launches l c, nextLaunch := l + 1 } }).getD s)

/-- Nodes that a launch names: not yet joined, or lost (R263, R298). -/
def nodesState (s : State) (ctx : Nat) (p : Plan) (args : List Nat) : Option Bool :=
  needAll ((peerNodes s ctx p args).map (fun e => match e.2 with
    | none => some true
    | some id => match node? s id with
      | none => none
      | some n => match n.st with
        | .up => some true
        | .lost => some false
        | .down => none))

/-- The argument block: its entries, or the stop of its translation (R220); a local one lies in one object (R223). -/
def readArgs (s : State) (q i : Nat) (x : Queue) (d : W512) (p : Plan) : Except (Nat × Tr) (List Nat) :=
  let n := argCount p
  if n = 0 then .ok []
  else
    match s.ctx? x.ctx, rangeCheck s x.ctx (lArgs d) (8 * n) with
    | none, _ => .error (0, .bad 3 0x0701)
    | some _, some (st, e) => .error (0, .bad st e)
    | some c, none =>
      let k := walkVa s c (dTranslated d) (userDesc q i) (lArgs d) (8 * n) false
      match k.stop with
      | none => .ok (splitArgs n (readPieces s k.pieces))
      | some t => .error (k.moved, t)

/-- TS_TOP and the models against the usable top (R258). -/
def belowTop (s : State) (p : Plan) : Bool :=
  let u := usableTop s
  (decide (p.tsTop ≤ u)) && p.models.all (fun m => decide (u ≤ m.base) && decide (m.base + m.bytes ≤ 524288))

/-- The release of a LAUNCH whose queue lets it go. -/
def releaseLaunch (q i : Nat) (x : Queue) (d : Desc) (s : State) : State :=
  let lc := dClass d.raw == 0
  match d.bindErr, d.ver with
  | some (st, e), _ => if d.menuEnd then refuseK q i x.ctx st e s else refuse q i st e s
  | none, none => s
  | none, some v =>
    match s.planOf v with
    | none => s
    | some p =>
      if !(if lc then p.lc else p.be) then refuse q i 0x0C 7 s
      else if !belowTop s p then refuseK q i x.ctx 1 0x0901 s
      else
        match readArgs s q i x d.raw p with
        | .error (_, .bad 1 e) => refuse q i 1 e s
        | .error (n, .bad st e) => refuse q i st e (fillFault s x.ctx ⟨lArgs d.raw + n, 0, st, e, 2, 255, dTag d.raw, 0⟩)
        | .error (_, .wait page) => waitHost q i x page s
        | .error (n, _) => refuse q i 3 0x0703 (fillFault s x.ctx ⟨lArgs d.raw + n, 0, 3, 0x0703, 2, 255, dTag d.raw, 0⟩)
        | .ok args =>
          if argsMisaligned p args then refuse q i 2 0x0704 s
          else if !lc && !slotKindsOk s x.ctx p args then refuse q i 2 0x0702 s
          else if !waitSlotsOk s x.ctx p args then refuse q i 2 0x0B02 s
          else
            match nodesState s x.ctx p args with
            | none => s
            | some false => refuse q i 0x0D 0x0902 s
            | some true =>
              if !lc && !peersMeet s x.ctx p args then refuse q i 2 0x0702 s
              else if lc && !canHold s p true && canHold s p false then s
              else if lc then admitLc q i x d v p args s else releaseBe q i x d v p args s
where
  /-- Ask for the page of the argument block that is missing. -/
  waitHost (q i : Nat) (x : Queue) (page : Nat) (s : State) : State :=
    match s.ctx? x.ctx with
    | some c => noteWait s c (userDesc q i) page
    | none => s

/-! ### What holds a descriptor back (R216, R218, R377) -/

/-- Front-end opcodes: the next descriptor of the queue is released only after one has completed (R218). -/
def isFrontEnd (op : Nat) : Bool :=
  op == 0 || op == 1 || op == 2 || op == 3 || op == 0x101 || op == 0x102 || op == 0x103 || op == 0x202 || op == 0x203 || op == 0x204
    || op == 0x205 || op == 0x207 || decide (0xF00 ≤ op)

/-- Earlier descriptors of the queue that this one must wait for. -/
def heldBack (x : Queue) (i : Nat) : Bool :=
  x.descs.any (fun e => decide (e.1 < i) && (x.serial || isFrontEnd (dOpcode e.2.raw)))

/-- Network operand blocks: whether the function the block's operation needs is ready (R377); NODE_CLEAR, UNEXPORT and QP_DESTROY need
OBJ only, and an operand block that cannot be read is answered when the descriptor runs. -/
def netNeed (s : State) (q i : Nat) (x : Queue) (d : W512) (roce : Bool) : Option Bool :=
  match s.ctx? x.ctx with
  | none => some true
  | some c =>
    let k := walkVa s c (dTranslated d) (userDesc q i) (dField d 40 8) (min (dField d 48 4) 64) false
    match k.stop with
    | some _ => some true
    | none =>
      let b := ofLe (readPieces s k.pieces)
      let port := fun sp => need1 s (36 + sp / 2)
      if roce then (match mfind s.net.qps (field b 0 24) with
        | some qp => port (field (ofLe qp.raw) 8 2)
        | none => some true)
      else if field b 0 8 = 1 || field b 0 8 = 6 then port (field b 8 2)
      else if field b 0 8 = 3 then (match node? s (field b 32 32) with
        | some n => port n.sub
        | none => some true)
      else some true

/-- The functions a descriptor needs. -/
def descNeed (s : State) (q i : Nat) (x : Queue) (d : Desc) : Option Bool :=
  let op := dOpcode d.raw
  let obj := need1 s 3
  let c := (s.ctx? x.ctx).getD {}
  let onStacks := fun (l : List Nat) => needAll (obj :: l.map (stackNeed s))
  if op = 0 then some true
  else if op = 0x100 then
    (match d.ver.bind s.planOf with
      | none => obj
      | some p =>
        let lc := dClass d.raw == 0
        match obj, launchStacks s lc p with
        | some true, some false => some lc
        | some true, r => r
        | r, _ => r)
  else if op = 0x200 then onStacks (rangeStacks s c (dField d.raw 40 8) (dField d.raw 56 4) ++ rangeStacks s c (dField d.raw 48 8) (dField d.raw 56 4))
  else if op = 0x201 then onStacks (rangeStacks s c (dField d.raw 40 8) (dField d.raw 56 4))
  else if op = 0x206 then
    (match objAt s x.ctx (dField d.raw 40 4) with
      | some o => onStacks (((pageRange d.raw).map (stackFor o)).eraseDups)
      | none => obj)
  else if op = 0x300 then (if (head s (x.typeArg % 4)).st == .off && !isFailed s (28 + x.typeArg % 4) then none else need1 s (28 + x.typeArg % 4))
  else if op = 0x400 || op = 0x401 then
    (if x.typeArg = 0xFF then needAny ((List.range 4).map (fun k => need1 s (32 + k))) else need1 s (32 + x.typeArg % 4))
  else if op = 0x500 then needAll [obj, netNeed s q i x d.raw false]
  else if op = 0x501 then needAll [obj, netNeed s q i x d.raw true]
  else obj

/-- A PLAN_PATCH to a slot that holds 8 versions waits at the head until one retires (R239). -/
def patchWaits (s : State) (x : Queue) (d : Desc) : Bool :=
  dOpcode d.raw == 0x102 && (currentVer s x.ctx (dField d.raw 48 2)).isSome && decide (8 ≤ (slotVers s x.ctx (dField d.raw 48 2)).length)

/-- The release of a head whose wait is reached. -/
def releaseHead (q i : Nat) (x : Queue) (d : Desc) (s : State) : State :=
  match descNeed s q i x d with
  | none => s
  | some false => refuse q i 9 0x0801 s
  | some true =>
    match translatedBad s x d with
    | some e => refuse q i 2 e s
    | none =>
      if dOpcode d.raw = 0x100 then releaseLaunch q i x d s
      else
        match releaseCheck s q x d.raw with
        | some (st, e) => refuseAt q i x.ctx (dField d.raw 40 8) (dTag d.raw) st e s
        | none => released q i none s

/-- DESCRIPTOR_RELEASE (R218). -/
def execDescriptorRelease (q : Nat) (s : State) : Result :=
  match s.queue? q with
  | none => .next s
  | some x =>
    match headOf x with
    | none => .next s
    | some (i, d) =>
      if feRuns s && d.phase == .head && waitReached s q i x d && !heldBack x i && !patchWaits s x d then .next (releaseHead q i x d s) else .next s

end Sys2Proof.Machine
end

