-- ==== Sys2Proof/Machine/Admin.lean ====
section
/-! DEFINITION. Admin operations (R184, R211, R233 to R237, R242 to R244, R272, R284): creation and destruction of contexts and queues. -/

namespace Sys2Proof.Machine

/-! ### Contexts (R233) -/

/-- The LTA window of a function: BASE + COUNT acts as at most 8,388,608 (R184, R208). -/
def ltaWindow (s : State) (fn : Nat) : Nat × Nat := 
  let base := field (rd s (0x020100 + 8 * fn)) 0 23
  (base, min (field (rd s (0x020104 + 8 * fn)) 0 24) (nLta - base))

/-- A function that exists (R272). -/
def fnExists (s : State) (fn : Nat) : Bool := fn == 0 || (s.link.vfEnable && decide (fn ≤ s.link.numVfs))

/-- A segment outside its function's window, or over a live context's (R184). -/
def segmentBad (s : State) (fn base count : Nat) : Bool :=
  let w := ltaWindow s fn
  decide (base < w.1) || decide (w.1 + w.2 < base + count) || s.fe.ctxs.any (fun e => overlaps e.2.ltaBase e.2.ltaCount base count)

/-- CTX_CREATE: the lowest free ID. It waits while its function is under reset (R284); a creation record that the physical function may not read
ends it (R280). -/
def execCtxCreate (q i : Nat) (s : State) : Result :=
  descRow 0xF00 (fun _ _ d s =>
    let w := creationRecord s d
    let fn := field w 0 6
    if let some e := hostBar s 0 (dField d 40 8) then failed q i 4 e s
    else if s.link.flrBusy.contains fn || s.link.flrBusy.contains 0 then s
    else if !fnExists s fn then failed q i 1 0x0A01 s
    else if segmentBad s fn (field w 64 23) (field w 96 24) then failed q i 1 0x0703 s
    else
      match mfresh s.fe.ctxs 65536 0 with
      | none => failed q i 1 0x0804 s
      | some k =>
        let c : Ctx := {
          fn := fn, pasid := if bitOf w 8 then some (field w 32 20) else none, ltaBase := field w 64 23, ltaCount := field w 96 24
          peerVa := field w 128 64, peerCount := field w 192 17, fenceMax := field w 224 21 }
        let s1 := s.setCtx k c
        let s2 := { s1 with mem := { s1.mem with lta := zeroRange s1.mem.lta c.ltaBase c.ltaCount } }
        done q i k (writeCtxEntry s2 k)) q i s

/-! ### Queues (R235, R237) -/

/-- A queue of a creation record. -/
def newQueue (s : State) (w : Nat) : Queue :=
  { ctx := field w 0 16, fn := ((s.ctx? (field w 0 16)).map (·.fn)).getD 0, typ := field w 24 3, serial := bitOf w 27
    ringsTranslated := bitOf w 28, sizeLog2 := field w 32 5, prio := field w 40 2, vector := field w 48 11, ringVa := field w 64 64
    dbVa := field w 128 64, cplVa := field w 192 64, stVa := field w 256 64, budget := field w 320 64, typeArg := field w 384 8
    idleSince := s.now }

/-- QUEUE_CREATE. The status block is written before the creation completes. -/
def execQueueCreate (q i : Nat) (s : State) : Result :=
  descRow 0xF02 (fun _ _ d s =>
    let w := creationRecord s d
    let ctx := field w 0 16
    let k := ctx * 16 + field w 16 4
    if let some e := hostBar s 0 (dField d 40 8) then failed q i 4 e s else
    match s.ctx? ctx with
    | none => failed q i 1 0x0802 s
    | some c =>
      let x := newQueue s w
      if s.link.flrBusy.contains c.fn || s.link.flrBusy.contains 0 then s
      else if c.st != .live then failed q i 1 0x0802 s
      else if (s.queue? k).isSome || (x.typ == 2 && s.fe.queues.any (fun e => e.2.typ == 2 && e.2.typeArg == x.typeArg && e.1 != adminQid)) then
        failed q i 1 0x0804 s
      else done q i k (writeStatus k (s.setQueue k x))) q i s

/-- Work of a queue in the hub engines and units stops: copy jobs, media, posted RDMA, a commit not applied. -/
def dropQueueWork (q : Nat) (s : State) : State :=
  { s with
    net := { s.net with
      jobs := mdrop s.net.jobs (fun _ j => match j.user with
        | .copy k _ => k == q
        | .entry _ _ _ => false)
      qps := mmap s.net.qps (fun _ x => { x with sends := x.sends.filter (·.q != q), recvs := x.recvs.filter (·.q != q) }) }
    heads := mmap s.heads (fun _ h => { h with next := h.next.filter (·.q != q) }) }

/-- Descriptors of a queue that have not been released are discarded; they receive no record. -/
def dropUnreleased (q : Nat) (s : State) : State :=
  match s.queue? q with
  | none => s
  | some x => s.setQueue q { x with descs := mdrop x.descs (fun _ d => d.phase == .read || d.phase == .head) }

/-- The regions a launch holds stop with no save: one that stands at its slip point leaves it, the others are hard-stopped, which resets
them (R34, R242). -/
def stopForGood (l : Nat) (s : State) : State :=
  match s.launch? l with
  | none => s
  | some x =>
    let rs := heldRegions s l x
    let running := rs.filter (fun r => (s.rgn r).held == none && (x.phase == .running || x.phase == .yielding) && (regionSlip s r).isNone)
    foldState running (fun r a => resetRegion r a) (foldState rs (freeRegion x.ctx) s)

/-- A released descriptor ends with ABORTED, DETAIL 0x0801. -/
def abortDesc (q i : Nat) (d : Desc) (s : State) : State :=
  completeDesc q i (match d.launch with
    | some l => endLaunch l 5 0x0801 (stopForGood l s)
    | none => finishDesc s q i 5 0x0801 0 true)

/-- A released descriptor of a destroyed queue ends (R237): one that is done completes, and what it chains to, just started, ends too. -/
def endReleased (q i : Nat) (s : State) : State :=
  match s.desc? q i with
  | none => s
  | some d =>
    if d.phase != .done then abortDesc q i d s
    else
      let s1 := completeDesc q i s
      match s1.desc? q i with
      | some e => if e.phase == .done then s1 else abortDesc q i e s1
      | none => s1

/-- Fences whose producer is a queue are abandoned with CAUSE ABORTED. -/
def abandonProducer (ctx k : Nat) (s : State) : State :=
  foldState (mkeys s.fe.fences (fun _ f => f.ctx == ctx && f.queue == k)) (fun idx a => abandonFence idx 5 0 a) s

/-- The end of a queue, its status block at STATE 2. -/
def removeQueue (q : Nat) (s : State) : State :=
  match s.queue? q with
  | none => s
  | some x =>
    let y : Queue := { x with st := .destroyed }
    let s1 := (tryRecord (s.setQueue q y) q y (statusVa q y) (statusBytes y) none).1
    let s2 := settleVers { s1 with fe := { s1.fe with queues := mdel s1.fe.queues q } }
    reportLtr (evictCtx x.ctx (writeCtxEntry s2 x.ctx))

/-- QUEUE_DESTROY. It waits while a descriptor that is done awaits the record of the fence it signals (R229, R230). -/
def execQueueDestroy (q i : Nat) (s : State) : Result :=
  descRow 0xF03 (fun _ _ d s =>
    let k := dField d 40 4 % 2 ^ 20
    match s.queue? k with
    | none => failed q i 1 0x0802 s
    | some x =>
      let s1 := dropQueueWork k (dropUnreleased k (s.setQueue k { x with st := .destroyed }))
      let s2 := foldState (x.descs.map (·.1)) (endReleased k) s1
      if (s2.queue? k).any (fun y => !y.descs.isEmpty) then s2
      else done q i 0 (settleDraining (removeQueue k (abandonProducer x.ctx (k % 16) s2)))) q i s

/-! ### Destroying a context (R242) -/

/-- Steps 1 and 2: the context's descriptors are discarded and its launches leave, neither counted nor charged. -/
def endCtxLaunch (l : Nat) (s : State) : State :=
  match s.launch? l with
  | none => s
  | some x =>
    let s1 := if x.phase = .ended then s else returnUnits x (dropPins l (stopForGood l s))
    dropWaits { s1 with fe := { s1.fe with launches := mdel s1.fe.launches l } } (userLaunch l)

/-- Every piece of a context in the units, and what it left in regions (R23): DTC entries, page requests, exports, queue pairs, streams, residency, BAR4 (R192, R242, R260,
R275, R301, R310, R337). -/
def dropCtxState (ctx : Nat) (c : Ctx) (s : State) : State :=
  let s1 := evictModels (fun e => e.ctx == ctx) s
  let others := s1.fe.ctxs.any (fun e => e.1 != ctx && e.2.fn == c.fn && e.2.pasid == c.pasid)
  let s2 : State := { s1 with
    mem := { s1.mem with
      dtc := if others then s1.mem.dtc else s1.mem.dtc.filter (fun e => !(e.fn == c.fn && e.pasid == c.pasid))
      prgs := if others then s1.mem.prgs else mmap s1.mem.prgs (fun _ g => if g.fn = c.fn ∧ g.pasid = c.pasid then { g with dead := true } else g) }
    net := { s1.net with
      exports := mmap s1.net.exports (fun _ e => if e.live && e.ctx == ctx then { gen := e.gen } else e)
      qps := mdrop s1.net.qps (fun _ y => y.ctx == ctx) }
    streams := s1.streams.filter (·.ctx != ctx) }
  let s3 := foldState (List.range 16) (fun r a => if (a.rgn r).lastCtx == some ctx then a.setRgn r { a.rgn r with lastCtx := none, clear := true } else a) s2
  if field (rd s3 0x200) 0 16 = ctx then wr s3 0x200 (setField (rd s3 0x200) 16 1 0) else s3

/-- Destroy one context: the whole of R242 as one step. -/
def destroyCtx (ctx : Nat) (s : State) : State :=
  match s.ctx? ctx with
  | none => s
  | some c =>
    let qs := mkeys s.fe.queues (fun k x => k != adminQid && x.ctx == ctx)
    let s0 := writeCtxEntry (s.setCtx ctx { c with st := .destroying }) ctx
    let s1 := foldState qs (fun q a => dropQueueWork q a) s0
    let s2 := foldState (mkeys s1.fe.launches (fun _ x => x.ctx == ctx)) endCtxLaunch s1
    let s3 := dropCtxState ctx c (contextWalk ctx s2)
    let s4 := foldState (mkeys s3.fe.fences (fun _ f => f.ctx == ctx)) (fun idx a => wakeFence idx (abandonFence idx 5 0 a)) s3
    let s4 := leaveHeld ctx c s4
    let s5 := foldState ((ltaPages c).filter (fun k => ltaValid (ltaGet s4 k))) (fun k a => unmapPage c (k - c.ltaBase) a) s4
    let s6 : State := { s5 with
      mem := { s5.mem with lta := zeroRange s5.mem.lta c.ltaBase c.ltaCount, heldLta := mdrop s5.mem.heldLta (fun _ b => b == c.ltaBase) }
      fe := { s5.fe with
        queues := mdrop s5.fe.queues (fun k x => k != adminQid && x.ctx == ctx)
        objs := mdrop s5.fe.objs (fun k _ => k / 2 ^ 23 == ctx)
        vers := mdrop s5.fe.vers (fun _ v => v.ctx == ctx)
        resident := s5.fe.resident.filter (fun v => match mfind s5.fe.vers v with
          | some y => y.ctx != ctx
          | none => false)
        fences := mdrop s5.fe.fences (fun _ f => f.ctx == ctx)
        ctxs := mdel s5.fe.ctxs ctx }
      heads := mmap s5.heads (fun _ h => { h with
        active := h.active.map (fun y => if y.ctx = ctx then { y with ctx := noContext } else y)
        shown := h.shown.map (fun y => if y.commit.ctx = ctx then { y with commit := { y.commit with ctx := noContext } } else y)
        wb := h.wb.map (fun y => if y.ctx = ctx then { y with ctx := noContext } else y) }) }
    let s7 := foldState (s6.link.held.filter (fun h => h.gone.isSome && h.fn == c.fn)) (fun h a => match (heldWalk a h).stop with
      | some (.wait page) => askHeld a h page
      | _ => a) s6
    let s8 := writeCtxEntry s7 ctx
    reportLtr (settleDraining (settleStacks (settleFrames (lapseBounds (flushAll (s8.link.held.length + 1) s8)))))

/-- CTX_DESTROY. -/
def execCtxDestroy (q i : Nat) (s : State) : Result :=
  descRow 0xF01 (fun _ _ d s =>
    let ctx := dField d 40 2
    if (s.ctx? ctx).isNone then failed q i 1 0x0802 s else done q i 0 (destroyCtx ctx s)) q i s

end Sys2Proof.Machine
end

