-- ==== Sys2Proof/Machine/Bar0.lean ====
section
/-! DEFINITION. What every BAR0 access shares: which blocks answer (R375, R404, R421), and how refused ones are logged (R6, R406, R422). -/

namespace Sys2Proof.Machine

/-- Blocks that answer in the safe state: HIF, CLK, PWR, FLT, SEC and OAS (R404). -/
def safeBlock (off : Nat) : Bool :=
  decide (off < 0x010000) || (decide (0x030000 ≤ off) && decide (off < 0x070000)) || (decide (0x0A0000 ≤ off) && decide (off < 0x0B0000))

/-- The ready-map function whose bit a block needs, and whether FAILED serves as well; `none` outside every block. -/
def blockBit (off : Nat) : Option (Nat × Bool) :=
  if off < 0x010000 || (0x060000 ≤ off && off < 0x070000) then some (0, false)
  else if 0x070000 ≤ off && off < 0x080000 then
    (if 0x071000 ≤ off && off < 0x075000 then some (28 + (off - 0x071000) / 0x1000, true) else none)
  else if off < 0x0C0000 then some (1, false)
  else if 0x100000 ≤ off && off < 0x200000 then some (12 + (off - 0x100000) / 0x10000, true)
  else if 0xF00000 ≤ off && off < 0xF08000 then some (0, false)
  else if 0xF10000 ≤ off && off < 0xF10100 then some (0, false)
  else none

/-- BAR0 is usable: not in DORMANT, in OASIS, or on the way out of DORMANT before step 4 ends (R358). -/
def bar0Up (s : State) : Bool := s.pwr.dev == .up || s.pwr.dev == .starting

/-- Whether an access at an offset is answered by a block, or as R422 gives outside every block. -/
def blockUp (s : State) (off : Nat) : Bool :=
  bar0Up s && s.link.dlUp && (!s.flt.safe || safeBlock off) && (match blockBit off with
    | some (i, f) => isReady s i || (f && isFailed s i)
    | none => isReady s 0)

/-- An access answered as R6 answers an unaligned one; without a link none arrives. -/
def badAccess (s : State) (fn off size : Nat) : State := if s.link.dlUp then logViol s 1 fn 0 off size else s

/-- A register write that its rule refuses (KIND 0x02 of R406). -/
def regRefused (s : State) (fn off v : Nat) : State := logViol s 2 fn 0 off v

/-- A write of the physical function to a register, once its block answers. -/
def regWrite (off : Nat) (eff : State → State) (s : State) : Result :=
  .next (if blockUp s off then eff s else badAccess s 0 off 4)

end Sys2Proof.Machine
end

