-- ==== Sys2Proof/Machine/Pixels.lean ====
section
/-! DEFINITION. Pixel values: the layouts of R128 and their conversion to and from FP32. A pixel is four FP32 codes. -/

namespace Sys2Proof.Machine

/-- FP32 codes 1.0 and 0.5. -/
def f1 : Nat := 0x3F800000
def fHalf : Nat := 0x3F000000

/-- The FP32 code of the quotient `n / d`, rounded to nearest-even: 64 quotient bits and one for the rest. -/
def fquot (n d : Nat) : Nat := toFp32 (.fin ((2 * (n * 2 ^ 64 / d) + b2n (n * 2 ^ 64 % d != 0) : Nat) : Int) (-65))

/-- A `b`-bit unsigned normalised channel, read. -/
def unormRead (b n : Nat) : Nat := fquot n (2 ^ b - 1)

/-- Clamp an FP32 code to [0, 1]; NaN is taken as 0. -/
def clampUnit (w : Nat) : Nat :=
  match decodeF fp32 w with
  | .nan => 0
  | .inf n => if n then 0 else f1
  | .fin m e => if m ≤ 0 then 0 else if fvLt (.fin 1 0) (.fin m e) then f1 else w

/-- A non-negative exact value rounded to an integer, ties to even. -/
def roundInt : FVal → Nat
  | .fin m e => if 0 ≤ e then m.toNat * 2 ^ e.toNat else roundShift m.toNat (-e).toNat .rne
  | _ => 0

/-- Floor of a non-negative exact value. -/
def floorInt : FVal → Nat
  | .fin m e => (shiftI m e).toNat
  | _ => 0

/-- A `b`-bit unsigned normalised channel, written. -/
def unormWrite (b w : Nat) : Nat := roundInt (fvMul (decodeF fp32 (clampUnit w)) (.fin ((2 ^ b - 1 : Nat) : Int) 0))

/-- A power of a positive fixed-point value: `x` to the `n / d`. -/
def fxPow (x n d : Int) : Int :=
  let r := fxExp2 ((exactLog2 x (-256)).1 * n / d)
  shiftI r.1 (r.2 + 256)

/-- The FP32 code of a channel of IEC 61966-2-1 (R128): linear up to 0.04045, and a power of 2.4 above it. -/
def srgbDecode (n : Nat) : Nat :=
  let c : Int := (n : Int) * fxOne / 255
  if 100000 * n ≤ 4045 * 255 then fquot (100 * n) (255 * 1292)
  else toFp32 (.fin (fxPow ((1000 * c + 55 * fxOne) / 1055) 12 5) (-256))

/-- The channel of a clamped linear value (R128): linear up to 0.0031308, and a power of 1 / 2.4 above it. -/
def srgbEncode (w : Nat) : Nat :=
  match decodeF fp32 w with
  | .fin m e =>
    let x := fxOf m e
    let y := if 10000000 * x ≤ 31308 * fxOne then 1292 * x / 100 else (1055 * fxPow x 5 12 - 55 * fxOne) / 1000
    roundInt (.fin (255 * y) (-256))
  | _ => 0

def f16Read (n : Nat) : Nat := toFp32 (decodeF fp16 n)
def f16Write (w : Nat) : Nat := (encodeF fp16 false .rne (decodeF fp32 w)).1

/-- A pixel of a layout as R, G, B, A: missing channels 0, alpha 1. -/
def pixelRead (code w : Nat) : List Nat :=
  let u8 := fun k => unormRead 8 (field w (8 * k) 8)
  let s8 := fun k => srgbDecode (field w (8 * k) 8)
  let h := fun k => f16Read (field w (16 * k) 16)
  let f := fun k => canon32 (field w (32 * k) 32)
  match code with
  | 0x00 => [u8 0, 0, 0, f1]
  | 0x01 => [u8 0, u8 1, u8 2, u8 3]
  | 0x02 => [s8 0, s8 1, s8 2, u8 3]
  | 0x03 => [unormRead 10 (field w 0 10), unormRead 10 (field w 10 10), unormRead 10 (field w 20 10), unormRead 2 (field w 30 2)]
  | 0x04 => [h 0, 0, 0, f1]
  | 0x05 => [h 0, h 1, 0, f1]
  | 0x06 => [h 0, h 1, h 2, h 3]
  | 0x07 | 0x0A | 0x0B => [f 0, 0, 0, f1]
  | 0x08 => [f 0, f 1, 0, f1]
  | _ => [f 0, f 1, f 2, f 3]

/-- Four FP32 codes written in a colour layout. -/
def pixelWrite (code : Nat) (c : List Nat) : Nat :=
  let at' := fun k => c.getD k 0
  let u8 := fun k => unormWrite 8 (at' k) * 2 ^ (8 * k)
  let s8 := fun k => srgbEncode (clampUnit (at' k)) * 2 ^ (8 * k)
  let h := fun k => f16Write (at' k) * 2 ^ (16 * k)
  let f := fun k => canon32 (at' k % 2 ^ 32) * 2 ^ (32 * k)
  match code with
  | 0x00 => u8 0
  | 0x01 => u8 0 + u8 1 + u8 2 + u8 3
  | 0x02 => s8 0 + s8 1 + s8 2 + u8 3
  | 0x03 => unormWrite 10 (at' 0) + unormWrite 10 (at' 1) * 2 ^ 10 + unormWrite 10 (at' 2) * 2 ^ 20 + unormWrite 2 (at' 3) * 2 ^ 30
  | 0x04 => h 0
  | 0x05 => h 0 + h 1
  | 0x06 => h 0 + h 1 + h 2 + h 3
  | 0x07 => f 0
  | 0x08 => f 0 + f 1
  | _ => f 0 + f 1 + f 2 + f 3

end Sys2Proof.Machine
end

