-- ==== Sys2Proof/Machine/Display.lean ====
section
/-! DEFINITION. Display heads (chapter 12): commits and their validation, composition, writeback, signatures, timing, the link and AUX. -/

namespace Sys2Proof.Machine

/-! ### Timing and link registers (R314, R315, R317) -/

def headBase (h : Nat) : Nat := 0x071000 + 0x1000 * h
def dispCtrl (s : State) (h : Nat) : Nat := headReg s h 0
/-- Active pixels of a line and the static timing check of R315. -/
def headHactive (s : State) (h : Nat) : Nat := field (headReg s h 0x004) 0 16

/-- Bits per component of a BPC code, 0 for the reserved one. -/
def bpcBits (s : State) (h : Nat) : Nat :=
  match field (dispCtrl s h) 2 2 with
  | 0 => 6
  | 1 => 8
  | 2 => 10
  | _ => 0

/-- Link rates in Mb/s per lane: DisplayPort's own figures (log entry 9). -/
def linkMbps (rate : Nat) : Nat := [1620, 2700, 5400, 8100, 10000, 13500, 20000].getD rate 0

/-- The fields of R315 hold, each and together. -/
def timingOk (s : State) (h : Nat) : Bool :=
  let ha := headHactive s h
  let ht := headHtotal s h
  let va := headVactive s h
  let vt := headVtotal s h
  let hs := field (headReg s h 0x008) 0 16
  let hw := field (headReg s h 0x008) 16 16
  let vs := field (headReg s h 0x010) 0 16
  let vw := field (headReg s h 0x010) 16 16
  decide (640 ≤ ha) && decide (ha ≤ 7680) && ha % 8 == 0 && decide (ht ≤ 16384) && ht % 8 == 0 && decide (480 ≤ va) && decide (va ≤ 4320)
    && decide (vt ≤ 8191) && decide (ha < ht) && decide (va < vt) && hs % 8 == 0 && hw % 8 == 0 && decide (ha ≤ hs) && decide (8 ≤ hw)
    && decide (hs + hw ≤ ht) && decide (va ≤ vs) && decide (1 ≤ vw) && decide (vs + vw ≤ vt)
    && headRate s h != 0 && decide (headRate s h ≤ 4800000) && bpcBits s h != 0

/-- The DSC options of R314, when DSC is on. -/
def dscOk (s : State) (h : Nat) : Bool :=
  let w := headReg s h 0x01C
  !bitOf (dispCtrl s h) 4
    || (bpcBits s h != 6 && [1, 2, 4, 8].contains (field w 0 4) && decide (128 ≤ field w 4 10) && decide (field w 4 10 ≤ 255)
      && decide (field w 4 10 ≤ 48 * bpcBits s h))

/-- The stream's need in sixteenths of a bit per pixel, and whether the link carries it (R317). -/
def linkCarries (s : State) (h : Nat) : Bool :=
  let rate := field (headReg s h 0x018) 0 4
  let lanes := field (headReg s h 0x018) 4 3
  let bpp16 := if bitOf (dispCtrl s h) 4 then field (headReg s h 0x01C) 4 10 else 48 * bpcBits s h
  let eff := if rate < 4 then (8, 10) else (128, 132)
  [1, 2, 4].contains lanes && decide (rate ≤ 6)
    && decide (headRate s h * 1000 * bpp16 * eff.2 * 100 ≤ lanes * linkMbps rate * 1000000 * eff.1 * 97 * 16)

/-- The DSC slice height of a head (R314). -/
def dscSliceHeight (s : State) (h : Nat) : Nat := if headVactive s h % 16 = 0 then 16 else 8
/-- FEC: with DSC at the 8b/10b rates, always at the 128b/132b rates (R314). -/
def fecOn (s : State) (h : Nat) : Bool := bitOf (dispCtrl s h) 4 || decide (4 ≤ field (headReg s h 0x018) 0 4)
/-- The DSC stream of a head: slices per line, slice height, and the target in sixteenths of a bit per pixel (R314). -/
def dscStream (s : State) (h : Nat) : Option (Nat × Nat × Nat) :=
  if bitOf (dispCtrl s h) 4 then some (field (headReg s h 0x01C) 0 4, dscSliceHeight s h, field (headReg s h 0x01C) 4 10) else none
/-- The payload of the HDR static metadata SDP that a head sends while SDP_EN is set (R314, R331). -/
def hdrSdp (s : State) (h : Nat) : Option (List Byte) :=
  if bitOf (dispCtrl s h) 9 then some ((List.range 8).flatMap (fun w => leBytes 4 (headReg s h (0x0A0 + 4 * w)))) else none
/-- The colorimetry code of a head's VSC SDP (R314, R331). -/
def vscColorimetry (s : State) (h : Nat) : Nat := field (dispCtrl s h) 10 4

/-- A head that its hardware serves: it has reported ready, and the device is up. -/
def headUp (s : State) (h : Nat) : Bool := isReady s (28 + h) && !(head s h).failed && bar0Up s

/-- The frame counter and the timing generator run (R316, R318). -/
def timingRuns (s : State) (h : Nat) : Bool := headUp s h && (head s h).st != .off && !(head s h).timingStopped

/-- Bit of CLK_READY.LOCK of a head's pixel PLL (R370). -/
def pixelPll (h : Nat) : Nat := 11 + h

/-- The live display queue of a head (R210). -/
def displayQueue (s : State) (h : Nat) : Option Queue :=
  (s.fe.queues.find? (fun e => e.1 != adminQid && e.2.typ == 2 && e.2.typeArg == h && e.2.st != .destroyed)).map (·.2)

/-- The MSI-X vector of a head's display queue, while it is live. -/
def headIrq (h : Nat) (s : State) : State :=
  match displayQueue s h with
  | some x => if s.flt.safe then s else raiseIrq s x.fn x.vector
  | none => s

/-- A sink event (KIND 0x10): 1 retrain, 2 LINK_FAILED, 3 AUX NAK, 4 AUX timeout. -/
def sinkEvent (h what : Nat) (s : State) : State := logViol s 0x10 0xFF (if what = 1 then 3 else 0) h what

/-! ### Commit records (R320, R321) -/

def cField (c : Commit) (byte len : Nat) : Nat := ofLe ((c.raw.drop byte).take len)
/-- A field of layer `l`. -/
def lField (c : Commit) (l byte len : Nat) : Nat := cField c (64 + 128 * l + byte) len
def lOn (c : Commit) (l : Nat) : Bool := bitOf (lField c l 1 1) 0
def lFmt (c : Commit) (l : Nat) : Nat := lField c l 0 1
def lZ (c : Commit) (l : Nat) : Nat := field (lField c l 1 1) 1 3
def lAlpha (c : Commit) (l : Nat) : Nat := field (lField c l 1 1) 4 2
def lFilter (c : Commit) (l : Nat) : Bool := bitOf (lField c l 4 1) 0
def lSurf (c : Commit) (l p : Nat) : Nat := lField c l (8 + 8 * p) 8
def lPitch (c : Commit) (l p : Nat) : Nat := lField c l (24 + 4 * p) 4
/-- SRC_X, SRC_Y, SRC_W, SRC_H as 0 to 3, DST likewise as 4 to 7. -/
def lBox (c : Commit) (l k : Nat) : Nat := lField c l (32 + 2 * k) 2
def lCoef (c : Commit) (l : Nat) : Nat := lField c l 48 8
def lMatrix (c : Commit) (l i j : Nat) : Nat := lField c l (64 + 4 * (4 * i + j)) 4
def wbEn (c : Commit) : Bool := bitOf (cField c 0 1) 0
def wbField (c : Commit) (byte len : Nat) : Nat := cField c (1088 + byte) len
def sigCount (c : Commit) : Nat := field (cField c 1 1) 0 5
def sigField (c : Commit) (r byte len : Nat) : Nat := cField c (1152 + 16 * r + byte) len

def layersOn (c : Commit) : List Nat := (List.range 8).filter (lOn c)

/-- A layer format of R319. -/
def fmtKnown (f : Nat) : Bool := [1, 2, 3, 6, 0x20, 0x21, 0x22, 0x23].contains f
def twoPlanes (f : Nat) : Bool := [0x20, 0x21, 0x22, 0x23].contains f
/-- Bytes per luma sample, and bytes fetched per pixel doubled. -/
def lumaBytes (f : Nat) : Nat := if f = 6 then 8 else if f = 0x20 then 1 else if twoPlanes f then 2 else 4
def fetch2 (f : Nat) : Nat := if f = 6 then 16 else if f = 0x20 then 3 else if f = 0x21 then 6 else if f = 0x22 then 8 else if f = 0x23 then 12 else 8
/-- Chroma halved across and down. -/
def halfX (f : Nat) : Bool := f == 0x20 || f == 0x21 || f == 0x22
def halfY (f : Nat) : Bool := f == 0x20 || f == 0x21

/-- Planes of a layer as (address, bytes) over all rows to the crop's end (R321). -/
def planes (c : Commit) (l : Nat) : List (Nat × Nat) :=
  let rows := lBox c l 1 + lBox c l 3
  (lSurf c l 0, lPitch c l 0 * rows)
    :: (if twoPlanes (lFmt c l) then [(lSurf c l 1, lPitch c l 1 * (if halfY (lFmt c l) then ceilDiv rows 2 else rows))] else [])

def isLocal (va len : Nat) : Bool := decide (va + len ≤ localEnd)
/-- A range within one memory object of a context. -/
def inObject (s : State) (ctx va len : Nat) : Bool := isLocal va len && (objOfPage s ctx (va / 65536)).isSome && (rangeCheck s ctx va len).isNone

/-- 0x0C01: planes, scaler table and writeback surface. -/
def check0C01 (s : State) (h : Nat) (c : Commit) : Bool :=
  (layersOn c).all (fun l =>
      (planes c l).all (fun p => p.1 % 256 == 0 && inObject s c.ctx p.1 p.2)
        && lPitch c l 0 % 256 == 0 && (!twoPlanes (lFmt c l) || lPitch c l 1 % 256 == 0)
        && (!lFilter c l || isLocal (lCoef c l) 1792))
    && (!wbEn c || isLocal (wbField c 0 8) (wbField c 8 4 * headVactive s h))

/-- 0x0C02: formats, reserved fields, and the fields that must be 0. -/
def check0C02 (c : Commit) : Bool :=
  field (cField c 0 1) 3 5 == 0 && field (cField c 1 1) 5 3 == 0 && cField c 2 2 == 0 && cField c 14 50 == 0
    && (List.range 8).all (fun l => field (lField c l 1 1) 6 2 == 0 && field (lField c l 4 1) 1 7 == 0 && lField c l 5 3 == 0
        && lField c l 56 8 == 0 && lField c l 112 16 == 0)
    && wbField c 12 4 == 0 && wbField c 24 40 == 0
    && (List.range 16).all (fun r => field (sigField c r 12 1) 1 7 == 0 && sigField c r 13 3 == 0)
    && (layersOn c).all (fun l => fmtKnown (lFmt c l) && (decide (l < 2) || (!twoPlanes (lFmt c l) && !lFilter c l)) && lAlpha c l != 3
        && (twoPlanes (lFmt c l) || (lSurf c l 1 == 0 && lPitch c l 1 == 0)) && (lFilter c l || lCoef c l == 0))

def check0C03 (c : Commit) : Bool := ((layersOn c).map (lZ c)).Nodup

/-- 0x0C04: crops, destinations and scales. -/
def check0C04 (s : State) (h : Nat) (c : Commit) : Bool :=
  (layersOn c).all (fun l =>
    let b := lBox c l
    let f := lFmt c l
    decide ((b 0 + b 2) * lumaBytes f ≤ lPitch c l 0) && decide (1 ≤ b 2) && decide (1 ≤ b 3)
      && (!halfX f || (b 0 % 2 == 0 && b 2 % 2 == 0)) && (!halfY f || (b 1 % 2 == 0 && b 3 % 2 == 0))
      && decide (b 4 + b 6 ≤ headHactive s h) && decide (b 5 + b 7 ≤ headVactive s h)
      && (if l < 2 then decide (b 6 ≤ 16 * b 2) && decide (b 2 ≤ 4 * b 6) && decide (b 7 ≤ 16 * b 3) && decide (b 3 ≤ 4 * b 7)
        else b 6 == b 2 && b 7 == b 3))

/-- 0x0C05: the line buffer of R322. -/
def check0C05 (c : Commit) : Bool :=
  (layersOn c).all (fun l => decide (2 ≤ l)
    || (decide (lBox c l 6 ≤ 8192) && decide (lBox c l 6 * (6 * ceilDiv (lBox c l 3) (lBox c l 7)) ≤ 49152)))

/-- 0x0C06: the fetch budget of R325. -/
def check0C06 (s : State) (h : Nat) (c : Commit) : Bool :=
  let sum2 := ((layersOn c).map (fun l => lBox c l 2 * lBox c l 3 * fetch2 (lFmt c l))).sum
    + (if wbEn c then headHactive s h * headVactive s h * 8 else 0)
  decide (sum2 * headRate s h * 1000 ≤ 2 * 96000000000 * (headHtotal s h * headVtotal s h))

/-- 0x0C08: the signature rectangles. -/
def check0C08 (s : State) (h : Nat) (c : Commit) : Bool :=
  decide (sigCount c ≤ 16) && (List.range (sigCount c)).all (fun r =>
    let b := fun k => sigField c r (2 * k) 2
    decide (1 ≤ b 2) && decide (1 ≤ b 3) && decide (b 0 + b 2 ≤ headHactive s h) && decide (b 1 + b 3 ≤ headVactive s h))

/-- 0x0C09: the writeback rules of R329. -/
def check0C09 (s : State) (h : Nat) (c : Commit) : Bool :=
  !wbEn c || (wbField c 0 8 % 256 == 0 && wbField c 8 4 % 256 == 0 && decide (headHactive s h * 4 ≤ wbField c 8 4)
    && inObject s c.ctx (wbField c 0 8) (wbField c 8 4 * headVactive s h)
    && (match fenceFind s c.ctx (wbField c 16 8) with
      | some (_, f) => f.ctx == c.ctx
      | none => false))

/-- The DETAIL of the first check of R321 that fails. -/
def commitCheck (s : State) (h : Nat) (c : Commit) : Option Nat :=
  if !check0C01 s h c then some 0x0C01
  else if !check0C02 c then some 0x0C02
  else if !check0C03 c then some 0x0C03
  else if !check0C04 s h c then some 0x0C04
  else if !check0C05 c then some 0x0C05
  else if !check0C06 s h c then some 0x0C06
  else if bitOf (cField c 0 1) 1 && decide (2 ≤ h) then some 0x0C07
  else if !check0C08 s h c then some 0x0C08
  else if !check0C09 s h c then some 0x0C09
  else none

/-- Commits of a head whose descriptor is still to complete: one that was refused has left. -/
def waitingCommits (s : State) (h : Nat) : List Commit :=
  (head s h).next.filter (fun c => match s.desc? c.q c.i with
    | some d => d.phase != .done
    | none => false)

/-- The read of a commit record when its descriptor becomes the head (R320, R321). -/
def readCommit (q i : Nat) (s : State) : State :=
  match s.queue? q, s.desc? q i with
  | some x, some d =>
    let h := x.typeArg
    let va := dField d.raw 40 8
    if d.phase != .head || dOpcode d.raw != 0x300 || (head s h).failed || (head s h).next.any (fun c => c.q == q && c.i == i) then s
    else if dField d.raw 48 4 ≠ 1408 || !isLocal va 1408 then refuse q i 2 0x0C01 s
    else
      match rangeCheck s x.ctx va 1408, s.ctx? x.ctx with
      | some (st, e), _ => refuseAt q i x.ctx va (dTag d.raw) st e s
      | none, none => s
      | none, some c =>
        let k := walkVa s c false (userDesc q i) va 1408 false
        match k.stop with
        | some (.bad st e) => refuseAt q i x.ctx va (dTag d.raw) st e s
        | some _ => s
        | none =>
          let r : Commit := { q := q, i := i, ctx := x.ctx, tag := dTag d.raw, raw := readPieces s k.pieces }
          setHead s h { head s h with next := waitingCommits s h ++ [r] }
  | _, _ => s

/-- A queue's oldest unreleased descriptor becomes its head: the checks of R217, a commit's read, the first evaluation of its wait. -/
def headArrives (q : Nat) (s : State) : State :=
  match s.queue? q with
  | none => s
  | some x =>
    match headOf x with
    | none => s
    | some (i, d) =>
      if !feRuns s || !x.resident || d.phase != .read || !launchReady s d then s
      else
        let s1 := s.setDesc q i { d with phase := .head, headStamp := s.now }
        match headCheck s q x d with
        | some e => logViol (refuse q i 2 e s1) 6 x.fn 1 q e
        | none => evalWait q true (readCommit q i s1)

/-- DESCRIPTOR_HEAD (R217, R228, R321). -/
def execDescriptorHead (q : Nat) (s : State) : Result := .next (headArrives q s)

/-- DISP_COMMIT (R320, R321): a commit becomes the head of its queue, and the head reads its record. -/
def execDispCommit (q i : Nat) (s : State) : Result :=
  match (s.queue? q).bind headOf with
  | some (j, d) => .next (if j = i && dOpcode d.raw = 0x300 then headArrives q s else s)
  | none => .next s

/-- The scaler tables of a validated commit, read at validation; the address of a page that fails. -/
def readCoefs (s : State) (c : Commit) : (ls : List Nat) → Map (List Byte) → Except (Nat × Nat × Nat) (Map (List Byte))
  | [], m => .ok m
  | l :: ls, m =>
    if !lFilter c l then readCoefs s c ls m
    else
      match s.ctx? c.ctx with
      | none => .ok m
      | some x =>
        let k := walkVa s x false (userDesc c.q c.i) (lCoef c l) 1792 false
        match k.stop with
        | some (.bad st e) => .error (lCoef c l, st, e)
        | some _ => .ok m
        | none => readCoefs s c ls (mins m l (readPieces s k.pieces))

/-- COMMIT_VALIDATION_DONE (R321): the oldest commit in validation. -/
def execCommitValidationDone (h : Fin 4) (s : State) : Result :=
  let x := head s h
  let ws := waitingCommits s h
  match ws.find? (fun c => !c.ok) with
  | none => .next s
  | some c =>
    if !feRuns s || x.failed then .next s
    else
      match commitCheck s h c with
      | some e => .next (refuse c.q c.i 0x0E e (setHead s h { x with next := ws.filter (· != c) }))
      | none =>
        match readCoefs s c (layersOn c) [] with
        | .error (va, st, e) => .next (refuseAt c.q c.i c.ctx va c.tag st e (setHead s h { x with next := ws.filter (· != c) }))
        | .ok m => .next (setHead s h { x with next := ws.map (fun y => if y = c then { c with ok := true, coefs := m } else y) })

/-! ### Composition (R322 to R324) -/

/-- Bytes of a surface, read as one number; a page that does not translate gives 0, and its layer is dead. -/
def surfRead (s : State) (ctx va n : Nat) : Nat :=
  match s.ctx? ctx with
  | none => 0
  | some c =>
    let k := walkVa s c false 0 va n false
    match k.stop with
    | none => ofLe (readPieces s k.pieces)
    | some _ => 0

/-- A sample of the luma plane, or of channel `k` of the interleaved chroma plane. -/
def lumaAt (s : State) (c : Commit) (l x y : Nat) : Nat :=
  let b := lumaBytes (lFmt c l)
  let w := surfRead s c.ctx (lSurf c l 0 + lPitch c l 0 * y + b * x) b
  if b = 1 then unormRead 8 w else unormRead 10 (field w 6 10)
def chromaAt (s : State) (c : Commit) (l k x y : Nat) : Nat :=
  let b := lumaBytes (lFmt c l)
  let w := surfRead s c.ctx (lSurf c l 1 + lPitch c l 1 * y + b * (2 * x + k)) b
  if b = 1 then unormRead 8 w else unormRead 10 (field w 6 10)

/-- Chroma of a luma column on one chroma row: sited on even columns, odd ones the mean of their neighbours; edges of the crop repeat. -/
def chromaCol (s : State) (c : Commit) (l k x y : Nat) : Nat :=
  if !halfX (lFmt c l) then chromaAt s c l k x y
  else
    let a := chromaAt s c l k (x / 2) y
    let last := (lBox c l 0 + lBox c l 2) / 2 - 1
    if x % 2 = 0 then a else fmul (fadd a (chromaAt s c l k (min (x / 2 + 1) last) y)) fHalf

/-- Chroma of a luma pixel: at 4:2:0 three quarters of its row and one quarter of the nearer neighbour. -/
def chromaPix (s : State) (c : Commit) (l k x y : Nat) : Nat :=
  if !halfY (lFmt c l) then chromaCol s c l k x y
  else
    let j := y / 2
    let first := lBox c l 1 / 2
    let last := (lBox c l 1 + lBox c l 3) / 2 - 1
    let n := if y % 2 = 0 then max (j - 1) first else min (j + 1) last
    fadd (fmul 0x3F400000 (chromaCol s c l k x j)) (fmul 0x3E800000 (chromaCol s c l k x n))

/-- Unpacked channels of a source pixel: R, G, B or Y, Cb, Cr, and alpha. -/
def sourcePix (s : State) (c : Commit) (l x y : Nat) : List Nat :=
  let f := lFmt c l
  if twoPlanes f then [lumaAt s c l x y, chromaPix s c l 0 x y, chromaPix s c l 1 x y, f1]
  else
    let b := lumaBytes f
    pixelRead (if f = 2 then 1 else f) (surfRead s c.ctx (lSurf c l 0 + lPitch c l 0 * y + b * x) b)

/-- Source position of a destination pixel in 64ths, phase rounded to the nearest with ties upward (R322). -/
def scalePos (src n d x : Nat) : Int :=
  let a : Int := (2 * (x : Int) + 1) * (n : Int) - (d : Int)
  64 * (src : Int) + (128 * a + 2 * (d : Int)) / (4 * (d : Int))

/-- A tap's position kept within the crop. -/
def tapAt (src n : Nat) (p : Int) : Nat := clampN src (src + n - 1) p.toNat

/-- Sum of taps: the two of BILINEAR rounded at each operation, a table's through the opaque order. -/
def tapSum (ts : List (Nat × Nat)) (bilinear : Bool) : Nat :=
  let ps := ts.map (fun t => fmul t.1 t.2)
  match bilinear, ps with
  | true, [a, b] => fadd a b
  | _, _ => canon32 (Config.scalerSum (ps.map (BitVec.ofNat 32))).toNat

/-- FP32 code of a signed 16-bit coefficient with 14 fraction bits. -/
def coefAt (c : Commit) (l phase k : Nat) : Nat :=
  toFp32 (.fin (signed 16 (ofLe (((mget c.coefs [] l).drop (28 * phase + 2 * k)).take 2))) (-14))

/-- Taps along one axis: source positions with their weights. `across` selects the 8 horizontal taps, else the 6 vertical ones. -/
def taps (c : Commit) (l : Nat) (across : Bool) (x : Nat) : List (Nat × Nat) :=
  let b := lBox c l
  let (src, n, d) := if across then (b 0, b 2, b 6) else (b 1, b 3, b 7)
  let p := scalePos src n d x
  let base := p / 64
  let ph := (p % 64).toNat
  if lFilter c l then
    let m := if across then 8 else 6
    (List.range m).map (fun (k : Nat) => (tapAt src n (base - ((m / 2 - 1 : Nat) : Int) + (k : Int)), coefAt c l ph (if across then k else 8 + k)))
  else [(tapAt src n base, fquot (64 - ph) 64), (tapAt src n (base + 1), fquot ph 64)]

/-- A layer's channels at a destination pixel of the layer. -/
def layerPix (s : State) (c : Commit) (l x y : Nat) : List Nat :=
  if 2 ≤ l then sourcePix s c l (lBox c l 0 + x) (lBox c l 1 + y)
  else
    let hx := taps c l true x
    let vy := taps c l false y
    (List.range 4).map (fun k =>
      let row := fun sy => tapSum (hx.map (fun t => ((sourcePix s c l t.1 sy).getD k 0, t.2))) (!lFilter c l)
      tapSum (vy.map (fun t => (row t.1, t.2))) (!lFilter c l))

/-- The matrix of step 4: summed exactly and rounded once. -/
def matrixRow (c : Commit) (l i : Nat) (p : List Nat) : Nat :=
  let m := fun j => decodeF fp32 (lMatrix c l i j)
  let v := fun j => decodeF fp32 (p.getD j 0)
  toFp32 (fvAdd (fvAdd (fvAdd (fvMul (m 0) (v 0)) (fvMul (m 1) (v 1))) (fvMul (m 2) (v 2))) (m 3))

/-- Steps 4 to 6 on a layer's channels. -/
def layerColour (c : Commit) (l : Nat) (p : List Nat) : List Nat :=
  let col := (List.range 3).map (fun i => clampUnit (matrixRow c l i p))
  let a := if lAlpha c l = 0 then f1 else clampUnit (p.getD 3 f1)
  let col := if lAlpha c l = 2 then col.map (fun v => fmul v a) else col
  let pa := unormRead 16 (lField c l 2 2)
  col.map (fun v => fmul v pa) ++ [fmul a pa]

/-- Enabled layers in ascending Z, insertion by Z. -/
def byZ (c : Commit) : List Nat := (List.range 8).filterMap (fun z => (layersOn c).find? (fun l => lZ c l == z))

def covers (c : Commit) (l x y : Nat) : Bool :=
  let b := lBox c l
  decide (b 4 ≤ x) && decide (x < b 4 + b 6) && decide (b 5 ≤ y) && decide (y < b 5 + b 7)

/-- The composed colour of an output pixel (steps 1 to 7). -/
def composed (s : State) (c : Commit) (dead : List Nat) (x y : Nat) : List Nat :=
  ((byZ c).filter (fun l => covers c l x y && !dead.contains l)).foldl (fun out l =>
      let p := layerColour c l (layerPix s c l (x - lBox c l 4) (y - lBox c l 5))
      let k := fsub f1 (p.getD 3 f1)
      (List.range 3).map (fun i => fadd (p.getD i 0) (fmul k (out.getD i 0))))
    ((List.range 3).map (fun i => unormRead 16 (cField c (8 + 2 * i) 2)))

def ditherAt (x y : Nat) : Nat := [0, 8, 2, 10, 12, 4, 14, 6, 3, 11, 1, 9, 15, 7, 13, 5].getD (4 * (y % 4) + x % 4) 0

/-- Step 8: a channel quantised to `b` bits. -/
def quantise (b : Nat) (dither : Bool) (x y v : Nat) : Nat :=
  let top : Nat := 2 ^ b - 1
  let p := fmul v (toFp32 (.fin (top : Int) 0))
  if dither then min top (floorInt (decodeF fp32 (fadd p (fquot (2 * ditherAt x y + 1) 32))))
  else
    let r := roundInt (decodeF fp32 p)
    if r ≤ top then r else Config.quantOver b (BitVec.ofNat 32 v) % 2 ^ b

/-- The output pixel of a head at a place, R, G and B left-aligned to 10 bits in one word (R324, R329, R330); black without a commit. -/
def outPixel (s : State) (h x y : Nat) : Nat :=
  let b := bpcBits s h
  match (head s h).active with
  | none => 0
  | some c =>
    let v := (composed s c (head s h).dead x y).map (fun v => quantise b (bitOf (cField c 0 1) 1) x y v * 2 ^ (10 - b))
    v.getD 0 0 + 2 ^ 10 * v.getD 1 0 + 2 ^ 20 * v.getD 2 0

/-! ### Frames (R316, R326 to R330) -/

/-- The line of a head (R316, R331): from the last frame start or vertical blank start it moves on by the FE clock, in lines of R316's length,
to the end of the active area or of the frame. While the timing generator stands, it does not move. -/
def headLine (s : State) (h : Nat) : Nat :=
  let x := head s h
  if !timingRuns s h || (x.line = 0 && x.startStamp.isNone) || lineFe s h = 0 then x.line
  else min (x.line + (s.now - x.lineStamp) / lineFe s h) ((if x.line < headVactive s h then headVactive s h else headVtotal s h) - 1)

/-- Rows of a plane that the head fetches: those of the crop. -/
def fetchRows (c : Commit) (l : Nat) : List (Nat × Nat) :=
  let b := lBox c l
  let f := lFmt c l
  let n := lumaBytes f
  (List.range (b 3)).map (fun k => (lSurf c l 0 + lPitch c l 0 * (b 1 + k) + n * b 0, n * b 2))
    ++ (if !twoPlanes f then [] else
      let (y0, ny) := if halfY f then (b 1 / 2, b 3 / 2) else (b 1, b 3)
      let (x0, nx) := if halfX f then (b 0 / 2, b 2 / 2) else (b 0, b 2)
      (List.range ny).map (fun k => (lSurf c l 1 + lPitch c l 1 * (y0 + k) + 2 * n * x0, 2 * n * nx)))

/-- The first address of a layer whose page fails translation, with its DETAIL (R328). -/
def fetchFault (s : State) (c : Commit) (l : Nat) : Option (Nat × Nat × Nat) :=
  match s.ctx? c.ctx with
  | none => some (lSurf c l 0, 3, 0x0701)
  | some x => (fetchRows c l).findSome? (fun r => match (walkVa s x false 0 r.1 r.2 false).stop with
    | some (.bad st d) => some (r.1, st, d)
    | _ => none)

def ctxLive (s : State) (ctx : Nat) : Bool :=
  match s.ctx? ctx with
  | some c => c.st == .live
  | none => false

/-- Layers whose fetch fails become transparent; the first failure since the commit fills the context's record. -/
def fetchLayers (h : Nat) (s : State) : State :=
  match (head s h).active with
  | none => s
  | some c =>
    foldState ((layersOn c).filter (fun l => !(head s h).dead.contains l)) (fun l a =>
      match fetchFault a c l with
      | none => a
      | some (va, st, d) =>
        let x := head a h
        let a1 := setHead a h { x with dead := x.dead ++ [l], faulted := true }
        if x.faulted || !ctxLive a c.ctx || a.flt.safe then a1 else fillFault a1 c.ctx ⟨va, 0, st, d, 2, 255, c.tag, 0⟩) s

/-- Bytes the head fetches in a frame, measured by the hub counter (R408). -/
def countFetch (h : Nat) (s : State) : State :=
  match (head s h).active with
  | none => s
  | some c => countHub (((layersOn c).map (fun l => if (head s h).dead.contains l then 0 else lBox c l 2 * lBox c l 3 * fetch2 (lFmt c l) / 2)).sum) s

/-- The frame that a head composes from its active commit: every output pixel once, for the transmitter, the writeback and the signatures
(R324; log entry 64). -/
def composeFrame (s : State) (h : Nat) : Option Shown :=
  (head s h).active.map (fun c => ⟨c, (List.range (headVactive s h)).map (fun y => (List.range (headHactive s h)).map (fun x => outPixel s h x y))⟩)

/-- An output pixel of the frame shown; black without a commit. -/
def shownPixel (x : Head) (k y : Nat) : Nat := ((x.shown.map (·.rows)).getD []).getD y [] |>.getD k 0

/-- FRAME_START (R316, R52): the counter advances, the front end stamps the start, and the head fetches and composes the frame. -/
def execFrameStart (h : Fin 4) (s : State) : Result :=
  if !timingRuns s h then .next s
  else
    let x := head s h
    let s1 := countFetch h (fetchLayers h (setHead s h { x with
      frame := (x.frame + 1) % 2 ^ 64, startStamp := some s.now, line := 0, lineStamp := s.now }))
    .next (setHead s1 h { head s1 h with shown := composeFrame s1 h })

/-- What a head sends (R314, R317, R318, R324): nothing, idle patterns, a training pattern, or its stream. -/
inductive HeadSends where
  | off
  | idle
  | training
  /-- The rows of the frame, with none of them black; DSC, FEC, the VSC SDP's colorimetry, and the HDR SDP. -/
  | stream (rows : List (List Nat)) (dsc : Option (Nat × Nat × Nat)) (fec : Bool) (vsc : Nat) (hdr : Option (List Byte))
  deriving DecidableEq, Repr

def headSends (s : State) (h : Nat) : HeadSends :=
  let x := head s h
  if !headUp s h || s.oas.latched then .off
  else match x.st with
    | .off => .off
    | .linkFailed => .idle
    | .training => if x.hpd then .training else .off
    | .active => .stream ((x.shown.map (·.rows)).getD []) (dscStream s h) (fecOn s h) (vscColorimetry s h) (hdrSdp s h)

/-- DP_PWR of a head's receptacle: on while the head is enabled, off in DORMANT and OASIS (R411). -/
def dpPower (s : State) (h : Nat) : Bool := (head s h).st != .off && s.pwr.dev != .dormant && s.pwr.dev != .oasis

/-- The rows of the frame shown, for writeback (R329). -/
def frameRows (rows : List (List Nat)) : List (List Byte) := rows.map (fun r => r.flatMap (fun v => leBytes 4 (v + 3 * 2 ^ 30)))

/-- The end of the active area: the frame's writeback is on its way. -/
def captureFrame (h : Nat) (s : State) : State :=
  let x := head s h
  match x.shown with
  | none => s
  | some y =>
    let c := y.commit
    if wbEn c && !s.flt.safe && x.startStamp.isSome then
      setHead s h { x with wb := some ⟨c.q, c.ctx, c.tag, wbField c 0 8, wbField c 8 4, wbField c 16 8, x.frame, frameRows y.rows⟩ }
    else s

/-- Disabled layers and writeback of a context that is gone (R328, R242). -/
def dropGone (h : Nat) (s : State) : State :=
  let x := head s h
  match x.active with
  | some c => if ctxLive s c.ctx then s else setHead s h { x with active := some { c with
      raw := leBytes 1 (setField (cField c 0 1) 0 1 0) ++ c.raw.drop 1 }, dead := layersOn c }
  | none => s

/-- VBLANK_START (R326, R327). -/
def execVblankStart (h : Fin 4) (s : State) : Result :=
  if !timingRuns s h then .next s
  else
    let s1 := dropGone h (captureFrame h s)
    let x := { head s1 h with line := headVactive s h, lineStamp := s.now, next := waitingCommits s1 h }
    let s2 := setHead s1 h x
    match x.next with
    | [] => .next (setHead s2 h { x with inRun := false })
    | c :: rest =>
      if !feRuns s then .next s2
      else if bitOf (cField c 0 1) 2 && decide (diff32 (x.frame + 1) (cField c 4 4) < 0) then .next s2
      else
        match s2.desc? c.q c.i with
        | none => .next s2
        | some d =>
          if c.ok && d.phase == .released && decide (d.stamp + 800 ≤ s.now) then
            let y : Head := { x with active := some c, next := rest, dead := [], faulted := false, inRun := false }
            .next (done c.q c.i ((x.frame + 1) % 2 ^ 64) (setHead s2 h y))
          else
            let s3 := setHead s2 h { x with repeats := satInc32 x.repeats, inRun := true }
            .next (if x.inRun then s3 else faultEvent s3 0 0x0A h 1 c.ctx x.frame)

/-- WRITEBACK_DONE (R329): the rows become visible, and the fence is signalled with the frame number. -/
def execWritebackDone (h : Fin 4) (s : State) : Result :=
  let x := head s h
  match x.wb with
  | none => .next s
  | some w =>
    let s0 := setHead s h { x with wb := none }
    if s.flt.safe || x.failed then .next s0
    else if let some page := recordPage s w.ctx w.fence then .next (waitRecord s w.ctx page)
    else
      match s0.ctx? w.ctx with
      | none => .next s0
      | some c =>
        let s1 := foldState w.rows.zipIdx (fun r a =>
          let k := walkVa a c false 0 (w.va + w.pitch * r.2) r.1.length true
          match k.stop with
          | none => countHub r.1.length (writePieces a k.pieces r.1)
          | some (.bad st d) => fillFault a w.ctx ⟨w.va + w.pitch * r.2, 0, st, d, 2, 255, w.tag, 0⟩
          | some _ => a) s0
        .next (applySignal s1 w.q w.ctx w.fence w.frame w.tag).1

/-- SIGNATURE_LATCH (R330): a rectangle of the frame shown. -/
def execSignatureLatch (h : Fin 4) (r : Fin 16) (s : State) : Result :=
  let x := head s h
  match x.shown with
  | none => .next s
  | some f =>
    let c := f.commit
    if !timingRuns s h || s.flt.safe || sigCount c ≤ r.val then .next s
    else
      let b := fun k => sigField c r (2 * k) 2
      let bytes := (List.range (b 3)).flatMap (fun y => (List.range (b 2)).flatMap (fun k => leBytes 4 (shownPixel x (b 0 + k) (b 1 + y))))
      let crc := crc32c bytes
      let bad := bitOf (sigField c r 12 1) 0 && crc.toNat != sigField c r 8 4
      let s1 := setHead s h { x with
        crc := mset x.crc 0 r crc, mismatch := if bad then setField x.mismatch r 1 1 else x.mismatch }
      .next (if bad && bitOf (dispCtrl s h) 7 then headIrq h s1 else s1)

/-! ### Enabling, training and the sink (R315, R317, R318, R427) -/

/-- The pixel PLL's lock bit. -/
def setPixelLock (h : Nat) (on : Bool) (s : State) : State :=
  { s with clk := { s.clk with locks := setField s.clk.locks (pixelPll h) 1 (b2n on) } }

/-- ENABLE set: the timing check, then TRAINING with the timing generator on a locked PLL (R317). -/
def enableHead (h : Nat) (s : State) : State :=
  let x := head s h
  if timingOk s h && dscOk s h && linkCarries s h then
    let s1 := if s.clk.xtalOk then setPixelLock h true s else s
    setHead s1 h { x with
      st := .training, timingStopped := !s.clk.xtalOk, startStamp := none, active := none, shown := none, dead := [], wb := none, fails := 0, retrains := [], inRun := false }
  else setHead (wr s (headBase h) (setField (dispCtrl s h) 0 1 0)) h { x with enableErr := true }

/-- ENABLE cleared: OFF at once, the active configuration discarded. -/
def disableHead (h : Nat) (s : State) : State :=
  let x := head s h
  setHead (setPixelLock h false s) h { x with
    st := .off, timingStopped := false, startStamp := none, active := none, shown := none, dead := [], wb := none, line := 0, inRun := false }

/-- RETRAIN: out of LINK_FAILED, and training again. -/
def retrainHead (h : Nat) (s : State) : State :=
  let x := head s h
  if x.st == .linkFailed then setHead s h { x with st := .training, fails := 0, retrains := [] } else s

/-- A write of DISP_CTRL (R315, R317, R331, R427): while the head is not OFF, BPC, DSC_EN and the polarities keep their values. -/
def writeDispCtrl (h v : Nat) (s : State) : State :=
  let x := head s h
  let off := headBase h
  if x.failed && bitOf v 0 then regRefused s 0 off v
  else
    let old := dispCtrl s h
    let w := setField (field v 0 14) 1 1 0
    let kept := setField w 2 5 (field old 2 5)
    let s1 := if x.st == .off then wr s off w else wr (if kept = w then s else regRefused s 0 off v) off kept
    let s2 := if bitOf v 0 && x.st == .off then enableHead h s1 else if !bitOf v 0 && x.st != .off then disableHead h s1 else s1
    if bitOf v 1 then retrainHead h s2 else s2

/-- HEAD_ENABLE: a write of DISP_CTRL with ENABLE set. -/
def execHeadEnable (h : Fin 4) (v : W32) (s : State) : Result :=
  regWrite (headBase h) (writeDispCtrl h (setField v.toNat 0 1 1)) s

/-- HEAD_DISABLE: a write of DISP_CTRL with ENABLE clear. -/
def execHeadDisable (h : Fin 4) (v : W32) (s : State) : Result :=
  regWrite (headBase h) (writeDispCtrl h (setField v.toNat 0 1 0)) s

/-- Writable bits of the timing and link registers. -/
def timingMask (off v : Nat) : Nat :=
  if off = 0x014 then field v 0 23 else if off = 0x018 then field v 0 7 else if off = 0x01C then field v 0 14 else field v 0 32

def writeTiming (h off v : Nat) (s : State) : State :=
  if (head s h).st == .off then wr s (headBase h + off) (timingMask off v) else regRefused s 0 (headBase h + off) v

/-- TIMING_WRITE: a write of offsets 0x004 to 0x01C, accepted only while the head is OFF. -/
def execTimingWrite (h : Fin 4) (off : Nat) (v : W32) (s : State) : Result :=
  if 0x004 ≤ off && off ≤ 0x01C && off % 4 = 0 then regWrite (headBase h + off) (writeTiming h off v.toNat) s else .next s

/-- RETRAIN: a write of DISP_CTRL that sets RETRAIN beside the fields as they stand. -/
def execRetrain (h : Fin 4) (s : State) : Result :=
  regWrite (headBase h) (writeDispCtrl h (setField (dispCtrl s h) 1 1 1)) s

/-- The link can train: the transmitter is on, a sink is present, the timing generator runs and the pads are not latched (R363). -/
def canTrain (s : State) (h : Nat) : Bool := timingRuns s h && (head s h).st == .training && (head s h).hpd && !s.oas.latched

/-- LINK_TRAINING_COMPLETE (R318). -/
def execLinkTrainingComplete (h : Fin 4) (ok : Bool) (s : State) : Result :=
  if !canTrain s h then .next s
  else
    let x := head s h
    if ok then .next (setHead s h { x with st := .active, fails := 0 })
    else if x.fails < 2 then .next (setHead s h { x with fails := x.fails + 1 })
    else .next (sinkEvent h 2 (setHead s h { x with st := .linkFailed, fails := 0 }))

/-- FE cycles of 1 s. -/
def feSecond : Nat := 1600000000

/-- IRQ_HPD with the link status not OK (R318): the link is retrained, or fails after more than 8 retrains within 1 s. -/
def execIrqHpd (h : Fin 4) (s : State) : Result :=
  let x := head s h
  if !timingRuns s h || !x.hpd || x.st != .active then .next s
  else
    let recent := (x.retrains.filter (fun t => decide (s.now < t + feSecond))) ++ [s.now]
    if 8 < recent.length then .next (sinkEvent h 2 (setHead s h { x with st := .linkFailed, retrains := [] }))
    else .next (sinkEvent h 1 (setHead s h { x with st := .training, retrains := recent }))

/-- A change of HPD, with its interrupt. -/
def hpdChange (h : Nat) (x : Head) (s : State) : State :=
  let s1 := setHead s h { x with hpdChanged := true }
  if bitOf (dispCtrl s h) 8 then headIrq h s1 else s1

/-- HPD_LOW for 2 ms or more (R318). -/
def execHpdLow (h : Fin 4) (s : State) : Result :=
  let x := head s h
  if !headUp s h || !x.hpd then .next s
  else .next (hpdChange h { x with hpd := false, st := if x.st == .active then .training else x.st } s)

/-- HPD_RISE (R318). -/
def execHpdRise (h : Fin 4) (s : State) : Result :=
  let x := head s h
  if !headUp s h || x.hpd then .next s else .next (hpdChange h { x with hpd := true } s)

/-! ### AUX (R318, R331) -/

/-- Send an AUX request with its data bytes; latched pads let nothing out (R363). -/
def auxSend (h : Nat) (s : State) : State :=
  let w := headReg s h 0x080
  let bs := ((List.range 4).flatMap (fun k => leBytes 4 (headReg s h (0x090 + 4 * k)))).take (field w 24 4 + 1)
  if s.oas.latched then s else s.send { kind := .aux, a := h, b := field w 0 28, bytes := bs }

/-- A write of the AUX register: its fields, and GO while no request is busy. -/
def writeAux (h v : Nat) (s : State) : State :=
  let x := head s h
  let s1 := wr s (headBase h + 0x080) (field v 0 28)
  if bitOf v 31 && x.auxStatus != 1 then auxSend h (setHead s1 h { x with auxStatus := 1, auxTries := 0 }) else s1

/-- AUX_REQUEST. -/
def execAuxRequest (h : Fin 4) (v : W32) (s : State) : Result := regWrite (headBase h + 0x080) (writeAux h v.toNat) s

/-- Data words of a reply, for a read. -/
def putAuxData (h : Nat) : (k : Nat) → List Byte → State → State
  | _, [], s => s
  | k, b :: bs, s =>
    let off := headBase h + 0x090 + k / 4 * 4
    putAuxData h (k + 1) bs (if k < 16 then wr s off (setField (rd s off) (8 * (k % 4)) 8 b.toNat) else s)

/-- AUX_COMPLETE (R318): DEFER is retried up to 7 times. -/
def execAuxComplete (h : Fin 4) (reply : AuxReply) (data : List Byte) (s : State) : Result :=
  let x := head s h
  if x.auxStatus ≠ 1 || !headUp s h then .next s
  else
    match reply with
    | .ack => .next (setHead (putAuxData h 0 data s) h { x with auxStatus := 2 })
    | .nak => .next (sinkEvent h 3 (setHead s h { x with auxStatus := 3 }))
    | .defer =>
      if x.auxTries < 7 then .next (auxSend h (setHead s h { x with auxTries := x.auxTries + 1 }))
      else .next (setHead s h { x with auxStatus := 4 })
    | .none => .next (sinkEvent h 4 (setHead s h { x with auxStatus := 5 }))

end Sys2Proof.Machine
end

