-- ==== Sys2Proof/Machine/Media.lean ====
section
/-! DEFINITION. Media engines (chapter 13): which descriptor an engine serves, the two records, and the pictures. The codecs are other
standards: what they make is opaque, and what their parsers find is the command's operand (log entry 15). -/

namespace Sys2Proof.Machine

/-- STATE_VA is in use by an earlier-released descriptor of another queue (R339). -/
def stateBusy (s : State) (q i : Nat) (x : Queue) (d : Desc) (va : Nat) : Bool :=
  (mediaWork s).any (fun w => w.1 != q && w.2.2.1.ctx == x.ctx
    && (decide (w.2.2.2.stamp < d.stamp) || (w.2.2.2.stamp == d.stamp && mediaBefore w (q, i, { x with prio := w.2.2.1.prio }, d)))
    && stateOf s w.1 w.2.1 w.2.2.1 w.2.2.2 == some va)

/-- The engine that a descriptor needs has failed since its release, or every engine where any would do (R33, R218). -/
def engineGone (s : State) (x : Queue) (d : Desc) : Bool :=
  match d.engine with
  | some e => isFailed s (32 + e)
  | none => if x.typeArg = 0xFF then (List.range 4).all (fun e => isFailed s (32 + e)) else isFailed s (32 + x.typeArg % 4)

def stream (s : State) (ctx va : Nat) : Stream := (s.streams.find? (fun t => t.ctx == ctx && t.va == va)).getD { ctx := ctx, va := va }
def setStream (s : State) (t : Stream) : State :=
  { s with streams := t :: s.streams.filter (fun u => !(u.ctx == t.ctx && u.va == t.va)) }

def mediaFmt (f : Nat) : Bool := decide (0x20 ≤ f) && decide (f ≤ 0x23)
/-- Bytes per sample and per chroma row pair of a surface format, and chroma rows of `h` luma rows (R334). -/
def mediaSample (f : Nat) : Nat := if f = 0x20 then 1 else 2
def chromaBytes (f w : Nat) : Nat := mediaSample f * 2 * (if f = 0x23 then w else ceilDiv w 2)
def chromaRows (f h : Nat) : Nat := if f = 0x20 || f = 0x21 then ceilDiv h 2 else h

/-- Rows of a surface as (address, bytes), luma then chroma. -/
def surfRows (f va pitch cva w h : Nat) : List (Nat × Nat) :=
  (List.range h).map (fun y => (va + pitch * y, mediaSample f * w)) ++ (List.range (chromaRows f h)).map (fun y => (cva + pitch * y, chromaBytes f w))

/-- A field out of range or a reserved field set in a decode record (R335). -/
def decodeBad (w : Nat) : Bool :=
  let flush := bitOf w 2
  let bs := rField w 4 4
  clearFields w [(0, 4), (32, 32), (64, 64), (128, 64), (192, 64), (256, 32), (288, 6), (296, 8), (320, 32), (352, 32), (384, 32)] != 0
    || field w 0 2 == 3 || (if flush then bs != 0 else bs == 0 || decide (2 ^ 24 < bs))
    || rField w 16 8 % 4096 != 0 || rField w 24 8 % 4096 != 0 || rField w 32 4 % 4096 != 0
    || field w 288 6 == 0 || decide (32 < field w 288 6) || !mediaFmt (rField w 37 1) || rField w 44 4 % 256 != 0
    || rField w 40 2 == 0 || rField w 42 2 == 0
    || (!flush && !isLocal (rField w 8 8) bs) || !isLocal (rField w 16 8) (2 ^ 18) || !isLocal (rField w 24 8) (rField w 32 4 * field w 288 6)

/-- As `decodeBad` for an encode record (R337). -/
def encodeBad (w : Nat) : Bool :=
  let f := rField w 28 1
  clearFields w [(0, 4), (8, 1), (16, 8), (32, 32), (64, 64), (128, 64), (192, 32), (224, 8), (256, 32), (288, 32), (320, 64), (384, 64),
      (448, 32), (480, 32)] != 0
    || decide (2 ≤ field w 0 2) || (field w 0 2 == 1 && decide (51 < rField w 2 1)) || rField w 24 4 % 256 != 0
    || !(f == 0x20 || f == 0x21 || (f == 0x22 && field w 0 2 == 1))
    || decide (rField w 32 2 < 64) || decide (3840 < rField w 32 2) || decide (rField w 34 2 < 64) || decide (2160 < rField w 34 2)
    || rField w 32 2 % 2 != 0 || rField w 34 2 % 2 != 0 || rField w 40 8 % 4096 != 0 || !isLocal (rField w 40 8) (2 ^ 25)
    || !isLocal (rField w 48 8) (rField w 56 4) || !isLocal (rField w 8 8) 1 || !isLocal (rField w 16 8) 1

/-- Translate the rows of a surface; the first that stops. -/
def rowWalks (s : State) (c : Ctx) (user : Nat) (write : Bool) : List (Nat × Nat) → Except (Nat × Tr) (List (Nat × Nat))
  | [] => .ok []
  | r :: rs =>
    let k := walkVa s c false user r.1 r.2 write
    match k.stop with
    | some t => .error (r.1, t)
    | none => match rowWalks s c user write rs with
      | .ok ps => .ok (k.pieces ++ ps)
      | .error e => .error e

/-- The device's own bytes for a codec's arguments. -/
def codecOut (args : List Nat) (n : Nat) : List Byte := (List.range n).map (Config.codecBytes args)

/-- The device writes its private stream state at STATE_VA (R335, R337): what it puts there is open. -/
def keepStream (q i : Nat) (x : Queue) (c : Ctx) (d : Desc) (va n : Nat) (args : List Nat) (t : Stream) (k : State → State) (s : State) : State :=
  let o := walkVa s c false (userDesc q i) va n true
  match o.stop with
  | some e => stopDesc q i x d.cur va 2 0 e 0 s
  | none => k (setStream (writePieces s o.pieces (codecOut (2 :: args) n)) t)

def countPicture (e : Nat) (s : State) : State :=
  let x := engine s e
  setEngine s e { x with pictures := satInc32 x.pictures }

/-- A media descriptor whose engine has taken it: its record checked for size, place and use, then served; idle engines then take more
work. One that no engine has taken waits, and one whose engine has failed ends (R33, R218). -/
def mediaRow (op : Nat) (bad : Nat → Bool) (serve : Queue → Ctx → Desc → Nat → Nat → State → State) (q i : Nat) (s : State) : Result :=
  descRow op (fun x d w s => takeAll <|
    if engineGone s x d then failed q i 9 0x0801 s
    else match d.engine, s.ctx? x.ctx with
    | some e, some c =>
      if !engineUp s e then s
      else if dField w 48 4 ≠ 128 || !isLocal (dField w 40 8) 128 then failed q i 2 0x0D01 s
      else
        (match mediaRecord s x q i w with
        | .error t => stopDesc q i x w (dField w 40 8) 2 0 t 0 s
        | .ok r =>
          if bad r then failed q i 2 0x0D01 s
          else if stateBusy s q i x d (stateVa op r) then failed q i 1 0x0D02 s
          else serve x c d e r s)
    | _, _ => s) q i s

/-- The ranges a record names, each in its object (R223). -/
def mediaRanges (s : State) (ctx : Nat) (rs : List (Nat × Nat)) : Option (Nat × Nat × Nat) :=
  rs.findSome? (fun r => (rangeCheck s ctx r.1 r.2).map (fun e => (r.1, e.1, e.2)))

/-- The ranges of a decode record (R223, R335). -/
def decodeRanges (w : Nat) : List (Nat × Nat) :=
  [(rField w 8 8, rField w 4 4), (rField w 16 8, 2 ^ 18), (rField w 24 8, rField w 32 4 * field w 288 6)]

/-- Refuse a running descriptor on a range it names. -/
def rangeFail (q i : Nat) (x : Queue) (w : W512) (e : Nat × Nat × Nat) (s : State) : State :=
  failed q i e.2.1 e.2.2 (if e.2.1 = 3 then fillFault s x.ctx ⟨e.1, 0, 3, e.2.2, 2, 255, dTag w, 0⟩ else s)

/-! ### The codec subset (R332, R333) -/

/-- A row of R332: the codec, the profiles, the chroma formats, and the highest levels of decoding and encoding, times 10. -/
structure CodecRow where
  codec : Nat
  profiles : List MediaProfile
  chroma : List Chroma
  decode : Nat
  encode : Option (MediaProfile × Nat)

def codecTable : List CodecRow :=
  [⟨0, [.av1Main], [.c400, .c420], 61, some (.av1Main, 53)⟩, ⟨0, [.av1High], [.c400, .c420, .c444], 61, none⟩,
   ⟨1, [.hevcMain, .hevcMain10], [.c420], 61, some (.hevcMain10, 52)⟩, ⟨1, [.hevcMain42210], [.c422], 61, some (.hevcMain42210, 52)⟩,
   ⟨1, [.hevcMain44410], [.c444], 61, none⟩, ⟨2, [.avcHigh, .avcHigh10, .avcHigh422], [.c420, .c422], 61, none⟩]

/-- A stream that the decoders support: its profile, level, depth and chroma, and none of the items of R333. -/
def decodeSupported (codec : Nat) (x : DecodeReport) : Bool :=
  !x.unsupported && (x.depth == 8 || x.depth == 10)
    && codecTable.any (fun r => r.codec == codec && r.profiles.contains x.profile && r.chroma.contains x.chroma && decide (x.level ≤ r.decode))

/-- Whether a picture's depth and chroma fit a surface format (R334, R336; log entry 124). -/
def fitsFormat (f : Nat) (x : DecodeReport) : Bool :=
  match x.chroma with
  | .c400 => if x.depth = 8 then f == 0x20 else f != 0x20
  | .c420 => if x.depth = 8 then f == 0x20 else f == 0x21
  | .c422 => f == 0x22
  | .c444 => f == 0x23

/-- A picture that an engine decodes for a record: supported, no larger than the record gives, and of a fitting format. -/
def pictureOk (w : Nat) (x : DecodeReport) : Bool :=
  decodeSupported (field w 0 2) x && decide (x.width.toNat ≤ rField w 40 2) && decide (x.height.toNat ≤ rField w 42 2) && fitsFormat (rField w 37 1) x

/-! ### Decoding (R334 to R336) -/

/-- The stream of a decode record, emptied by its RESET flag (R335). -/
def decodeStream (s : State) (ctx w : Nat) : Stream :=
  if bitOf w 3 then { ctx := ctx, va := rField w 16 8 } else stream s ctx (rField w 16 8)

/-- The references of a picture: slots that hold pictures of its stream, of those that the codec needs (R336). -/
def refSlots (t : Stream) (refs : W32) : List Nat := (List.range 32).filter (fun k => refs.getLsbD k && t.slots.contains k)

/-- The lowest picture slot that is neither held, as HOLD read at release, nor a reference (R336). -/
def freeSlot (w hold : Nat) (refs : List Nat) : Option Nat := (List.range (field w 288 6)).find? (fun k => !bitOf hold k && !refs.contains k)

/-- Rows of a picture in slot `k` of a decode record's pool, luma then chroma (R334). -/
def slotRows (w k width height : Nat) : List (Nat × Nat) :=
  let va := rField w 24 8 + k * rField w 32 4
  surfRows (rField w 37 1) va (rField w 44 4) (va + rField w 44 4 * (ceilDiv (rField w 42 2) 16 * 16)) width height

/-- What a decoded picture is made from: its record, its bits, its stream before it and the pictures it refers to. -/
def decodeArgs (s : State) (c : Ctx) (w : Nat) (t : Stream) (refs : List Nat) (bits : List Byte) : List Nat :=
  [0, w, bytesKey bits] ++ t.history ++ refs.map (fun j =>
    let k := walkVa s c false 0 (rField w 24 8 + j * rField w 32 4) (rField w 32 4) false
    if k.stop.isNone then bytesKey (readPieces s k.pieces) else 0)

/-- A sample as a surface format holds it: 8 bits of NV12; else 16, with 8 bits left-aligned in [15:8] and 10 bits in [15:6] (R319, R334). -/
def sampleBytes (f depth v : Nat) : List Byte := if f = 0x20 then leBytes 1 v else leBytes 2 (if depth = 8 then 256 * v else 64 * v)

/-- Sample `n` of a decoded picture, of which the first `luma` are luma; a 4:0:0 picture has every chroma sample at mid-scale (R334). -/
def pictureSample (x : DecodeReport) (f luma : Nat) (args : List Nat) (n : Nat) : List Byte :=
  if x.chroma = .c400 ∧ luma ≤ n then (if f = 0x20 then leBytes 1 128 else leBytes 2 (64 * 512))
  else sampleBytes f x.depth ((Config.codecSample args n).toNat % 2 ^ x.depth)

/-- The bytes of a decoded picture. A sample lost to a syntax error is that of the nearest reference at the same place, or mid-grey without
one (R336). -/
def pictureBytes (x : DecodeReport) (f : Nat) (ref : Option (List Byte)) (args : List Nat) : List Byte :=
  let luma := x.width.toNat * x.height.toNat
  let b := mediaSample f
  (List.range (luma + chromaBytes f x.width.toNat / b * chromaRows f x.height.toNat)).flatMap (fun n =>
    if x.syntaxError && Config.codecLost args n then
      match ref with
      | some bs => (bs.drop (b * n)).take b
      | none => sampleBytes f x.depth (2 ^ (x.depth - 1))
    else pictureSample x f luma args n)

/-- The reference nearest to a picture (R336). -/
def nearestRef (x : DecodeReport) (refs : List Nat) : Option Nat := if refs.contains x.nearest.toNat then some x.nearest.toNat else refs.head?

/-- The picture next in display order leaves its stream: its slot, its display-order count since RESET from 0 on, and the stream after it
(R336; log entry 124). While none leaves, the count is the report's. -/
def nextOut (x : DecodeReport) (t : Stream) : Nat × Nat × Stream :=
  if t.waiting.contains x.nextSlot.toNat then
    (x.nextSlot.toNat, t.shown % 2 ^ 32, { t with waiting := t.waiting.filter (· != x.nextSlot.toNat), shown := t.shown + 1 })
  else (0xFF, x.order.toNat, t)

/-- RESULT of a decode: the slot decoded, the slot output and its count (R336). -/
def decodeResult (slot : Nat) (o : Nat × Nat × Stream) : Nat := slot + 256 * o.1 + 2 ^ 32 * o.2.1

/-- A stream after a picture was decoded into slot `k` from `bits` (R336). -/
def decodedInto (t : Stream) (k : Nat) (bits : List Byte) : Stream :=
  { t with
    count := t.count + 1, history := t.history ++ [bytesKey bits]
    slots := if t.slots.contains k then t.slots else t.slots ++ [k], waiting := t.waiting.filter (· != k) ++ [k] }

/-- The engine writes the picture of a decode record into slot `k`, keeps its stream, and ends the descriptor (R336). -/
def decodePicture (q i : Nat) (x : DecodeReport) (y : Queue) (c : Ctx) (d : Desc) (e w k : Nat) (refs : List Nat) (s : State) : State :=
  let old := decodeStream s y.ctx w
  let bits := walkVa s c false (userDesc q i) (rField w 8 8) (rField w 4 4) false
  let rows := fun j => slotRows w j x.width.toNat x.height.toNat
  match bits.stop, rowWalks s c (userDesc q i) true (rows k), rowWalks s c (userDesc q i) false ((nearestRef x refs).toList.flatMap rows) with
  | some t, _, _ => stopDesc q i y d.cur (rField w 8 8) 2 0 t 0 s
  | none, .error (a, t), _ => stopDesc q i y d.cur a 2 0 t 0 s
  | none, .ok _, .error (a, t) => stopDesc q i y d.cur a 2 0 t 0 s
  | none, .ok ps, .ok rs =>
    let bs := readPieces s bits.pieces
    let args := decodeArgs s c w old refs bs
    let img := pictureBytes x (rField w 37 1) ((nearestRef x refs).map (fun _ => readPieces s rs)) args
    let o := nextOut x (decodedInto old k bs)
    keepStream q i y c d (rField w 16 8) (2 ^ 18) args o.2.2 (fun s1 =>
      let s2 := countHub (bs.length + img.length) (countPicture e (writePieces s1 ps img))
      if x.syntaxError then finishDesc s2 q i 0x10 0x0D01 (decodeResult k o) true else done q i (decodeResult k o) s2) s

/-- MEDIA_DECODE (R333, R335, R336). -/
def execMediaDecode (q i : Nat) (x : DecodeReport) (s : State) : Result :=
  mediaRow 0x400 decodeBad (fun y c d e w s =>
    let old := decodeStream s y.ctx w
    match mediaRanges s y.ctx (decodeRanges w) with
    | some b => rangeFail q i y d.cur b s
    | none =>
      if bitOf w 2 then
        keepStream q i y c d (rField w 16 8) (2 ^ 18) (w :: old.history) (nextOut x old).2.2 (done q i (decodeResult 0xFF (nextOut x old))) s
      else if !pictureOk w x then failed q i 2 0x0D02 s
      else
        match freeSlot w (d.hold.getD (rField w 48 4)) (refSlots old x.refs) with
        | none => failed q i 1 0x0D03 s
        | some k => decodePicture q i x y c d e w k (refSlots old x.refs) s) q i s

/-! ### Encoding (R337, R338) -/

/-- The stream of an encode record, emptied by its RESET flag (R337). -/
def encodeStream (s : State) (ctx w : Nat) : Stream :=
  let st := stream s ctx (rField w 40 8)
  if bitOf w 3 then { ctx := ctx, va := rField w 40 8 } else st

/-- Whether a picture is a key frame: asked for, the first of its stream, or due (R337). -/
def encodeKey (s : State) (ctx w : Nat) : Bool :=
  bitOf w 2 || (encodeStream s ctx w).count == 0 || (rField w 60 4 != 0 && decide (rField w 60 4 ≤ (encodeStream s ctx w).sinceKey))

/-- Rows of an encode record's source surface, luma then chroma (R337). -/
def sourceRows (w : Nat) : List (Nat × Nat) := surfRows (rField w 28 1) (rField w 8 8) (rField w 24 4) (rField w 16 8) (rField w 32 2) (rField w 34 2)

/-- What an encoded picture is made from: its record, whether it is a key frame, its source and its stream before it. -/
def encodeArgs (s : State) (ctx w : Nat) (img : List Byte) : List Nat :=
  [1, w, b2n (encodeKey s ctx w), bytesKey img] ++ (encodeStream s ctx w).history

/-- The ranges of an encode record (R223, R337). -/
def encodeRanges (w : Nat) : List (Nat × Nat) :=
  [(rField w 8 8, rField w 24 4 * rField w 34 2), (rField w 16 8, rField w 24 4 * chromaRows (rField w 28 1) (rField w 34 2)),
    (rField w 40 8, 2 ^ 25), (rField w 48 8, rField w 56 4)]

/-- The profile, level limit and codec of an encode record (R332, R337): within that level, or unsupported. -/
def encodeSupported (w : Nat) : Bool :=
  let p : MediaProfile := if field w 0 2 = 0 then .av1Main else if rField w 28 1 = 0x22 then .hevcMain42210 else .hevcMain10
  codecTable.any (fun r => match r.encode with
    | some (m, l) => m == p && Config.withinLevel r.codec l (rField w 32 2) (rField w 34 2) (if bitOf w 8 then rField w 36 4 else 0)
        (if bitOf w 8 then rField w 4 4 else 0)
    | none => false)

/-- The units of an encoded picture (R338): HEVC parameter sets before a key picture; an AV1 temporal delimiter for each picture and a
sequence header before a key picture; then the picture, I for a key picture and else P with the stream's previous picture as its reference. -/
inductive MediaUnit where
  | vps | sps | pps | delimiter | sequence
  | picture (key : Bool)
  deriving DecidableEq, Repr

def encodeUnits (codec : Nat) (key : Bool) : List MediaUnit :=
  (if codec = 1 then (if key then [.vps, .sps, .pps] else []) else .delimiter :: (if key then [.sequence] else [])) ++ [.picture key]

def unitCode : MediaUnit → Nat
  | .vps => 3
  | .sps => 4
  | .pps => 5
  | .delimiter => 6
  | .sequence => 7
  | .picture true => 8
  | .picture false => 9

/-- The bytes of a unit: in Annex B a start code comes first (R338; log entry 15). -/
def unitBytes (codec : Nat) (args : List Nat) (u : MediaUnit) : List Byte :=
  let a := unitCode u :: args
  (if codec = 1 then (if Config.zeroByte a then [0, 0, 0, 1] else [0, 0, 1]) else []) ++ codecOut a (Config.codecSize a)

/-- The bitstream of a picture. -/
def encodeBytes (codec : Nat) (key : Bool) (args : List Nat) : List Byte := (encodeUnits codec key).flatMap (unitBytes codec args)

/-- MEDIA_ENCODE (R333, R337, R338). -/
def execMediaEncode (q i : Nat) (s : State) : Result :=
  mediaRow 0x401 encodeBad (fun y c d e w s =>
    let old := encodeStream s y.ctx w
    let key := encodeKey s y.ctx w
    match mediaRanges s y.ctx (encodeRanges w) with
    | some b => rangeFail q i y d.cur b s
    | none =>
      if !encodeSupported w then failed q i 2 0x0D02 s else
      match rowWalks s c (userDesc q i) false (sourceRows w) with
      | .error (a, t) => stopDesc q i y d.cur a 2 0 t 0 s
      | .ok ps =>
        let img := readPieces s ps
        let args := encodeArgs s y.ctx w img
        let bs := encodeBytes (field w 0 2) key args
        let n := bs.length
        if rField w 56 4 < n then failed q i 1 0x0D01 s
        else
          let o := walkVa s c false (userDesc q i) (rField w 48 8) n true
          match o.stop with
          | some t => stopDesc q i y d.cur (rField w 48 8) 2 0 t 0 s
          | none =>
            keepStream q i y c d (rField w 40 8) (2 ^ 25) args
              { old with count := old.count + 1, sinceKey := if key then 1 else old.sinceKey + 1, history := old.history ++ [w, b2n key, bytesKey img] }
              (fun s1 => done q i (n + 2 ^ 32 * b2n key) (countHub (img.length + n) (countPicture e (writePieces s1 o.pieces bs)))) s) q i s

end Sys2Proof.Machine
end

