-- ==== Sys2Proof/Machine/Caravan.lean ====
section
/-! DEFINITION. The caravan unit (chapter 11): sub-ports and keys, nodes, exports, received Qanat packets, transit, liveness and loss. -/

namespace Sys2Proof.Machine

/-! ### Losing a node (R263, R298) -/

/-- A launch that spans a lost node ends: class C under FE, CODE 2, and no breach (R32, R263, R398). -/
def peerLost (l : Nat) (s : State) : State :=
  match s.launch? l with
  | none => s
  | some x =>
    if x.phase = .ended then s
    else faultEvent (endLaunch l 0x0D 0x0901 s) 0 7 0 2 x.ctx (x.tag * 2 ^ 32 + 0x0D * 65536 + 0x0901)

/-- Launches that span a node. -/
def spanning (s : State) (id : Nat) : List Nat :=
  mkeys s.fe.launches (fun _ x => x.phase != .ended && (peerNodes s x.ctx (planAt s x) x.args).any (fun e => e.2 == some id))

/-- Jobs toward a node end; a COPY among them completes with PEER_LOST (log entry 22). -/
def dropJobs (id : Nat) (s : State) : State :=
  foldState (mkeys s.net.jobs (fun _ j => j.node == id)) (fun k a =>
    match job? a k with
    | some j => (match j.user with
      | .copy q i => settleStacks (settleFrames (finishDesc (landPrefix j (dropJob k a)) q i 0x0D 0x0901 (jobMoved j) true))
      | .entry _ _ _ => dropJob k a)
    | none => a) s

/-- What spanned a node that leaves ends. -/
def leaveNode (id : Nat) (s : State) : State := dropJobs id (foldState (spanning s id) peerLost s)

/-- An entry becomes LOST. -/
def loseNode (id : Nat) (s : State) : State :=
  match node? s id with
  | none => s
  | some n => leaveNode id (setNode s id { n with st := .lost, unacked := [], tries := 0, helloSent := false, helloGot := false })

/-- HELLO_TIMING fields (R313). -/
def netTiming (s : State) : Nat := rd s 0x090008
def netRetries (s : State) : Nat := max 1 (field (netTiming s) 4 4)
def netRto (s : State) : Nat := 64 * field (netTiming s) 8 12

/-- An entry whose two HELLOs have passed becomes UP, with both sequences at 0 (R296, R298). -/
def tryUp (id : Nat) (s : State) : State :=
  match node? s id with
  | none => s
  | some n =>
    if n.st == .down && n.helloSent && n.helloGot then
      setNode s id { n with st := .up, txPsn := 0, rxPsn := 0, unacked := [], tries := 0, nakAt := none }
    else s

/-- Send a HELLO to a node, with INIT while its entry is DOWN. -/
def sendHello (id : Nat) (s : State) : State :=
  match node? s id with
  | none => s
  | some n =>
    if n.st == .lost || !canSend s n.sub then s
    else tryUp id (setNode (qSend s id 5 (if n.st == .down then 4 else 0) 0 0 0 0 0 n.credits []) id { n with helloSent := true })

/-- HELLO_TIMER (R298). -/
def execHelloTimer (s : State) : Result := .next (if s.flt.safe then s else foldState (s.net.nodes.map (·.1)) sendHello s)

/-- PEER_TIMEOUT (R298): an UP entry whose node has been silent for TIMEOUT. -/
def execPeerTimeout (node : W32) (s : State) : Result :=
  match node? s node.toNat with
  | some n => .next (if n.st == .up && !s.flt.safe then loseNode node.toNat s else s)
  | none => .next s

/-- Resend every unacknowledged packet, or lose the node after RETRIES without progress (R297). -/
def retransmit (id : Nat) (s : State) : State :=
  match node? s id with
  | none => s
  | some n =>
    if n.st != .up || n.unacked.isEmpty then s
    else if netRetries s ≤ n.tries then loseNode id s
    else foldState n.unacked (fun p a => sendPkt a id p) (setNode s id { n with tries := n.tries + 1 })

/-- RETRANSMISSION_TIMEOUT (R297). -/
def execRetransmissionTimeout (node : W32) (s : State) : Result := .next (if s.flt.safe then s else retransmit node.toNat s)

/-! ### Jobs that end (R221, R297) -/

/-- The end of a COPY or FILL that a job moved: complete, or stopped at the host page that failed (R198, R199). -/
def endCopy (q i : Nat) (j : Job) (s : State) : State :=
  settleStacks (settleFrames (match j.stop, s.queue? q, s.desc? q i with
    | some (st, d, va), some x, some y => finishDesc (fillFault s x.ctx ⟨va, 0, st, d, 2, 255, dTag y.raw, j.len⟩) q i st d j.len true
    | _, _, _ => done q i j.len s))

/-- A COPY or FILL whose lines have all been acknowledged or delivered: written in place, sent on, or complete. -/
def settleJob (k : Nat) (s : State) : State :=
  match job? s k with
  | none => s
  | some j =>
    match j.user with
    | .entry _ _ _ => s
    | .copy q i =>
      if !jobDone j then s
      else if j.write then endCopy q i j (dropJob k s)
      else
        match j.onward with
        | some (n, e, o) =>
          if j.patch.isEmpty then peerWrite { j with mem := [], uses := [] } n e o (jobBytes j) (dropJob k s)
          else
            let bs := j.data.take j.skew ++ j.patch ++ j.data.drop (j.skew + j.len)
            (startJob (dropJob k s) { j with write := true, todo := cutPieces (bs.length / 8192 + 1) o 0 bs.length, data := bs, onward := none, patch := [] }).1
        | none => if piecesRun s j.mem then endCopy q i j (landPrefix j (dropJob k s)) else s

def settleJobs (id : Nat) (s : State) : State := foldState (mkeys s.net.jobs (fun _ j => j.node == id)) settleJob s

/-- The caravan address of the export offset `off`, in the peer window of the device address `va` (R189). -/
def windowVa (va off : Nat) : Nat := va - (va - caravanBase) % 2 ^ 39 + off

/-- A peer's refusal of a packet (R199, R312): its entry or descriptor ends with UNMAPPED_LOCAL, the record taking the address of the
first line that was not acknowledged and the bytes moved before it. -/
def refuseJob (k detail off : Nat) (s : State) : State :=
  match job? s k with
  | none => s
  | some j =>
    let s1 := dropJob k s
    match j.user with
    | .entry r l n =>
      let va := match s.launch? l with
        | some x => (match (stepTable s x).xfers[n]? with
          | some e => rowVa x e 0
          | none => caravanBase)
        | none => caravanBase
      let s2 := match s.launch? l with
        | some x => (match (stepTable s x).xfers[n]? with
          | some e => if j.write then s1 else putRows s1 (32 * r + e.core) e.ts e.tsStride e.rowBytes e.rows 0 (j.data.take (jobMoved j))
          | none => s1)
        | none => s1
      launchFault s2 l r (windowVa va off) 3 detail 0 n (jobMoved j)
    | .copy q i =>
      match s1.queue? q, s1.desc? q i with
      | some x, some d =>
        let va := if (j.write || !j.patch.isEmpty) && dOpcode d.cur = 0x200 then dField d.cur 48 8 else dField d.cur 40 8
        settleStacks (settleFrames (finishDesc
          (fillFault (landPrefix j s1) x.ctx ⟨max va (windowVa va off), 0, 3, detail, 2, 255, dTag d.raw, jobMoved j⟩) q i 3 detail (jobMoved j) true))
      | _, _ => s1

/-! ### Received packets (R293, R295 to R301, R306, R312) -/

def pkField (k : QPacket) (byte len : Nat) : Nat := field k.hdr.toNat (8 * byte) (8 * len)
def pkType (k : QPacket) : Nat := field k.hdr.toNat 4 4
def pkFlags (k : QPacket) : Nat := pkField k 1 1
def pkHops (k : QPacket) : Nat := pkField k 2 1
def pkCounter (k : QPacket) : Nat := field (pkField k 3 1) 0 4
def pkSrc (k : QPacket) : Nat := pkField k 4 4
def pkDst (k : QPacket) : Nat := pkField k 8 4
def pkPsn (k : QPacket) : Nat := pkField k 12 4
def pkExport (k : QPacket) : Nat := pkField k 16 4
def pkLines (k : QPacket) : Nat := pkField k 20 2
def pkCode (k : QPacket) : Nat := pkField k 22 2
def pkOff (k : QPacket) : Nat := pkField k 24 8

/-- VERSION, reserved types and fields, LINES and OFFSET as R295 gives them. -/
def pkOk (k : QPacket) : Bool :=
  let t := pkType k
  let bytes := k.payload.length
  field k.hdr.toNat 0 4 == 1 && decide (t ≤ 6) && field (pkFlags k) 3 5 == 0 && field (pkField k 3 1) 4 4 == 0 && decide (pkLines k ≤ 128)
    && (if t = 0 || t = 2 then bytes == 64 * pkLines k else bytes == 0)
    && (if t ≤ 2 then pkOff k % 64 == 0 && decide (pkOff k < 2 ^ 39) else if t = 5 then decide (pkOff k < 2 ^ 20) else pkOff k == 0)
    && (t != 1 || decide (1 ≤ pkLines k)) && (t == 4 || pkCode k == 0) && (decide (t ≤ 2) || pkExport k == 0)

/-- A sub-port takes frames while it is enabled and its link is up. -/
def canReceive (s : State) (q : Nat) : Bool := subEnabled s q && (sub s q).linkUp && !s.flt.safe && bar0Up s

/-- Discarded under R308 or R312. -/
def countDrop (q : Nat) (s : State) : State := let x := sub s q; setSub s q { x with dropped := satInc32 x.dropped }
/-- A refused frame (KIND 0x0D), discarded or answered with a NAK code. -/
def frameViol (q src code : Nat) (s : State) : State := logViol s 0x0D 0xFF (if code = 0 then 0 else 2) src (q * 2 ^ 24 + code)
def dropFrame (q : Nat) (k : QPacket) (s : State) : State := frameViol q (pkSrc k) 0 (countDrop q s)

/-- ACK or NAK a node with the next PSN expected of it. -/
def ackNode (id : Nat) (s : State) : State :=
  match node? s id with
  | none => s
  | some n => qSend s id 3 0 0 n.rxPsn 0 0 0 0 []
def nakNode (id code : Nat) (s : State) : State :=
  match node? s id with
  | none => s
  | some n => qSend s id 4 0 0 n.rxPsn 0 0 code 0 []

def exportEnt (s : State) (i : Nat) : Export := mget s.net.exports {} i
def setExport (s : State) (i : Nat) (e : Export) : State := { s with net := { s.net with exports := mset s.net.exports {} i e } }

/-- The check of R300: a NAK code, or the pieces of the range. `src` is none for RoCEv2. -/
def inboundCheck (s : State) (src : Option Nat) (id off len : Nat) (write : Bool) : Except Nat (List (Nat × Nat)) :=
  let e := exportEnt s (id % 65536)
  if !e.live || e.gen ≠ id / 65536 then .error 3
  else
    let allowed := match src with
      | none => e.roce
      | some n => e.anyNode || e.allow == n
    if !allowed || !(if write then e.writable else e.readable) || e.len < off + len then .error 4
    else
      match s.ctx? e.ctx with
      | none => .error 3
      | some c =>
        let k := walkVa s c false 0 (e.va + off) len write
        match k.stop with
        | some _ => .error 4
        | none => .ok k.pieces

/-- Add LINES to an arrival counter (R301). -/
def countArrival (i c lines : Nat) (s : State) : State :=
  let e := exportEnt s i
  setExport s i { e with counters := mset e.counters 0 c (min (2 ^ 64 - 1) (mget e.counters 0 c + lines)) }

/-- The packet's PSN is consumed. -/
def takePsn (id : Nat) (s : State) : State :=
  match node? s id with
  | none => s
  | some n => setNode s id { n with rxPsn := (n.rxPsn + 1) % 2 ^ 32 }

/-- A packet in order: written or read, counted and acknowledged, or refused with a NAK (R300, R301). While its memory does not run it
is not taken, and its sender sends it again (R345; log entry 43). Whether a READ_RESP is the last of its transfer its sender cannot know
from the request: LAST there is a free bit (log entry 119). -/
def applyPacket (q : Nat) (k : QPacket) (s : State) : State :=
  let id := pkSrc k
  let len := 64 * pkLines k
  let write := pkType k == 0
  let s1 := takePsn id s
  match inboundCheck s (some id) (pkExport k) (pkOff k) len write with
  | .error code => nakNode id code (countDrop q (frameViol q id code s1))
  | .ok ps =>
    if !piecesRun s ps then s
    else if write then
      let s2 := countHub len (hubWrite s1 ps k.payload)
      ackNode id (if bitOf (pkFlags k) 0 then countArrival (pkExport k % 65536) (pkCounter k) (pkLines k) s2 else s2)
    else
      let s2 := tickHub ps { s1 with free := s1.free + 1 }
      ackNode id (countHub len (qSend s2 id 2 (2 * field s1.freeVal.toNat 0 1) 0 (pkPsn k) (pkExport k) (pkLines k) 0 (pkOff k) (hubRead { s1 with free := s1.free + 1 } ps)))

/-- DATA and READ_REQ: the window, then the order, then the export (R297, R312). -/
def inSequence (q : Nat) (k : QPacket) (s : State) : State :=
  let id := pkSrc k
  match node? s id with
  | none => s
  | some n =>
    let ahead := diff32 (pkPsn k) n.rxPsn
    if n.credits < pkLines k then nakNode id 1 (countDrop q (frameViol q id 1 s))
    else if 0 < ahead then
      if (match n.nakAt with
        | some t => decide (s.now < t + netRto s)
        | none => false) then countDrop q (frameViol q id 0 s)
      else nakNode id 2 (setNode (countDrop q (frameViol q id 2 s)) id { n with nakAt := some s.now })
    else if ahead < 0 then ackNode id s
    else applyPacket q k s

/-- Packets before a PSN are acknowledged: their lines return to the window (R297). -/
def acked (id psn : Nat) (s : State) : State :=
  match node? s id with
  | none => s
  | some n =>
    let (out, keep) := n.unacked.partition (fun p => decide (diff32 p.psn psn < 0))
    let s1 := setNode s id { n with unacked := keep, tries := if out.isEmpty then n.tries else 0 }
    foldState out (fun p a => match job? a p.job with
      | some j => if j.write then setJob a p.job { j with left := j.left - p.lines } else a
      | none => a) s1

def ackReceived (id psn : Nat) (s : State) : State := settleJobs id (pumpAll id (acked id psn s))

/-- NAK NO_EXPORT or ACCESS: the packet before the PSN was refused, and those before it stand. -/
def refusedBy (id psn detail : Nat) (s : State) : State :=
  match node? s id with
  | none => s
  | some n =>
    match n.unacked.find? (fun p => (p.psn + 1) % 2 ^ 32 == psn) with
    | none => ackReceived id psn s
    | some p => ackReceived id psn (refuseJob p.job detail p.off (acked id p.psn s))

/-- READ_RESP: the payload takes its place in the job (R296). -/
def readBack (id : Nat) (k : QPacket) (s : State) : State :=
  match s.net.jobs.find? (fun e => e.2.node == id && e.2.reads.any (fun r => r.1 == pkPsn k)) with
  | none => s
  | some (key, j) =>
    match j.reads.find? (fun r => r.1 == pkPsn k) with
    | none => s
    | some (psn, pos, len) =>
      let data := j.data.take pos ++ k.payload.take len ++ j.data.drop (pos + len)
      settleJob key (setJob s key { j with data := data, reads := j.reads.filter (fun r => r.1 != psn), left := j.left - ceilDiv len 64 })

/-- The source addresses of a packet are those of a node's entry: an IPv4 address stands in the last 4 bytes (R293, R311). -/
def fromEntry (n : Node) (k : QPacket) : Bool :=
  let ip := leBytes 16 k.srcIp.toNat
  (if n.ipv6 then ip == n.ip else ip.drop 12 == n.ip.drop 12) && leBytes 6 k.srcMac.toNat == n.mac

/-- HELLO (R293, R298). -/
def helloFrom (q : Nat) (k : QPacket) (s : State) : State :=
  let id := pkSrc k
  match node? s id with
  | none => dropFrame q k s
  | some n =>
    if !fromEntry n k then frameViol q id 0 s
    else if n.st == .lost then s
    else
      let s1 := setNode s id { n with window := pkOff k, heard := s.now, helloGot := true }
      if n.st == .up && bitOf (pkFlags k) 2 then loseNode id s1 else pumpAll id (tryUp id s1)

/-- A packet of an UP node, by type. -/
def fromNode (q : Nat) (k : QPacket) (s : State) : State :=
  let id := pkSrc k
  match pkType k with
  | 0 | 1 => inSequence q k s
  | 2 => readBack id k s
  | 3 => ackReceived id (pkPsn k) s
  | 4 =>
    (match pkCode k with
    | 1 => retransmit id (logViol (acked id (pkPsn k) s) 0x0E 0xFF 5 id q)
    | 2 => retransmit id (acked id (pkPsn k) s)
    | 3 => refusedBy id (pkPsn k) 0x0B01 s
    | 4 => refusedBy id (pkPsn k) 0x0B02 s
    | _ => dropFrame q k s)
  | _ => loseNode id s

/-- A packet for this module. -/
def arrives (q : Nat) (k : QPacket) (s : State) : State :=
  if pkType k = 5 then helloFrom q k s
  else
    match node? s (pkSrc k) with
    | none => dropFrame q k s
    | some n => if n.st != .up then dropFrame q k s else fromNode q k (setNode s (pkSrc k) { n with heard := s.now })

/-- Bytes of the transit buffer of a DIRECT sub-port (R307). -/
def transitBytes : Nat := 4 * 2 ^ 20

/-- What waits in the transit buffer of a sub-port leaves, in order, by the sub-ports that can send. -/
def drainTransit (q : Nat) (s : State) : State :=
  let x := sub s q
  foldState x.transit (fun e a =>
    if canSend a e.1 then netSend (setSub a q { sub a q with transit := (sub a q).transit.erase e }) e.1 e.2 else a) s

def drainAll (s : State) : State := foldState (List.range 4) drainTransit s

/-- A transit packet enters the buffer of the sub-port that received it, or finds it full and is discarded (R307; log entry 96). -/
def bufferTransit (q : Nat) (e : Nat × OutMsg) (s : State) : State :=
  let x := sub s q
  if transitBytes < (x.transit.map (fun y => y.2.bytes.length)).sum + e.2.bytes.length then s
  else drainTransit q (setSub s q { x with transit := x.transit ++ [e] })

/-- Transit on a DIRECT sub-port (R306, R307). -/
def transit (q : Nat) (k : QPacket) (s : State) : State :=
  match node? s (pkDst k) with
  | none => frameViol q (pkSrc k) 0 s
  | some n =>
    if pkHops k ≤ 1 then frameViol q (pkSrc k) 0 s
    else
      let hdr := k.hdr.toNat - 65536
      bufferTransit q (n.sub, { kind := .qanat, a := pkDst k, b := n.sub, bytes := leBytes 32 hdr ++ k.payload }) s

/-- Under MACsec a frame needs a receive SA (R308). -/
def saOk (s : State) (q : Nat) : Bool := !macsecOn s q || !(sub s q).rxAn.isEmpty

/-- FE cycles of 1 ms. -/
def feMs : Nat := 1600000

/-- A frame that fails FEC or MACsec is discarded and counted; beyond 1,024 within 1 ms the sub-port is retrained (R308, R312). -/
def badFrame (q : Nat) (s : State) : State :=
  let s1 := countDrop q s
  let x := sub s1 q
  let recent := x.bad.filter (fun t => decide (s.now < t + feMs)) ++ [s.now]
  if 1024 < recent.length then logViol (setSub s1 q { linkDown x with bad := [] }) 0x0F 0xFF 3 q recent.length
  else setSub s1 q { x with bad := recent }

/-- Any received Qanat packet (R292, R293, R306, R312). -/
def receive (q : Nat) (k : QPacket) (s : State) : State :=
  if !canReceive s q then s
  else if !saOk s q then badFrame q s
  else if !pkOk k then dropFrame q k s
  else if pkSrc k = myNode s then frameViol q (pkSrc k) 0 s
  else if pkDst k = myNode s then arrives q k s
  else if subSwitched s q then dropFrame q k s
  else transit q k s

/-- A received packet of one type. -/
def receiveAs (t q : Nat) (k : QPacket) (s : State) : Result := .next (if pkType k = t then receive q k s else s)

/-- QANAT_DATA (R296, R300, R301). -/
def execQanatData (p : Fin 4) (pk : QPacket) (s : State) : Result := receiveAs 0 p pk s
/-- QANAT_READ_REQ (R296, R300). -/
def execQanatReadReq (p : Fin 4) (pk : QPacket) (s : State) : Result := receiveAs 1 p pk s
/-- QANAT_READ_RESP (R296). -/
def execQanatReadResp (p : Fin 4) (pk : QPacket) (s : State) : Result := receiveAs 2 p pk s
/-- QANAT_ACK (R297). -/
def execQanatAck (p : Fin 4) (pk : QPacket) (s : State) : Result := receiveAs 3 p pk s
/-- QANAT_NAK (R312). -/
def execQanatNak (p : Fin 4) (pk : QPacket) (s : State) : Result := receiveAs 4 p pk s
/-- QANAT_HELLO (R298). -/
def execQanatHello (p : Fin 4) (pk : QPacket) (s : State) : Result := receiveAs 5 p pk s
/-- QANAT_BYE (R298). -/
def execQanatBye (p : Fin 4) (pk : QPacket) (s : State) : Result := receiveAs 6 p pk s
/-- QANAT_TRANSIT (R306): a packet for another node. -/
def execQanatTransit (p : Fin 4) (pk : QPacket) (s : State) : Result :=
  .next (if pkDst pk = myNode s then s else receive p pk s)

/-! ### Sub-ports and keys (R291, R298, R308, R313) -/

def subBase (q : Nat) : Nat := 0x090100 + 0x100 * q
def sendBye (id : Nat) (s : State) : State := qSend s id 6 0 0 0 0 0 0 0 []

/-- Entries of a sub-port that are kept alive, and so are told of its end (R298). -/
def keptOn (s : State) (q : Nat) : List Nat := mkeys s.net.nodes (fun _ n => n.sub == q && n.st != .lost)

/-- A write of NET_CTRL_q: BREAKOUT changes only while both sub-ports of the port are disabled, a change of ENABLE to 0 sends BYE,
and without PFC_EN no priority is paused. -/
def writeNetCtrl (q v : Nat) (s : State) : State :=
  let old := netCtrl s q
  let w := field v 0 9
  let free := q % 2 = 0 && !subEnabled s q && !subEnabled s (q + 1)
  let w1 := if q % 2 = 1 then setField w 2 1 0 else if free then w else setField w 2 1 (field old 2 1)
  if bitOf old 0 && !bitOf w1 0 then
    let s1 := foldState (keptOn s q) sendBye s
    wr (setSub s1 q (linkDown (sub s1 q))) (subBase q) w1
  else if bitOf w1 5 then wr s (subBase q) w1
  else unpause q (wr s (subBase q) w1)

/-- SUBPORT_ENABLE: a write of NET_CTRL_q with ENABLE set. -/
def execSubportEnable (p : Fin 4) (v : W32) (s : State) : Result :=
  regWrite (subBase p) (fun t => drainAll (writeNetCtrl p (setField v.toNat 0 1 1) t)) s
/-- SUBPORT_DISABLE: a write of NET_CTRL_q with ENABLE clear. -/
def execSubportDisable (p : Fin 4) (v : W32) (s : State) : Result :=
  regWrite (subBase p) (writeNetCtrl p (setField v.toNat 0 1 0)) s

/-- A sub-port exists: 1 and 3 only in breakout (R291). -/
def subExists (s : State) (q : Nat) : Bool := q % 2 == 0 || breakout s q

/-- SUBPORT_LINK_UP: an enabled sub-port of a ready port trains its link (R313, R351, R363). -/
def execSubportLinkUp (p : Fin 4) (s : State) : Result :=
  if subEnabled s p && subExists s p && isReady s (36 + p / 2) && bitOf s.clk.locks (9 + p / 2) && s.clk.xtalOk && !s.oas.latched && bar0Up s && !s.flt.safe then
    .next (drainAll (setSub s p { sub s p with linkUp := true, bad := [] }))
  else .next s

/-- SUBPORT_LINK_DOWN. -/
def execSubportLinkDown (p : Fin 4) (s : State) : Result := .next (setSub s p (linkDown (sub s p)))

/-- A write of NET_SAK_CMD_q: INSTALL takes the key registers and clears them. -/
def writeSakCmd (q v : Nat) (s : State) : State :=
  let s1 := wr s (subBase q + 0x50) (field v 0 4)
  if !bitOf v 4 then s1
  else
    let an := field v 0 2
    let key := (keyRegs q).map (fun o => BitVec.ofNat 32 (rd s o))
    let x := sub s1 q
    let tx := bitOf v 2
    let rx := bitOf v 3
    let k1 := if tx then mins x.keys an key else x.keys
    let y : Sub := { x with
      keys := if rx then mins k1 (16 + an) key else k1
      txAn := if tx then some an else x.txAn
      rxAn := if rx && !x.rxAn.contains an then x.rxAn ++ [an] else x.rxAn
      pn := if tx then 0 else x.pn
      pnLow := if tx then false else x.pnLow }
    foldState (keyRegs q) (fun o a => wr a o 0) (setSub s1 q y)

/-- SAK_INSTALL (R308). -/
def execSakInstall (p : Fin 4) (v : W32) (s : State) : Result :=
  regWrite (subBase p + 0x50) (fun t => drainAll (writeSakCmd p v.toNat t)) s

/-- INVALID_FRAME_RECEIVED (R308, R312). -/
def execInvalidFrameReceived (p : Fin 4) (why : BadFrame) (s : State) : Result :=
  if !canReceive s p then .next s
  else
    match why with
    | .fec => .next (badFrame p s)
    | .macsec => .next (if macsecOn s p then badFrame p s else s)
    | .header src => .next (if saOk s p then frameViol p src.toNat 0 (countDrop p s) else badFrame p s)

/-- PFC_FRAME_RECEIVED (R291, R309): with PFC_EN a pause of PFC_PRI holds the RoCEv2 traffic until it ends. -/
def execPfcFrameReceived (p : Fin 4) (x : PfcFrame) (s : State) : Result :=
  if canReceive s p && bitOf (netCtrl s p) 5 && field (netCtrl s p) 6 3 == x.pri.val then
    .next (if x.pause then setSub s p { sub s p with paused := true } else drainAll (unpause p s))
  else .next s

/-- CNP_RECEIVED (R309): the device performs no rate control and ignores it; without a receive SA it is a frame that fails (R308). -/
def execCnpReceived (p : Fin 4) (s : State) : Result := if canReceive s p && !saOk s p then .next (badFrame p s) else .next s

/-! ### Caravan records (R294, R299, R301, R311) -/

/-- Size and defined fields of a record of a kind, as (first bit, width); none for an undefined kind. -/
def recordForm (kind : Nat) : Option (Nat × List (Nat × Nat)) :=
  match kind with
  | 1 => some (64, [(0, 11), (16, 8), (24, 3), (32, 32), (64, 32), (96, 20), (128, 128), (256, 48), (304, 12)])
  | 2 => some (16, [(0, 8), (32, 32)])
  | 3 => some (16, [(0, 9), (16, 2), (32, 32)])
  | 4 => some (32, [(0, 12), (32, 32), (64, 64), (128, 39)])
  | 5 => some (16, [(0, 8), (32, 32)])
  | 6 => some (64, [(0, 11), (16, 2), (24, 5), (32, 6), (40, 3), (64, 24), (96, 24), (128, 24), (160, 128), (288, 48), (336, 12)])
  | 7 => some (16, [(0, 8), (32, 32)])
  | _ => none

/-- A record is valid: its kind, size, reserved fields and ranges, and a node kind only from the physical function. -/
def caravanOk (x : Queue) (len w : Nat) : Bool :=
  let kind := field w 0 8
  match recordForm kind with
  | none => false
  | some (n, fs) =>
    len == n && clearFields (w % 2 ^ (8 * n)) fs == 0 && (decide (4 ≤ kind) || x.fn == 0)
      && (kind != 1 || (field w 16 8 != 0 && decide (32 ≤ field w 96 20) && field w 32 32 != 0 && field w 32 32 != 0xFFFFFFFF))
      && (kind != 6 || field w 16 2 != 3)

/-- A record of at most 64 bytes that a network descriptor names. -/
def netRecord (s : State) (x : Queue) (q i : Nat) (d : W512) : Except Tr Nat :=
  match s.ctx? x.ctx with
  | none => .error (.bad 3 0x0701)
  | some c =>
    let k := walkVa s c (dTranslated d) (userDesc q i) (dField d 40 8) (min (dField d 48 4) 64) false
    match k.stop with
    | none => .ok (ofLe (readPieces s k.pieces))
    | some t => .error t

/-- A CARAVAN_OP descriptor: an invalid record is refused whichever row serves it, and a valid one is served by its own kind's row. -/
def caravanRow (kind : Nat) (eff : Queue → Desc → Nat → State → State) (q i : Nat) (s : State) : Result :=
  descRow 0x500 (fun x d w s =>
    match netRecord s x q i w with
    | .error t => stopDesc q i x w (dField w 40 8) 2 0 t 0 s
    | .ok r =>
      if !caravanOk x (dField w 48 4) r then failed q i 2 0x0B01 s
      else if field r 0 8 = kind then eff x d r s
      else s) q i s

/-- Credits granted on a sub-port, but for one node. -/
def creditsOn (s : State) (q id : Nat) : Nat := ((s.net.nodes.filter (fun e => e.2.sub == q && e.1 != id)).map (·.2.credits)).sum

/-- NODE_SET. An entry that was UP leaves as a lost one does (log entry 22). -/
def execNodeSet (q i : Nat) (s : State) : Result :=
  caravanRow 1 (fun _ _ w s =>
    let id := field w 32 32
    let sp := field w 8 2
    if 262144 < creditsOn s sp id + field w 96 20 || ((node? s id).isNone && decide (65536 ≤ s.net.nodes.length)) then failed q i 1 0x0B01 s
    else
      let n : Node := {
        sub := sp, ipv6 := bitOf w 10, hops := field w 16 8, pcp := field w 24 3, switchNs := field w 64 32, credits := field w 96 20
        ip := leBytes 16 (field w 128 128), mac := leBytes 6 (field w 256 48), vlan := field w 304 12 }
      let s1 := match node? s id with
        | some o => if o.st == .up then leaveNode id s else s
        | none => s
      done q i 0 (setNode s1 id n)) q i s

/-- NODE_CLEAR: BYE, and the entry is removed. -/
def execNodeClear (q i : Nat) (s : State) : Result :=
  caravanRow 2 (fun _ _ w s =>
    let id := field w 32 32
    match node? s id with
    | none => failed q i 1 0x0802 s
    | some n =>
      let s0 := if n.st == .lost then s else sendBye id s
      let s1 := if n.st == .up then leaveNode id s0 else s0
      done q i 0 { s1 with net := { s1.net with nodes := mdel s1.net.nodes id } }) q i s

def nodeCode (n : Node) : Nat :=
  match n.st with
  | .down => 0
  | .up => 1
  | .lost => 2

/-- NODE_QUERY: with WAIT, once the state differs from SEEN. -/
def execNodeQuery (q i : Nat) (s : State) : Result :=
  caravanRow 3 (fun _ _ w s =>
    match node? s (field w 32 32) with
    | none => failed q i 1 0x0802 s
    | some n => if bitOf w 8 && nodeCode n == field w 16 2 then s else done q i (nodeCode n + 2 ^ 32 * n.window) s) q i s

/-- The lowest free export index from `k` on. -/
def freeExport (s : State) : (fuel k : Nat) → Option Nat
  | 0, _ => none
  | n + 1, k => if (exportEnt s k).live then freeExport s n (k + 1) else some k

/-- EXPORT (R299). -/
def execExportRange (q i : Nat) (s : State) : Result :=
  caravanRow 4 (fun x _ w s =>
    let va := field w 64 64
    let len := field w 128 39
    if va % 64 ≠ 0 || len % 64 ≠ 0 || !inObject s x.ctx va len then failed q i 1 0x0B03 s
    else
      match freeExport s 65535 1 with
      | none => failed q i 1 0x0B01 s
      | some k =>
        let gen := ((exportEnt s k).gen + 1) % 65536
        let e : Export := { live := true, gen := gen, ctx := x.ctx, va := va, len := len, writable := bitOf w 8, readable := bitOf w 9
                            anyNode := bitOf w 10, roce := bitOf w 11, allow := field w 32 32 }
        done q i (k + 65536 * gen) (setExport s k e)) q i s

/-- UNEXPORT (R301). -/
def execUnexportRange (q i : Nat) (s : State) : Result :=
  caravanRow 5 (fun x _ w s =>
    let k := field w 32 16
    let e := exportEnt s k
    if !e.live || e.gen ≠ field w 48 16 || e.ctx ≠ x.ctx then failed q i 1 0x0802 s
    else done q i 0 (setExport s k { gen := e.gen })) q i s

/-! ### RoCEv2 (R309 to R311) -/

def qp? (s : State) (n : Nat) : Option Qp := mfind s.net.qps n
def setQp (s : State) (n : Nat) (x : Qp) : State := { s with net := { s.net with qps := mins s.net.qps n x } }
def qpField (x : Qp) (byte len : Nat) : Nat := field (ofLe x.raw) (8 * byte) (8 * len)
def qpSub (x : Qp) : Nat := field (ofLe x.raw) 8 2
def qpMtu (x : Qp) : Nat := 1024 * 2 ^ (field (ofLe x.raw) 16 2)
def qpRetry (x : Qp) : Nat := field (ofLe x.raw) 32 3
def qpRnr (x : Qp) : Nat := field (ofLe x.raw) 35 3

/-- A QP goes to ERROR: every outstanding post completes with ABORTED, DETAIL 0x0B01 (R310). -/
def failQp (n : Nat) (s : State) : State :=
  match qp? s n with
  | none => s
  | some x =>
    let s1 := setQp s n { x with error := true, sends := [], recvs := [] }
    settleFrames (foldState (x.sends ++ x.recvs) (fun p a => finishDesc a p.q p.i 5 0x0B01 0 true) s1)

/-- QP_CREATE: the lowest free QPN. -/
def execQpCreate (q i : Nat) (s : State) : Result :=
  caravanRow 6 (fun x _ w s =>
    if 4096 ≤ s.net.qps.length then failed q i 1 0x0B01 s
    else
      match mfresh s.net.qps 4096 0x100 with
      | none => failed q i 1 0x0B01 s
      | some n => done q i n (setQp s n { ctx := x.ctx, raw := leBytes 64 w })) q i s

/-- QP_DESTROY: flushed as R310 gives, then removed. -/
def execQpDestroy (q i : Nat) (s : State) : Result :=
  caravanRow 7 (fun x _ w s =>
    let n := field w 32 32
    match qp? s n with
    | none => failed q i 1 0x0802 s
    | some y =>
      if y.ctx ≠ x.ctx then failed q i 1 0x0802 s
      else
        let s1 := failQp n s
        done q i 0 { s1 with net := { s1.net with qps := mdel s1.net.qps n } }) q i s

/-- Frames of a message under a QP's path MTU. -/
def frames (x : Qp) (len : Nat) : Nat := max 1 (ceilDiv len (qpMtu x))

/-- Send a RoCEv2 message of a QP: `b` is its kind, 0 SEND, 1 WRITE, 2 READ request, 3 acknowledgement, 4 NAK, 5 RNR NAK, 6 READ
response. -/
def roceSend (s : State) (n : Nat) (x : Qp) (kind va key len : Nat) (bs : List Byte) : State :=
  roceOut s (qpSub x) (frames x (if kind = 2 then 0 else bs.length))
    { kind := .roce, a := n, b := kind, bytes := leBytes 3 (qpField x 8 3) ++ leBytes 8 va ++ leBytes 4 key ++ leBytes 4 len ++ bs }

/-- Bytes of a local range of a context, for a message. -/
def localBytes (s : State) (ctx user va len : Nat) (write : Bool) : Walk :=
  match s.ctx? ctx with
  | none => { stop := some (.bad 3 0x0701) }
  | some c => walkVa s c false user va len write

/-- (Re)send a post: a SEND or WRITE with its bytes, once their memory runs. -/
def sendPost (n : Nat) (p : Post) (s : State) : State :=
  match qp? s n with
  | none => s
  | some x =>
    if p.op = 2 then roceSend s n x 2 p.remote p.rkey p.len []
    else if piecesRun s p.mem then countHub p.len (roceSend (tickHub p.mem s) n x p.op p.remote p.rkey p.len (hubRead s p.mem))
    else s

/-- Released ROCE_POST descriptors not yet posted, of one QP, with their release stamps. -/
def unposted (s : State) (n : Nat) (recv : Bool) : List (Nat × Nat × Nat) :=
  s.fe.queues.flatMap (fun e => if e.1 = adminQid then [] else
    (e.2.descs.filter (fun d => d.2.phase == .released && dOpcode d.2.cur == 0x501 && (match netRecord s e.2 e.1 d.1 d.2.cur with
        | .ok w => field w 0 32 == n && (field w 32 8 == 3) == recv
            && !(match qp? s n with
              | some x => (x.sends ++ x.recvs).any (fun p => p.q == e.1 && p.i == d.1)
              | none => true)
        | .error _ => false))).map (fun d => (d.2.stamp, e.1, d.1)))

def postBefore (a b : Nat × Nat × Nat) : Bool :=
  decide (a.1 < b.1) || (a.1 == b.1 && (decide (a.2.1 < b.2.1) || (a.2.1 == b.2.1 && decide (a.2.2 < b.2.2))))

/-- A ROCE_POST descriptor of one operation: posted in release order once its local range translates. -/
def roceRow (op : Nat) (q i : Nat) (s : State) : Result :=
  descRow 0x501 (fun x d w s =>
    match netRecord s x q i w with
    | .error t => stopDesc q i x w (dField w 40 8) 2 0 t 0 s
    | .ok r =>
      let n := field r 0 32
      let len := field r 64 32
      let va := field r 128 64
      if dField w 48 4 ≠ 32 || field r 40 24 ≠ 0 || decide (4 ≤ field r 32 8) || decide (2 ^ 31 < len) then failed q i 2 0x0B01 s
      else if field r 32 8 ≠ op then s
      else
        match qp? s n with
        | none => failed q i 1 0x0802 s
        | some y =>
          if y.ctx ≠ x.ctx then failed q i 1 0x0802 s
          else if y.error then failed q i 5 0x0B01 s
          else if (y.sends ++ y.recvs).any (fun p => p.q == q && p.i == i) then s
          else if (unposted s n (op == 3)).any (fun p => postBefore p (d.stamp, q, i)) then s
          else
            match rangeCheck s x.ctx va len with
            | some e => rangeFail q i x w (va, e.1, e.2) s
            | none =>
              let k := localBytes s x.ctx (userDesc q i) va len (op == 2 || op == 3)
              match k.stop with
              | some t => stopDesc q i x w (va + k.moved) 2 k.moved t 0 s
              | none =>
                let p : Post := ⟨q, i, op, len, va, field r 192 64, field r 96 32, k.pieces⟩
                if op = 3 then setQp s n { y with recvs := y.recvs ++ [p] }
                else if op = 2 && decide (16 ≤ (y.sends.filter (fun o => o.op == 2)).length) then s
                else sendPost n p (setQp s n { y with sends := y.sends ++ [p] })) q i s

/-- ROCE_SEND. -/
def execRoceSend (q i : Nat) (s : State) : Result := roceRow 0 q i s
/-- ROCE_WRITE. -/
def execRoceWrite (q i : Nat) (s : State) : Result := roceRow 1 q i s
/-- ROCE_READ. -/
def execRoceRead (q i : Nat) (s : State) : Result := roceRow 2 q i s
/-- ROCE_RECV. -/
def execRoceRecv (q i : Nat) (s : State) : Result := roceRow 3 q i s

/-- The oldest post of a QP completes. -/
def postDone (n : Nat) (x : Qp) (p : Post) (s : State) : State :=
  settleFrames (done p.q p.i p.len (setQp s n { x with sends := x.sends.drop 1, retries := 0, rnrs := 0 }))

/-- ROCE_RESPONSE_RECEIVED (R310). -/
def execRoceResponseReceived (qpn : Nat) (x : RoceResp) (s : State) : Result :=
  match qp? s qpn with
  | none => .next s
  | some y =>
    match y.sends with
    | [] => .next s
    | p :: _ =>
      if y.error || !canReceive s (qpSub y) then .next s
      else if !saOk s (qpSub y) then .next (badFrame (qpSub y) s)
      else
        match x with
        | .ack => .next (if p.op = 2 then s else postDone qpn y p s)
        | .data bs =>
          if p.op ≠ 2 || bs.length ≠ p.len || !piecesRun s p.mem then .next s
          else .next (countHub p.len (postDone qpn y p (hubWrite s p.mem bs)))
        | .nak => .next (failQp qpn s)
        | .rnr => .next (if qpRnr y ≤ y.rnrs then failQp qpn s else setQp s qpn { y with rnrs := y.rnrs + 1 })

/-- ROCE_RETRY_TIMEOUT (R310): outstanding posts are sent again until the retry count runs out; after an RNR, the wait it asked for. -/
def execRoceRetryTimeout (qpn : Nat) (rnr : Bool) (s : State) : Result :=
  match qp? s qpn with
  | none => .next s
  | some y =>
    if y.error || y.sends.isEmpty || s.flt.safe then .next s
    else if rnr then .next (foldState y.sends (sendPost qpn) s)
    else if qpRetry y ≤ y.retries then .next (failQp qpn s)
    else .next (foldState y.sends (sendPost qpn) (setQp s qpn { y with retries := y.retries + 1 }))

/-- The packets of an inbound WRITE, each of the path MTU and each checked by itself: those before the first that fails stand, and that one
is answered with NAK (R300, R312). -/
def writePackets (p n : Nat) (y : Qp) (key : Nat) : (fuel va : Nat) → List Byte → State → State
  | 0, _, _, s => roceSend s n y 3 0 0 0 []
  | f + 1, va, bs, s =>
    let now := bs.take (qpMtu y)
    match inboundCheck s none key va now.length true with
    | .error code => roceSend (countDrop p (frameViol p 0 code s)) n y 4 0 0 0 []
    | .ok ps =>
      if !piecesRun s ps then s
      else writePackets p n y key f (va + now.length) (bs.drop (qpMtu y)) (countHub now.length (hubWrite s ps now))

/-- An inbound message on a QP (R300, R309, R310); while its memory does not run it is not taken, and its sender sends it again (R345). -/
def roceInbound (p : Nat) (x : RoceReq) (y : Qp) (s : State) : State :=
  let n := x.qpn
  if x.op = 0 then
    match y.recvs with
    | [] => roceSend s n y 5 0 0 0 []
    | r :: rest =>
      if r.len < x.data.length then failQp n (roceSend s n y 4 0 0 0 [])
      else if !piecesRun s r.mem then s
      else
        let s1 := setQp (hubWrite s (takePieces x.data.length r.mem) x.data) n { y with recvs := rest }
        roceSend (countHub x.data.length (settleFrames (done r.q r.i x.data.length s1))) n y 3 0 0 0 []
  else
    if x.op = 1 then writePackets p n y x.rkey.toNat (frames y x.data.length) x.va.toNat x.data s
    else
      match inboundCheck s none x.rkey.toNat x.va.toNat x.len false with
      | .error code => roceSend (countDrop p (frameViol p 0 code s)) n y 4 0 0 0 []
      | .ok ps => if !piecesRun s ps then s else countHub x.len (roceSend (tickHub ps s) n y 6 x.va.toNat x.rkey.toNat x.len (hubRead s ps))

/-- ROCE_REQUEST_RECEIVED (R309): a bad ICRC is discarded, a CE mark is answered with a CNP. -/
def execRoceRequestReceived (p : Fin 4) (x : RoceReq) (s : State) : Result :=
  if !canReceive s p then .next s
  else if !saOk s p then .next (badFrame p s)
  else if !x.icrcOk then .next s
  else
    match qp? s x.qpn with
    | none => .next s
    | some y =>
      let s1 := if x.ce then roceOut s p 1 { kind := .cnp, a := x.qpn } else s
      .next (if y.error then s1 else roceInbound p x y s1)

end Sys2Proof.Machine
end

