-- ==== Sys2Proof/Machine/Faults.lean ====
section
/-! DEFINITION. Hardware faults and their answers, acknowledgement and accounting (R33, R96, R169, R397 to R409, R427). -/

namespace Sys2Proof.Machine

/-- The context whose launch runs on a region, or none. -/
def rgnCtx (s : State) (r : Nat) : Nat :=
  match launchAt s r with
  | some (_, x) => x.ctx
  | none => noCtx

/-! ### Units taken offline (R33, R397, R427) -/

/-- A head goes offline until module reset (R427): it stops at once, and its frame counter holds. -/
def failHead (h : Nat) (s : State) : State :=
  let gone := (waitingCommits s h).filter (fun c => match s.desc? c.q c.i with
    | some d => d.phase == .released
    | none => false)
  let s1 := disableHead h (foldState gone (fun c a => refuse c.q c.i 9 0x0801 a) s)
  let s2 := wr s1 (headBase h) (setField (dispCtrl s1 h) 0 1 0)
  setMap (28 + h) 2 (setHead s2 h { head s2 h with failed := true })

/-- An Ethernet port goes offline: its sub-ports' links go down (R33, R397). -/
def failPort (b : Nat) (s : State) : State :=
  let s1 := foldState [2 * b, 2 * b + 1] (fun q a => setSub a q (linkDown (sub a q))) s
  let s2 := { s1 with net := { s1.net with ports := mset s1.net.ports {} b { mget s1.net.ports {} b with failed := true } } }
  setMap (36 + b) 2 s2

/-- A media engine goes offline; a queue that names any engine finds another (R339). -/
def failEngine (e : Nat) (s : State) : State :=
  let s1 : State := { s with engines := mset s.engines {} e { mget s.engines {} e with st := .failed } }
  let free := fun (d : Desc) => if d.engine = some e then { d with engine := none } else d
  setMap (32 + e) 2 (takeAll { s1 with fe := { s1.fe with queues := mmap s1.fe.queues (fun _ x =>
    if x.typeArg = 0xFF then { x with descs := mmap x.descs (fun _ d => free d) } else x) } })

/-- UNIT_HARDWARE_FAULT (R33, R262, R397, R398). -/
def execUnitHardwareFault (u : HwUnit) (s : State) : Result :=
  if s.flt.safe then .next s
  else
    match u with
    | .region r => .next (regionFail r (faultEvent s 2 3 r 1 noCtx 0))
    | .clusterCheck cl => .next (regionFail (cl / 8) (faultEvent s 2 2 cl 3 noCtx 0))
    | .dieFabric d => .next (faultEvent s 3 6 d 1 noCtx 0)
    | .diePll d => .next (faultEvent s 3 6 d 2 noCtx 0)
    | .frontEnd => .next (faultEvent s 3 7 0 3 noCtx 0)
    | .port b => .next (failPort b (faultEvent s 2 9 b 2 noCtx 0))
    | .head h => .next (failHead h (faultEvent s 2 0xA h 3 noCtx (head s h).frame))
    | .media e => .next (failEngine e (faultEvent s 2 0xB e 1 noCtx 0))

/-! ### Errors in cores and CDCs (R33, R96, R169, R260) -/

/-- Uncorrectable errors of one cluster in two launches within 10 s take its region out (R33). -/
def clusterError (cl l : Nat) (s : State) : State :=
  let old := s.flt.clusterErrs.filter (fun e => decide (s.now < e.2.2 + 16000000000))
  let s1 := { s with flt := { s.flt with clusterErrs := (cl, l, s.now) :: old } }
  if old.any (fun e => e.1 == cl && e.2.1 != l) then regionFail (cl / 8) (faultEvent s1 2 2 cl 4 noCtx 0 true) else s1

/-- End the launch of a region with DATA_ERROR, recorded under the unit that met the error. -/
def dataEnd (l : Nat) (x : Launch) (source unit cl d : Nat) (s : State) : State :=
  clusterError cl l (faultEvent (endLaunch l 0x10 d s) 1 source unit 2 x.ctx (endInfo x 0x10 d))

/-- The residency entry that holds a tile-store byte of a region. -/
def entryAt (s : State) (r a : Nat) : Option ResEntry :=
  s.fe.residency.find? (fun e => e.regions.contains r && decide (e.base ≤ a) && decide (a < e.base + e.bytes))

/-- CORE_ECC_ERROR (R33, R96). Of an error in the tile store the word reads zero afterwards, and
the residency entry that holds it is evicted. An error met in a clear or in the residency area is outside the work of any launch: a launch
on the region goes on. -/
def execCoreEccError (c : Nat) (corrected : Bool) (place : EccPlace) (s : State) : Result :=
  let r := c / 32
  if s.flt.safe then .next s
  else if corrected then
    let x := s.rgn r
    .next (faultEvent (s.setRgn r { x with coreCerr := satInc32 x.coreCerr }) 0 1 c 1 (rgnCtx s r) 0)
  else
    let own := !place.clearing && match place.tsAddr with
      | none => true
      | some a => decide (a < usableTop s) || inModel s c a 1
    let zero := match place.tsAddr with
      | none => s
      | some a => s.setCore c { s.core c with ts := zeroRange (s.core c).ts (a / 8 * 8) 8 }
    let held := place.tsAddr.bind (entryAt s r)
    let s1 := match held with
      | some e => evictModels (· == e) zero
      | none => zero
    match coreLaunch s c, own with
    | some (l, x), true => .next (dataEnd l x 1 c (c / 4) 0x0401 s1)
    | _, _ => .next (faultEvent s1 1 1 c 2 ((held.map (·.ctx)).getD noCtx) 0)

/-- End a launch for a parity error on the unplanned path (R169, R398). -/
def parityEnd (cl c d : Nat) (s : State) : State :=
  match coreLaunch s c with
  | some (l, x) => dataEnd l x 2 cl cl d s
  | none => faultEvent s 1 2 cl 2 (handlingCtx s (cl / 8)) 0

/-- CDC_PARITY_ERROR (R169), met by an access of core `c`. A CLEAN line that errs again on the same access is taken as a DIRTY one. -/
def execCdcParityError (cl c : Nat) (site : ParitySite) (s : State) : Result :=
  let x := s.cdc cl
  let drop := fun (k : Nat) => s.setCdc cl { x with lines := mdel x.lines k }
  if s.flt.safe then .next s
  else
    match site with
    | .cleanData w e lg => (match mfind x.lines (256 * w + e) with
        | some y =>
          if y.dirty then .next s
          else if x.refetch.contains (c, lg, y.line) then .next (parityEnd cl c 0x0601 (drop (256 * w + e)))
          else
            let s1 := tickLine cl (s.setCdc cl { x with
              lines := mins x.lines (256 * w + e) { y with data := readLine cl s y.home }, refetch := x.refetch ++ [(c, lg, y.line)] })
            let g := s1.rgn (cl / 8)
            .next (faultEvent (s1.setRgn (cl / 8) { g with cdcCerr := satInc32 g.cdcCerr }) 0 2 cl 1 (rgnCtx s (cl / 8)) 0)
        | none => .next s)
    | .dirtyData w e => (match mfind x.lines (256 * w + e) with
        | some y => .next (if y.dirty then parityEnd cl c 0x0601 (drop (256 * w + e)) else s)
        | none => .next s)
    | .tagState w e => .next (parityEnd cl c 0x0602 (drop (256 * w + e)))
    | .evictEntry n => .next (if n < x.evict.length then parityEnd cl c 0x0601 (s.setCdc cl { x with evict := x.evict.eraseIdx n }) else s)
    | .scratch => .next (parityEnd cl c 0x0603 s)

/-! ### The collector (R401 to R405) -/

/-- FAULT_HANDLING_END (R401). -/
def execFaultHandlingEnd (seq : Nat) (s : State) : Result :=
  match mfind s.flt.hist (seq % 32) with
  | some r => .next (if r.seq = seq then { s with flt := { s.flt with hist := mins s.flt.hist (seq % 32) { r with handling := false } } } else s)
  | none => .next s

/-- COLLECTOR_SELF_FAULT (R402): a record is entered only if the history array is intact. -/
def execCollectorSelfFault (intact : Bool) (s : State) : Result :=
  let s1 := if intact then faultEvent s 3 0xD 0 1 noCtx 0 else signalFault (enterSafe s) 3 noCtx
  .next { s1 with flt := { s1.flt with self := true } }

/-- A write of FLT_ACK (R403). -/
def writeFltAck (v : Nat) (s : State) : State :=
  if diff32 v s.flt.ack < 0 || diff32 v s.flt.seq > 0 then regRefused s 0 0x05000C v else { s with flt := { s.flt with ack := v } }

/-- FLT_ACK_WRITE. -/
def execFltAckWrite (v : W32) (s : State) : Result := regWrite 0x05000C (writeFltAck v.toNat) s

/-- Whether the collector drives FAULT_N low (R403); that Oasis drives it for CLK_TRIP is no act of the collector (R351, R409). -/
def faultLow (s : State) : Bool :=
  s.flt.safe || s.flt.self
    || (List.range 4).any (fun c => (c == 3 || bitOf (fltCtrl s) c) && decide (0 < diff32 (mget s.flt.last 0 c) s.flt.ack))

/-- A fault record's 32 bytes (R399). -/
def recordBytes (r : FltRec) : List Byte :=
  leBytes 4 r.seq ++ leBytes 1 (r.cls % 4 + 4 * b2n r.esc) ++ leBytes 1 r.source ++ leBytes 2 r.unit ++ leBytes 2 r.code ++ leBytes 2 r.ctx
    ++ leBytes 4 r.count ++ leBytes 8 r.stamp ++ leBytes 8 r.info
/-- A slot of the fault history as its window reads it (R399, R409). -/
def histBytes (s : State) (k : Nat) : List Byte :=
  match mfind s.flt.hist k with
  | some r => recordBytes r
  | none => List.replicate 32 0

/-! ### Accounting (R408) -/

/-- A write of ACCT_MODE. -/
def writeAcctMode (v : Nat) (s : State) : State :=
  if v % 4 = 0 then regRefused s 0 0x0B0000 v else { s with acct := { s.acct with mode := v % 4 } }

/-- ACCT_MODE_WRITE. -/
def execAcctModeWrite (v : W32) (s : State) : Result := regWrite 0x0B0000 (writeAcctMode v.toNat) s

def clearAcct (s : State) : State :=
  { s with acct := { s.acct with energy := 0, hubBytes := 0, rgnCycles := [], rgnBytes := [] } }

/-- ACCT_CLEAR. -/
def execAcctClear (s : State) : Result := regWrite 0x0B0004 clearAcct s

/-- ENERGY_SAMPLE: PWR_INPUT over 1 µs, in µJ; BE issue follows the cap (R57). -/
def execEnergySample (watts : BitVec 10) (s : State) : Result :=
  let s1 := capWatch { s with pwr := { s.pwr with inputW := watts.toNat } }
  .next (if s.acct.mode = 1 then s1 else { s1 with acct := { s1.acct with energy := (s1.acct.energy + watts.toNat) % 2 ^ 64 } })

end Sys2Proof.Machine
end

