-- ==== Sys2Proof/Machine/MemEvents.lean ====
section
/-! DEFINITION. Events of device memory and of host translation (R33, R174 to R178, R180, R188, R191, R192). -/

namespace Sys2Proof.Machine

/-! ### Frames and stacks (R33, R174 to R178, R180, R188) -/

/-- STACK_FAILURE. -/
def execStackFailure (k : Nat) (s : State) : Result := .next (if s.flt.safe || !stackReady s k then s else failStack k s)

/-- MIRROR_REBUILD_DONE (R178): the frames leave the FREE count; with too few of them the items stay in one copy. -/
def execMirrorRebuildDone (die : Nat) (s : State) : Result :=
  if s.flt.safe || !s.mem.mirrorMissing.contains die then .next s
  else
    let need := mget s.mem.mirrorNeed 0 die
    let free := mkeys s.mem.frames (fun f x => x == .free && !inReserved s f && stackOf f / 4 == die && stackReady s (stackOf f))
    if free.length < need then .next { s with mem := { s.mem with mirrorLost := true } }
    else
      let s1 := foldState (free.take need) (fun f a => setFrame a f .reserved) s
      let left := s1.mem.mirrorMissing.filter (· != die)
      .next { s1 with mem := { s1.mem with mirrorMissing := left, mirrorNeed := mdel s1.mem.mirrorNeed die, mirrorLost := s1.mem.mirrorLost && !left.isEmpty } }

/-- MEM_CORRECTED_ERROR (R173, R174): a correction by on-die ECC or by the controller's SEC-DED. -/
def execMemCorrectedError (k : Nat) (s : State) : Result :=
  if s.flt.safe then .next s
  else
    let x := stackAt s k
    .next (faultEvent (setStack s k { x with cerr := satInc32 x.cerr }) 0 4 k 1 noCtx 0)

/-- A read of a descriptor got no data: one that runs ends with RESULT `off`, one at the head is refused (R174, R192, R219, R286). -/
def readFailed (q i st d off : Nat) (s : State) : State :=
  match s.desc? q i with
  | none => s
  | some y =>
    if y.launch.isSome then s
    else if y.phase == .released then
      settleFrames (finishDesc { s with net := { s.net with jobs := mdrop s.net.jobs (fun _ j => j.user == .copy q i) } } q i st d off true)
    else if y.phase == .head then refuse q i st d s
    else s

/-- The user of a frame that fails ends with DATA_ERROR (R174); the INFO of a launch it ends. -/
def endMemUser (u : MemUser) (s : State) : State × Nat :=
  let launch := fun (l d : Nat) => match s.launch? l with
    | some x => if x.phase = .ended then (s, 0) else (endLaunch l 0x10 d s, endInfo x 0x10 d)
    | none => (s, 0)
  match u with
  | .transfer l => launch l 0x0701
  | .cdcFill l => launch l 0x0702
  | .descriptor q i => (readFailed q i 0x10 0x0701 0 s, 0)

/-- MEM_UNCORRECTABLE_ERROR (R173, R174): an uncorrectable read, or a command or address parity error met again at its retry: class K for the frame's owner; the frame goes to RETIRED when freed. -/
def execMemUncorrectableError (frame : Nat) (u : MemUser) (s : State) : Result :=
  let k := stackOf frame
  if s.flt.safe || !stackReady s k then .next s
  else
    let x := stackAt s k
    let s1 := setStack s k { x with uerr := satInc32 x.uerr }
    let s2 := { s1 with mem := { s1.mem with marked := if s1.mem.marked.contains frame then s1.mem.marked else frame :: s1.mem.marked } }
    let owner := (frameOwner s frame).getD noCtx
    let (s3, info) := endMemUser u s2
    let s4 := if frameAt s3 frame == .scrubbing || frameAt s3 frame == .free then setFrame s3 frame .retired else s3
    .next (settleStacks (faultEvent s4 1 4 k 2 owner info))

/-- LTA_ERROR (R175). -/
def execLtaError (die _entry : Nat) (both : Bool) (s : State) : Result :=
  .next (if both then faultEvent s 3 5 die 2 noCtx 0 else faultEvent s 0 5 die 1 noCtx 0)

/-- STACK_TEMPERATURE_85C (R180). -/
def execStackTemperature85c (k : Nat) (above : Bool) (s : State) : Result := .next (setStack s k { stackAt s k with hot := above })

/-- FRAME_SCRUBBED (R176, R188, R408): a zeroed frame is FREE; what waits for frames sees it when it is next tried. -/
def execFrameScrubbed (frame : Nat) (s : State) : Result :=
  if s.flt.safe || frameAt s frame != .scrubbing || !stackReady s (stackOf frame) then .next s
  else
    let zero : State := { s with devMem := zeroRange s.devMem (frame * 65536) 65536 }
    .next (settleStacks (countHub 65536 (setFrame zero frame .free)))

/-! ### Host translation (R191, R192) -/

def sameTag (fn : Nat) (pasid : Option Nat) (f : Nat) (p : Option Nat) : Bool := fn == f && pasid == p

def ctxTagged (s : State) (f : Nat) (p : Option Nat) (x : Nat) : Bool :=
  match s.ctx? x with
  | some c => sameTag c.fn c.pasid f p
  | none => false

/-- Outstanding requests of a tag: started entries, unplanned accesses, copies and RoCEv2 posts, to the host aperture. -/
def tagBusy (s : State) (f : Nat) (p : Option Nat) : Bool :=
  s.rgns.any (fun e => (match launchAt s e.1 with
    | some (_, x) => ctxTagged s f p x.ctx
    | none => false) && (e.2.fifo.any (fun t => t.mem.any (fun m => decide (hostBase ≤ m.1)))
      || (cdcsOf e.1).any (fun k => (s.cdc k).queue.any (fun a => decide (hostBase ≤ a.home)))))
    || s.net.jobs.any (fun j => match j.2.user with
      | .copy q _ => (s.queue? q).any (fun x => ctxTagged s f p x.ctx) && (j.2.mem ++ j.2.uses).any (fun m => decide (hostBase ≤ m.1))
      | .entry _ _ _ => false)
    || s.net.qps.any (fun e => ctxTagged s f p e.2.ctx && (e.2.sends ++ e.2.recvs).any (fun y => y.mem.any (fun m => decide (hostBase ≤ m.1))))

/-- ATS_INVALIDATE (R191): entries drop and the contexts' CDCs are walked; the answer waits for outstanding uses, so that the request is
sent again until it is answered. -/
def execAtsInvalidate (f : Nat) (pasid : Option (BitVec 20)) (s : State) : Result :=
  let p := pasid.map (·.toNat)
  let s1 := { s with mem := { s.mem with dtc := s.mem.dtc.filter (fun e => !sameTag e.fn e.pasid f p) } }
  let s2 := foldState (mkeys s1.fe.ctxs (fun _ c => sameTag c.fn c.pasid f p)) contextWalk s1
  .next (if tagBusy s f p then s2 else s2.send { kind := .invalidateCompletion, a := f, b := (p.map (· + 1)).getD 0 })

/-- What waits for a page of a tag fails with HOST_FAULT. -/
def failWaits (fn : Nat) (p : Option Nat) (page d : Nat) (s : State) : State :=
  { s with link := { s.link with waits := s.link.waits.map (fun w =>
    if sameTag w.fn w.pasid fn p && w.page == page then { w with fail := some d } else w) } }

/-- What waited for a page of a tag is released, to translate again. -/
def releaseWaits (fn : Nat) (p : Option Nat) (page : Nat) (s : State) : State :=
  { s with link := { s.link with waits := s.link.waits.filter (fun w => !(sameTag w.fn w.pasid fn p && w.page == page)) } }

/-- Records of a function's contexts, and transfer entries, that a translation or its failure lets go. -/
def retryRecords (fn : Nat) (s : State) : State :=
  let s1 := flushHeld (s.link.held.length + 1) fn s
  foldState (List.range 16) startWaiting (flushAll (s1.link.held.length + 1) s1)

/-- The page request group outstanding for a page of a tag. -/
def prgOf (s : State) (fn : Nat) (p : Option Nat) (page : Nat) : Option (Nat × Prg) :=
  s.mem.prgs.find? (fun e => sameTag e.2.fn e.2.pasid fn p && e.2.page == page && !e.2.dead)

/-- The waits for a page are forgotten where its function may not ask (R280, R289): a transfer that asks again ends as R280 gives, and a record
stays held. -/
def dropPageWaits (fn : Nat) (p : Option Nat) (page : Nat) (s : State) : State :=
  { s with link := { s.link with waits := s.link.waits.filter (fun w => !(sameTag w.fn w.pasid fn p && w.page == page && w.fail == none)) } }

/-- A wait that found its function's page request capacity in use asks again (R190, R192). -/
def askAgain (fn : Nat) (s : State) : State :=
  match s.link.waits.find? (fun w => w.fn == fn && w.full && w.fail == none) with
  | none => s
  | some w =>
    if !reqOpen s fn (4096 * w.page) then dropPageWaits fn w.pasid w.page s
    else { s with link := { s.link with waits := s.link.waits.map (fun (v : HostWait) =>
      if sameTag v.fn v.pasid w.fn w.pasid && v.page == w.page then { v with full := false } else v) } }.send
        { kind := .atsRequest, a := fn, b := w.page, bytes := pasidBytes w.pasid }

/-- A page request group ends, and its place in the function's capacity is free. -/
def dropPrg (k : Nat) (s : State) : State :=
  match mfind s.mem.prgs k with
  | none => s
  | some g => askAgain g.fn { s with mem := { s.mem with prgs := mdel s.mem.prgs k } }

/-- A page request group whose translation was repeated ends with the repeat's answer. -/
def dropRetried (fn : Nat) (p : Option Nat) (page : Nat) (s : State) : State :=
  match prgOf s fn p page with
  | some (k, g) => if g.retried then dropPrg k s else s
  | none => s

/-- PRI capacity of a function (R190). -/
def prgCapacity (fn : Nat) : Nat := if fn = 0 then 512 else 64

/-- A translation that is not present: a page request, or its failure (R192). -/
def notPresent (fn : Nat) (p : Option Nat) (page : Nat) (s : State) : State :=
  let fail := fun (t : State) => retryRecords fn (failWaits fn p page 0x0701 t)
  if !reqOpen s fn (4096 * page) then dropPageWaits fn p page s
  else if s.mem.stopped.contains fn || !(s.func fn).priEnable then fail s
  else
    match prgOf s fn p page with
    | some (k, g) => if g.retried then fail (dropPrg k s) else s
    | none =>
      if prgCapacity fn ≤ (s.mem.prgs.filter (fun e => e.2.fn == fn)).length then
        { s with link := { s.link with waits := s.link.waits.map (fun w =>
          if sameTag w.fn w.pasid fn p && w.page == page then { w with full := true } else w) } }
      else
        match mfresh s.mem.prgs 4096 0 with
        | none => s
        | some k =>
          { s with mem := { s.mem with prgs := mins s.mem.prgs k { fn := fn, pasid := p, page := page, stamp := s.now } } }.send
            { kind := .pageRequest, a := fn, b := page, bytes := leBytes 2 k ++ pasidBytes p }

/-- ATS_TRANSLATION_COMPLETION (R190 to R192): the DTC keeps the 8,192 newest entries. -/
def execAtsTranslationCompletion (f : Nat) (pasid : Option (BitVec 20)) (page : Nat) (ans : AtsAnswer) (s : State) : Result :=
  let p := pasid.map (·.toNat)
  if !s.link.waits.any (fun w => sameTag w.fn w.pasid f p && w.page == page && w.fail == none) then .next (dropRetried f p page s)
  else
    match ans with
    | .translated t w n =>
      let e : Dtc := { fn := f, pasid := p, page := page / 2 ^ n.val * 2 ^ n.val, target := t / 2 ^ n.val * 2 ^ n.val, write := w, size := n }
      let keep := s.mem.dtc.filter (fun y => !(sameTag y.fn y.pasid f p && overlaps y.page (2 ^ y.size) e.page (2 ^ e.size)))
      let s1 := { s with mem := { s.mem with dtc := (e :: keep).take 8192 } }
      let s2 := match prgOf s1 f p page with
        | some (k, _) => dropPrg k s1
        | none => s1
      .next (retryRecords f (releaseWaits f p page s2))
    | .notPresent => .next (notPresent f p page s)
    | .aborted => .next (retryRecords f (failWaits f p page 0x0702 (dropRetried f p page s)))

/-- PAGE_REQUEST_RESPONSE (R192). -/
def execPageRequestResponse (prg : Nat) (code : PrgCode) (s : State) : Result :=
  match mfind s.mem.prgs prg with
  | none => .next s
  | some g =>
    if g.dead then .next (dropPrg prg s)
    else if g.retried then .next s
    else
      let fail := fun (d : Nat) (t : State) => retryRecords g.fn (failWaits g.fn g.pasid g.page d (dropPrg prg t))
      match code with
      | .success =>
        if !reqOpen s g.fn (4096 * g.page) then .next (dropPageWaits g.fn g.pasid g.page (dropPrg prg s))
        else .next ({ s with mem := { s.mem with prgs := mins s.mem.prgs prg { g with retried := true } } }.send { kind := .atsRequest, a := g.fn, b := g.page, bytes := pasidBytes g.pasid })
      | .invalid => .next (fail 0x0701 s)
      | .failure => .next (fail 0x0701 { s with mem := { s.mem with stopped := if s.mem.stopped.contains g.fn then s.mem.stopped else s.mem.stopped ++ [g.fn] } })
      | .unsupported => .next (fail 0x0702 s)

/-- PAGE_REQUEST_TIMEOUT (R192, R208): with MEM_PRI_TIMEOUT 0 there is no limit. -/
def execPageRequestTimeout (prg : Nat) (s : State) : Result :=
  match mfind s.mem.prgs prg with
  | none => .next s
  | some g =>
    if g.dead || field (rd s 0x020014) 0 16 = 0 then .next s
    else
      let s1 := { s with mem := { s.mem with prgs := mins s.mem.prgs prg { g with dead := true } } }
      .next (retryRecords g.fn (failWaits g.fn g.pasid g.page 0x0703 s1))

/-- PRI_ENABLE_WRITE (R192): clearing it ends the stopped condition. -/
def execPriEnableWrite (f : Nat) (on : Bool) (s : State) : Result :=
  let s1 := s.setFunc f { s.func f with priEnable := on }
  .next (if on then s1 else { s1 with mem := { s1.mem with stopped := s1.mem.stopped.filter (· != f) } })

end Sys2Proof.Machine
end

