-- ==== Sys2Proof/Machine/Regs.lean ====
section
/-! DEFINITION. The register index of BAR0 (R421 to R424): which offsets hold a register, the writable bits of the plain ones, the kept
set, its save to the Cistern and its restore (R360, R361). -/

namespace Sys2Proof.Machine

def between (lo hi off : Nat) : Bool := decide (lo ≤ off) && decide (off < hi)

/-- Offset within a head's block, and within a sub-port's. -/
def headOff (off : Nat) : Option (Nat × Nat) := if between 0x071000 0x075000 off then some ((off - 0x071000) / 0x1000, off % 0x1000) else none
def subOff (off : Nat) : Option (Nat × Nat) := if between 0x090100 0x090500 off then some ((off - 0x090100) / 0x100, off % 0x100) else none

/-- The kept set (R423): the entries marked Y of the register index. -/
def keptReg (off : Nat) : Bool :=
  off % 4 == 0 && (
    between 0x30 0x38 off || between 0x100 0x11C off || between 0x120 0x128 off || between 0x200 0x20C off || between 0x300 0x308 off
    || between 0x4000 0x7F80 off || between 0x010400 0x010408 off || between 0x010500 0x010608 off || off == 0x020014
    || between 0x020100 0x020400 off || between 0x030010 0x030018 off || between 0x030020 0x030028 off || off == 0x040000
    || off == 0x040008 || off == 0x040014 || off == 0x04001C || off == 0x050000
    || (match headOff off with
      | some (_, o) => between 0 0x20 o || between 0xA0 0xC0 o
      | none => false)
    || between 0x090004 0x09000C off
    || (match subOff off with
      | some (_, o) => o == 0 || between 0x10 0x20 o
      | none => false)
    || off == 0x0B0000)

/-- Writable bits of the registers whose write does nothing but store (R66, R208, R244, R265, R290, R313, R331, R371, R396, R409, R420). -/
def plainMask (off : Nat) : Option Nat :=
  if off = 0x200 then some 0x1FFFF
  else if off = 0x204 then some 0xFFFF0000
  else if off = 0x208 then some 0xFFFFFFFF
  else if between 0x300 0x308 off then some 0xFFFFFFFF
  else if between 0x4000 0x7F80 off then some 0xFFFFFF
  else if between 0x010500 0x010600 off then some 0x1FF
  else if off = 0x010600 then some 0xFFFFFF
  else if off = 0x020014 then some 0xFFFF
  else if between 0x020100 0x020300 off then some (if off % 8 = 0 then 0x7FFFFF else 0xFFFFFF)
  else if between 0x020300 0x020400 off then some 0x7FFFFF
  else if off = 0x040008 then some 0xFFFF01
  else if off = 0x04001C then some 0x3FF
  else if off = 0x050020 then some 0x1F
  else if off = 0x050084 then some 0xFF
  else if off = 0x06001C then some 0xFF
  else if off = 0x060014 then some 0xFFFFFFFF
  else if off = 0x060040 then some 0x3FFFFFF
  else if off = 0x090004 then some 0xFFFF
  else if off = 0x090008 then some 0xFFFFFFFF
  else
    match headOff off with
    | some (_, o) => if between 0x90 0xC0 o then some 0xFFFFFFFF else none
    | none =>
      match subOff off with
      | some (_, o) => if between 0x10 0x50 o then some 0xFFFFFFFF else none
      | none => none

/-- Offsets whose registers software cannot write, or whose only writable bits clear by writing 1 or set an action: they exist, and a write
of their other bits is ignored (R8). -/
def readOnlyReg (off : Nat) : Bool :=
  between 0 8 off || off == 0x10 || between 0x20 0x30 off || between 0x308 0x310 off || between 0x010408 0x01041C off
  || between 0x010608 0x010610 off || between 0x010618 0x010620 off || between 0x020000 0x020010 off || between 0x020020 0x020060 off
  || between 0x030004 0x03000C off || between 0x030018 0x030020 off || off == 0x040004 || off == 0x04000C || off == 0x040010
  || off == 0x040018 || off == 0x040020 || between 0x050004 0x05000C off || between 0x050010 0x050020 off || between 0x050040 0x050060 off
  || off == 0x050080 || between 0x0500A0 0x0500C0 off || between 0x060000 0x06000C off || off == 0x060018 || between 0x060020 0x060030 off
  || off == 0x060048
  || (match headOff off with
    | some (_, o) => between 0x24 0x34 o || between 0x40 0x80 o || o == 0x84
    | none => false)
  || off == 0x080000 || between 0x080010 0x080020 off || off == 0x090000 || between 0x090010 0x090018 off
  || (match subOff off with
    | some (_, o) => o == 4 || o == 0x60
    | none => false)
  || between 0x0A0000 0x0A0008 off || off == 0x0A0060 || between 0x0B0008 0x0B0018 off || between 0x0B0100 0x0B0400 off
  || (between 0x100000 0x200000 off && decide (off % 0x10000 < 0x10))

/-! ### The Cistern (R360, R361, R424) -/

/-- The offsets of the kept set, in ascending order. -/
def keptOffs : List Nat := (List.range 0x2C001).map (4 * ·) |>.filter keptReg

/-- The value that a kept register holds. -/
def keptValue (s : State) (off : Nat) : Nat := if off = 0x0B0000 then s.acct.mode else rd s off

/-- The image of the kept set, an entry of 8 bytes for each register (R360). -/
def cisternEntries (s : State) : List Byte := keptOffs.flatMap (fun off => leBytes 4 off ++ leBytes 4 (keptValue s off))

/-- MAGIC of a valid image. -/
def cisternMagic : Nat := 0x43495354
/-- The Cistern's bytes as a number, from byte `a` on; what lies past them reads 0. -/
def cisternField (s : State) (a n : Nat) : Nat := ofLe ((s.oas.cistern.drop a).take n)
def cisternValid (s : State) : Bool := cisternField s 0 4 == cisternMagic
/-- Bytes 16 to 16 + 8 × ENTRIES − 1 of the image. -/
def cisternBody (s : State) : List Byte := (List.range (8 * cisternField s 4 4)).map (fun k => s.oas.cistern.getD (16 + k) 0)

/-- CISTERN_SAVE, on entry to DORMANT: MAGIC, ENTRIES, CRC, four reserved bytes, the entries. -/
def cisternSave (s : State) : State :=
  let es := cisternEntries s
  { s with oas := { s.oas with cistern := leBytes 4 cisternMagic ++ leBytes 4 (es.length / 8) ++ leBytes 4 (crc32c es).toNat ++ leBytes 4 0 ++ es } }

/-- A bit of the Cistern that was upset while the image lay in it. -/
def cisternUpset (bit : Option Nat) (s : State) : State :=
  match bit with
  | none => s
  | some n => { s with oas := { s.oas with
      cistern := s.oas.cistern.set (n / 8) (s.oas.cistern.getD (n / 8) 0 ^^^ BitVec.ofNat 8 (2 ^ (n % 8))) } }

/-- One entry written back. -/
def restoreEntry (e : List Byte) (s : State) : State :=
  let off := ofLe (e.take 4) % 2 ^ 24
  let v := ofLe (e.drop 4)
  if off = 0x0B0000 then { s with acct := { s.acct with mode := v % 4 } } else wr s off v

/-- The entries written back in their order. -/
def restoreEntries : (n : Nat) → List Byte → State → State
  | 0, _, s => s
  | n + 1, bs, s => restoreEntries n (bs.drop 8) (restoreEntry (bs.take 8) s)

/-- Registers of the SEC block. -/
def secReg (off : Nat) : Bool := between 0x060000 0x070000 off

/-- CISTERN_RESTORE (R361): MAGIC and CRC are checked; kept registers take their saved values in OFFSET order, and every other one its reset
value (R8). An image whose CRC does not match restores nothing, sets CISTERN_ERR and is a class C event. MAGIC is then 0. Enables act once
their blocks report ready. -/
def cisternRestore (s : State) : State :=
  let fresh := { s with
    regs := []
    acct := { s.acct with mode := 0 }
    oas := { s.oas with cistern := List.replicate (min 4 s.oas.cistern.length) 0 ++ s.oas.cistern.drop 4 } }
  if !cisternValid s then fresh
  else if (crc32c (cisternBody s)).toNat = cisternField s 8 4 then restoreEntries (cisternField s 4 4) (cisternBody s) fresh
  else faultEvent { fresh with oas := { fresh.oas with cisternErr := true } } 0 0xC 0 4 noCtx 0

end Sys2Proof.Machine
end

