-- ==== Sys2Proof/Machine/Sec.lean ====
section
/-! DEFINITION. The security block (R378 to R396): flash, the fuse ledger, identity seeds, alarms and the debug console. -/

namespace Sys2Proof.Machine

/-! ### Flash and image headers (R378 to R381) -/

def flashByte (s : State) (a : Nat) : Byte := (mfind s.sec.flash a).getD (Config.shippedFlash a)
def flashBytes (s : State) (a n : Nat) : List Byte := (List.range n).map (fun k => flashByte s ((a + k) % 2 ^ 26))
def setFlash (a : Nat) (bs : List Byte) (s : State) : State :=
  { s with sec := { s.sec with flash := (bs.zipIdx.foldl (fun m e => mins m (a + e.2) e.1) s.sec.flash) } }

/-- First flash address of a bank. -/
def bankBase (b : Nat) : Nat := b * 0x2000000
def headerOf (s : State) (b : Nat) : List Byte := flashBytes s (bankBase b) 4096
def hField (h : List Byte) (byte len : Nat) : Nat := ofLe ((h.drop byte).take len)
/-- A digest in byte order (log entry 9). -/
def ofBe (bs : List Byte) : Nat := ofLe bs.reverse

/-- The anti-rollback counter (R382). -/
def rollbackOf (o : Otp) : Nat := o.rollback.getD Config.shippedSvn.toNat
/-- The active seed slot: the lowest that is written and not destroyed (R389). -/
def activeSeed (o : Otp) : Option Nat := (List.range 4).find? (fun k => o.seeds.getD k .empty == .written)

/-- The result of a bank's header check as RESULT codes it; 0 passes (R378, R379; log entry 36 for what has no code of its own). -/
def headerCode (o : Otp) (h : List Byte) : Nat :=
  let slot := field (hField h 5 1) 0 2
  let svn := hField h 12 4
  let len := hField h 16 4
  let reserved := field (hField h 5 1) 3 5 != 0 || hField h 6 2 != 0 || hField h 24 8 != 0 || ((h.drop 192).take 3904).any (· != 0)
  if hField h 0 4 ≠ 0x57465443 || hField h 4 1 ≠ 1 || 128 < svn || len % 64 ≠ 0 || len < 64 || 3 * 2 ^ 20 < len || reserved then 2
  else if bitOf o.revoked slot || Config.sha256 ((h.drop 64).take 64) != Config.otpKeyHash slot then 3
  else if !Config.ecdsaVerify ((h.drop 64).take 64) (Config.sha256 (h.take 128)) ((h.drop 128).take 64) then 4
  else if svn < rollbackOf o then 5
  else if bitOf (hField h 5 1) 2 != (activeSeed o).isNone then 2
  else 0

/-- The payload of a bank hashes to its header's PAYLOAD_HASH (R379). -/
def payloadOk (s : State) (b : Nat) : Bool :=
  let h := headerOf s b
  (Config.sha256 (flashBytes s (bankBase b + 0x1000) (hField h 16 4))).toNat == ofBe ((h.drop 32).take 32)

/-- Banks to try, in order: by SVN, then FW_VERSION, descending, bank A first on ties. -/
def bootOrder (s : State) : List Nat :=
  let ok := (List.range 2).filter (fun b => headerCode s.sec.otp (headerOf s b) == 0)
  let key := fun (b : Nat) => hField (headerOf s b) 12 4 * 2 ^ 32 + hField (headerOf s b) 8 4
  if ok.length = 2 && key 0 < key 1 then [1, 0] else ok

/-- Try the candidate banks: the results of both, and the bank that loaded. -/
def tryBanks (s : State) (err : Nat → Bool) : List Nat → Nat × Nat → (Nat × Nat) × Option Nat
  | [], r => (r, none)
  | b :: bs, r =>
    let code := if err b then 7 else if payloadOk s b then 1 else 6
    let r' := if b = 0 then (code, r.2) else (r.1, code)
    if code = 1 then (r', some b) else tryBanks s err bs r'

/-- The boot log leaves on the UART at DEBUG_LEVEL 0 to 2, if its pad is not latched (R363, R384): its text, of which the spec says nothing, from
the results of the banks and the bank that loaded. -/
def bootLog (s : State) : State :=
  if 3 ≤ s.sec.otp.debug || s.oas.latched then s
  else s.send { kind := .uart, a := 1, bytes := Config.protocolReply 0x101 (leBytes 1 s.sec.resA ++ leBytes 1 s.sec.resB ++ leBytes 1 s.sec.bank
    ++ leBytes 4 s.sec.fw) s.sec.otp.debug }

/-- BOOT_IMAGE_LOADED (R374 step 3, R379, R380): the boot ROM has read both headers and a payload, `readErr` where the flash failed. -/
def execBootImageLoaded (readErrA readErrB : Bool) (s : State) : Result :=
  if s.pwr.dev != .starting || s.sec.imageLoaded || isFailed s 1 || s.flt.safe then .next s
  else
    let hc := fun (b : Nat) => headerCode s.sec.otp (headerOf s b)
    let ((ra, rb), got) := tryBanks s (fun b => if b = 0 then readErrA else readErrB) (bootOrder s) (hc 0, hc 1)
    let s1 := { s with sec := { s.sec with resA := ra, resB := rb } }
    match got with
    | none => .next (setMap 2 2 (setMap 1 2 (bootLog s1)))
    | some b =>
      let h := headerOf s b
      .next (bootLog { s1 with sec := { s1.sec with
        feImage := flashBytes s (bankBase b + 0x1000) (hField h 16 4)
        feEntry := hField h 20 4
        fw := hField h 8 4
        svn := hField h 12 4
        keySlot := field (hField h 5 1) 0 2
        provisioning := bitOf (hField h 5 1) 2
        bank := b
        fallback := (bootOrder s).head? != some b
        imageLoaded := true } })

/-- A flash range that lies in an identity area. -/
def inIdentity (a : Nat) : Bool := decide (0x1FF0000 ≤ a % 0x2000000)
/-- Why an erase or program is refused (R381). -/
def flashBarred (s : State) (a : Nat) : Bool :=
  (s.sec.imageLoaded && a / 0x2000000 == s.sec.bank) || (inIdentity a && !(s.sec.imageLoaded && s.sec.provisioning))

/-- A write of SEC_FLASH_CMD with GO (R381); a reserved OP is refused too. Page and sector bits of the address are ignored. -/
def flashGo (v : Nat) (s : State) : State :=
  let op := field v 0 2
  let a0 := field (rd s 0x060040) 0 26
  let a := if op = 1 then a0 / 256 * 256 else if op = 2 then a0 / 65536 * 65536 else a0
  if s.sec.flashOp.isSome || op = 3 || (op != 0 && flashBarred s a) then
    regRefused { s with sec := { s.sec with flashStatus := 3 } } 0 0x060044 v
  else { s with sec := { s.sec with flashStatus := 1, flashOp := some ⟨op, a, none⟩ } }

/-- A SEC write other than a GO that follows its ARM drops the ARM (R383). -/
def disarm (s : State) : State := { s with sec := { s.sec with armed := none } }

def writeFlashCmd (v : Nat) (s : State) : State :=
  let s1 := wr (disarm s) 0x060044 (field v 0 2)
  if bitOf v 8 then flashGo v s1 else s1

/-- FLASH_READ, FLASH_PROGRAM, FLASH_ERASE: writes of SEC_FLASH_CMD with GO and their OP. -/
def execFlashRead (v : W32) (s : State) : Result := regWrite 0x060044 (writeFlashCmd (setField (setField v.toNat 0 2 0) 8 1 1)) s
def execFlashProgram (v : W32) (s : State) : Result := regWrite 0x060044 (writeFlashCmd (setField (setField v.toNat 0 2 1) 8 1 1)) s
def execFlashErase (v : W32) (s : State) : Result := regWrite 0x060044 (writeFlashCmd (setField (setField v.toNat 0 2 2) 8 1 1)) s

def pageBytes (s : State) : List Byte := (List.range 256).map (fun k => mget s.sec.page 0 k)

/-- FLASH_OP_DONE. An erased byte reads 0xFF (log entry 36). -/
def execFlashOpDone (s : State) : Result :=
  match s.sec.flashOp with
  | none => .next s
  | some f =>
    let s1 := { s with sec := { s.sec with flashOp := none, flashStatus := 2 } }
    if f.op = 0 then .next { s1 with sec := { s1.sec with page := (flashBytes s f.addr 256).zipIdx.foldl (fun m e => mset m 0 e.2 e.1) [] } }
    else if f.op = 1 then .next (setFlash f.addr (f.data.getD (pageBytes s)) s1)
    else .next (setFlash f.addr (List.replicate 65536 0xFF#8) s1)

/-- The page buffer takes its reset value; a page that is being programmed is held apart (R8, R381). -/
def resetPage (s : State) : State :=
  { s with sec := { s.sec with
    page := []
    flashOp := s.sec.flashOp.map (fun f => if f.op = 1 && f.data.isNone then { f with data := some (pageBytes s) } else f) } }

/-- A flash command cut off by a reset leaves the bytes it was changing at values the spec does not give. -/
def cutFlash (s : State) : State :=
  match s.sec.flashOp with
  | none => s
  | some f =>
    let n := if f.op = 0 then 0 else if f.op = 1 then 256 else 65536
    let s1 := setFlash f.addr ((List.range n).map (fun k => (Config.freeValue (s.free + k)).truncate 8)) s
    { s1 with
      free := s.free + n
      sec := { s1.sec with flashOp := none } }

/-! ### The fuse ledger (R382 to R388) -/

/-- The value of a setting (R382). -/
def otpValue (o : Otp) (code : Nat) : Nat :=
  if code = 1 then rollbackOf o else if code = 2 then o.revoked else if code = 3 then o.debug else if code = 4 then o.policy
  else if code = 5 then (o.nodeId.getD Config.shippedNodeId).toNat else if code = 6 then o.ceiling
  else match activeSeed o with
    | some k => k + 1
    | none => 0

def setOtp (code v : Nat) (s : State) : State :=
  let o := s.sec.otp
  let o' : Otp :=
    if code = 1 then { o with rollback := some v } else if code = 2 then { o with revoked := v } else if code = 3 then { o with debug := v }
    else if code = 4 then { o with policy := v } else if code = 5 then { o with nodeId := some (BitVec.ofNat 32 v) }
    else { o with ceiling := v }
  { s with sec := { s.sec with otp := o' } }

def addLedger (e : LedgerEntry) (s : State) : State :=
  if s.sec.otp.ledger.length < 160 then { s with sec := { s.sec with otp := { s.sec.otp with ledger := s.sec.otp.ledger ++ [e] } } } else s

/-- Step 1 of start-up: TO of every entry left with COMPLETE 0 is the value actually reached, and COMPLETE is set (R388). -/
def completeEntries (s : State) : State :=
  let o := s.sec.otp
  { s with sec := { s.sec with otp := { o with ledger := o.ledger.map (fun e =>
    if e.complete then e else { e with complete := true, to_ := e.reached }) } } }

/-- The last entry of a setting, where it has COMPLETE 0, changes. -/
def onOpenEntry (setting : Nat) (f : LedgerEntry → LedgerEntry) (s : State) : State :=
  let o := s.sec.otp
  match (List.range o.ledger.length).reverse.find? (fun k => (o.ledger[k]?).any (fun e => e.setting == setting && !e.complete)) with
  | some k => { s with sec := { s.sec with otp := { o with ledger := o.ledger.modify k f } } }
  | none => s

/-- A change has verified its last fuse: COMPLETE is set, and TO is the value (R386). -/
def ledgerComplete (setting v : Nat) (s : State) : State := onOpenEntry setting (fun e => { e with complete := true, to_ := v, reached := v }) s
/-- A fuse failed its verification: TO records what the verified fuses give, and COMPLETE stays 0 (R386, R387). -/
def ledgerFail (setting v : Nat) (s : State) : State := onOpenEntry setting (fun e => { e with to_ := v, reached := v }) s
/-- A change was cut off with a value reached (R388). -/
def ledgerCut (setting v : Nat) (s : State) : State := onOpenEntry setting (fun e => { e with reached := v }) s

/-- The value asked for is in range and in its direction (R382). -/
def otpLegal (o : Otp) (code v : Nat) : Bool :=
  let old := otpValue o code
  if code = 1 then decide (old < v) && decide (v ≤ 128)
  else if code = 2 then (v == 1 || v == 2 || v == 4 || v == 8) && decide (old &&& v = 0)
  else if code = 3 || code = 4 then decide (old < v) && decide (v ≤ 3)
  else if code = 5 then decide (1 ≤ v) && decide (v ≤ 0xFFFFFFFE) && v != old
  else if code = 6 then decide (400 ≤ v) && decide (v < old)
  else false

/-- The value a change ends at: a key slot's bit joins the others. -/
def otpGoal (o : Otp) (code v : Nat) : Nat := if code = 2 then o.revoked ||| v else v

/-- Steps used up, or the ledger full. -/
def otpSpent (o : Otp) (code : Nat) : Bool :=
  decide (160 ≤ o.ledger.length) || (code == 5 && decide (8 ≤ o.nodeSteps)) || (code == 6 && decide (4 ≤ o.ceilingSteps))

/-- The change would leave no bank whose header passes, or raise ANTI_ROLLBACK above the running image's SVN (R383). -/
def otpStrands (s : State) (code goal : Nat) : Bool :=
  (code == 1 || code == 2) &&
    ((code == 1 && decide (s.sec.svn < goal))
      || !(List.range 2).any (fun b => headerCode (setOtp code goal s).sec.otp (headerOf s b) == 0))

/-- The refusal of a change, as STATUS codes it; 0 accepts. -/
def otpRefusal (s : State) (code v : Nat) : Nat :=
  let o := s.sec.otp
  if s.sec.armed != some code || s.sec.change.isSome then 7
  else if !otpLegal o code v then 3
  else if otpSpent o code then 4
  else if s.sec.alarms ≠ 0 then 8
  else if otpStrands s code (otpGoal o code v) then 5
  else 0

/-- ARM (R383). -/
def otpDoArm (v : Nat) (s : State) : State :=
  { wr s 0x060010 (field v 0 4) with sec := { s.sec with armed := some (field v 0 4) } }

/-- GO: burning starts with the ledger entry at COMPLETE 0, or the change is refused and logged (KIND 0x03). -/
def otpDoGo (v : Nat) (s : State) : State :=
  let code := field v 0 4
  let goal := rd s 0x060014
  let o := s.sec.otp
  let st := otpRefusal s code goal
  let s1 := wr (disarm s) 0x060010 code
  if st ≠ 0 then logViol (if s.sec.change.isSome then s1 else { s1 with sec := { s1.sec with status := st } }) 3 0 0 code st
  else
    let e : LedgerEntry := ⟨code, false, otpValue o code, otpGoal o code goal, s.sec.fw, otpValue o code⟩
    let s2 := addLedger e s1
    { s2 with sec := { s2.sec with
      status := 1
      change := some ⟨code, otpValue o code, otpGoal o code goal⟩
      otp := { s2.sec.otp with
        nodeSteps := o.nodeSteps + (if code = 5 then 1 else 0)
        ceilingSteps := o.ceilingSteps + (if code = 6 then 1 else 0) } } }

/-- A write of SEC_OTP_CMD: accepted only while SEC is ready. With neither bit it only stores SETTING. -/
def writeOtpCmd (v : Nat) (s : State) : State :=
  if !isReady s 2 then wr (disarm s) 0x060010 (field v 0 4)
  else if bitOf v 9 then otpDoGo v s
  else if bitOf v 8 then otpDoArm v s
  else wr (disarm s) 0x060010 (field v 0 4)

/-- OTP_ARM and OTP_GO: writes of SEC_OTP_CMD with ARM, and with GO. -/
def execOtpArm (v : W32) (s : State) : Result := regWrite 0x060010 (writeOtpCmd (setField v.toNat 8 2 1)) s
def execOtpGo (v : W32) (s : State) : Result := regWrite 0x060010 (writeOtpCmd (setField v.toNat 8 2 2)) s

/-- A value that verified fuses can give on the way from the old value to the goal (R388). -/
def otpReachable (c : Change) (v : Nat) : Bool :=
  v == c.old || v == c.goal || ((c.setting == 1 || c.setting == 3 || c.setting == 4) && decide (c.old ≤ v) && decide (v ≤ c.goal))

/-- OTP_CHANGE_DONE (R385 to R387): the value the verified fuses give. -/
def execOtpChangeDone (verified : Nat) (s : State) : Result :=
  match s.sec.change with
  | none => .next s
  | some c =>
    if !otpReachable c verified then .next s
    else
      let s1 := (if verified = c.goal then ledgerComplete else ledgerFail) c.setting verified (setOtp c.setting verified s)
      let s2 := { s1 with sec := { s1.sec with change := none, status := if verified = c.goal then 2 else 6 } }
      .next (if verified = c.goal then s2 else faultEvent s2 0 0xC 0 3 noCtx 0)

/-- A change cut off by a reset or ended by an alarm: the value that remains is one that R388 allows, and no more is said of it. -/
def cutChange (s : State) : State :=
  match s.sec.change with
  | none => s
  | some c =>
    let f := s.freeVal.toNat
    let v := if c.setting = 2 || c.setting = 5 || c.setting = 6 then (if f % 2 = 1 then c.goal else c.old)
      else c.old + f % (c.goal - c.old + 1)
    let s1 := ledgerCut c.setting v (setOtp c.setting v s.tickFree)
    { s1 with sec := { s1.sec with change := none, status := 6 } }

/-! ### Alarms (R393 to R395) -/

/-- The erasure of every volatile key (R394): SAKs, IDE keys, SPDM session keys. -/
def eraseKeys (s : State) : State :=
  let s := foldState ((List.range 4).flatMap keyRegs) (fun o a => wr a o 0) s
  { s with
    net := { s.net with subs := mmap s.net.subs (fun _ q => { q with keys := [], txAn := none, rxAn := [] }) }
    link := { s.link with ide := mmap s.link.ide (fun _ e => { e with st := .insecure }) }
    sec := { s.sec with keys := false, spdm := [] } }

/-- Erase: the keys, then every context of every function. In the safe state the front end destroys nothing more. -/
def eraseAll (s : State) : State :=
  let s1 := eraseKeys s
  if s1.flt.safe then s1 else foldState (mkeys s1.fe.ctxs (fun _ _ => true)) destroyCtx s1

/-- LAST_ACTION of a policy for a source: 1 log, 2 erase, 3 Haboob (R393). -/
def alarmAction (policy : Nat) (tamper : Bool) : Nat :=
  if policy = 0 then 1 else if policy = 1 then 2 else if policy = 2 then (if tamper then 3 else 2) else 3

def setAction (a : Nat) (s : State) : State := { s with sec := { s.sec with lastAction := a } }
def alarmEvent (s : State) : State := faultEvent s 0 0xC 0 1 noCtx 0

/-- The version of the image running now, 0 before step 4 (R386). -/
def fwNow (s : State) : Nat := if isReady s 1 then s.sec.fw else 0

/-- Haboob begins: the ledger entry at COMPLETE 0, and the fuses of the active slot start burning (R386, R394). -/
def startHaboob (s : State) : State :=
  let s1 := match activeSeed s.sec.otp with
    | some k => addLedger ⟨0x10, false, k + 1, 0, fwNow s, k + 1⟩ s
    | none => s
  { s1 with sec := { s1.sec with haboob := true } }

/-- ALARM_ACTION (R394, R395). -/
def runAction (bit : Nat) (s : State) : State :=
  if s.sec.haboob then alarmEvent s
  else
    let s1 := cutChange s
    let a := alarmAction s1.sec.otp.policy (bit == 3)
    if a = 1 then alarmEvent (setAction 1 s1)
    else if a = 2 then alarmEvent (eraseAll (setAction 2 s1))
    else startHaboob (eraseAll (setAction 3 s1))

/-- An alarm source trips: 0 glitch, 1 temperature, 2 clock, 3 TAMPER_N. A bit that is set stands for the same alarm (R395). -/
def raiseAlarm (bit : Nat) (s : State) : State :=
  let s1 := { s with sec := { s.sec with tripping := setField s.sec.tripping bit 1 1 } }
  if bitOf s.sec.alarms bit then s1
  else runAction bit { s1 with sec := { s1.sec with alarms := setField s1.sec.alarms bit 1 1 } }

/-- Alarms are latched from step 1 of start-up on, and in DORMANT (R393). -/
def latchesAlarms (s : State) : Bool := s.pwr.dev == .starting || s.pwr.dev == .up || s.pwr.dev == .dormant

/-- VOLTAGE_GLITCH. -/
def execVoltageGlitch (s : State) : Result := .next (if latchesAlarms s then raiseAlarm 0 s else s)

/-- TAMPER: a low level that lasts 1 µs; while nothing is latched it is kept for step 1 (log entry 36). -/
def execTamper (s : State) : Result :=
  .next (if latchesAlarms s then raiseAlarm 3 s else { s with sec := { s.sec with tripping := setField s.sec.tripping 3 1 1 } })

/-- A write of SEC_ALARM_STATUS: a cleared bit is set again at once while its source still trips. -/
def writeAlarm (v tripping : Nat) (s : State) : State :=
  let left := (List.range 4).foldl (fun a k => if bitOf v k && !bitOf tripping k then setField a k 1 0 else a) s.sec.alarms
  { disarm s with sec := { (disarm s).sec with alarms := left, tripping := tripping } }

/-- ALARM_CLEAR. -/
def execAlarmClear (v : W32) (tripping : BitVec 4) (s : State) : Result := regWrite 0x060030 (writeAlarm v.toNat tripping.toNat) s

/-- ALARM_N is driven low (R393, R412). -/
def alarmLow (s : State) : Bool := latchesAlarms s && s.sec.alarms != 0

/-- The active seed slot is destroyed. -/
def destroySeed (s : State) : State :=
  match activeSeed s.sec.otp with
  | some k => { s with sec := { s.sec with otp := { s.sec.otp with seeds := s.sec.otp.seeds.set k .destroyed } } }
  | none => s

/-- HABOOB_SEED_BURNED (R394): the entry is complete, and the device goes to the safe state. -/
def execHaboobSeedBurned (s : State) : Result :=
  if !s.sec.haboob then .next s
  else
    let s1 := ledgerComplete 0x10 0 (destroySeed s)
    .next (faultEvent { s1 with sec := { s1.sec with haboob := false } } 3 0xC 0 2 noCtx 0)

/-- A Haboob cut off by a reset: whether the slot then reads destroyed is not said. -/
def cutHaboob (s : State) : State :=
  if !s.sec.haboob then s
  else
    let s1 := if s.freeVal.toNat % 2 = 1 then ledgerCut 0x10 0 (destroySeed s) else s
    { s1.tickFree with sec := { s1.sec with haboob := false } }

/-! ### Identity (R389 to R391) -/

/-- The seed of a slot: the shipped one, or one a provisioning image drew. -/
def seedValue (k : Nat) : BitVec 256 := if k = 0 then Config.shippedSeed else Config.randomSeed k

def identityInfo : List Byte := "CT880 identity".toList.map (fun c => BitVec.ofNat 8 c.toNat)
def identityKey (o : Otp) : Option (BitVec 256) := (activeSeed o).map (fun k => Config.deriveKey (seedValue k) identityInfo)

/-- The attestation key: from the seed and the hash of header bytes 0 to 191 of the running image. -/
def attestKey (s : State) : Option (BitVec 256) :=
  (activeSeed s.sec.otp).map (fun k =>
    Config.deriveKey (seedValue k) (leBytes 32 (Config.sha256 ((headerOf s s.sec.bank).take 192)).toNat).reverse)

/-- First byte of a bank's identity area, and its bytes (R378). -/
def identityBase (b : Nat) : Nat := bankBase b + 0x1FF0000
def identityArea (s : State) (b : Nat) : List Byte := flashBytes s (identityBase b) 65536

/-- The copy that the device uses: the first whose chain verifies against the identity key (R390). -/
def identityCopy (s : State) : Option Nat :=
  match identityKey s.sec.otp with
  | none => none
  | some k => (List.range 2).find? (fun b => Config.chainVerifies (identityArea s b) k)

/-- Step 4 of start-up: the attestation key is derived, the identity copy chosen, and the identity key signs a new certificate (R390). -/
def attestStart (s : State) : State :=
  { s with sec := { s.sec with
    attest := attestKey s
    chain := identityCopy s
    attestCert := match identityKey s.sec.otp, attestKey s with
      | some k, some a => Config.signCert k a
      | _, _ => [] } }

/-- A provisioning image draws a seed into the next free slot, with its ledger entry, and writes both identity areas (R391). -/
def drawSeed (s : State) : State :=
  match (List.range 4).find? (fun k => s.sec.otp.seeds.getD k .empty == .empty) with
  | some k =>
    let s1 := addLedger ⟨0x10, true, 0, k + 1, s.sec.fw, k + 1⟩
      { s with sec := { s.sec with otp := { s.sec.otp with seeds := s.sec.otp.seeds.set k .written } } }
    foldState [0, 1] (fun b a => setFlash (identityBase b) ((List.range 65536).map (Config.identityByte k)) a) s1
  | none => s

/-! ### Debug paths (R384) -/

/-- JTAG is open at DEBUG_LEVEL 0 only. -/
def jtagOpen (s : State) : Bool := s.sec.otp.debug == 0
/-- The UART console answers at DEBUG_LEVEL 0 and 1, and takes writes at 0 only. -/
def consoleReads (s : State) : Bool := decide (s.sec.otp.debug < 2)
def consoleWrites (s : State) : Bool := s.sec.otp.debug == 0

/-- What the console can read: the boot log's facts and the fault history. -/
def consoleView (s : State) : List Byte :=
  leBytes 1 s.sec.resA ++ leBytes 1 s.sec.resB ++ leBytes 1 s.sec.bank ++ leBytes 4 s.sec.fw ++ (List.range 32).flatMap (histBytes s)

/-- UART_CONSOLE_INPUT: answered at DEBUG_LEVEL 0 and 1; the console changes no state that the spec names (log entry 36). -/
def execUartConsoleInput (m : List Byte) (s : State) : Result :=
  if !consoleReads s || s.oas.latched || !(s.pwr.dev == .starting || s.pwr.dev == .up) then .next s
  else .next (s.send { kind := .uart, bytes := Config.protocolReply (0x102 + b2n (consoleWrites s)) m (bytesKey (consoleView s)) })

end Sys2Proof.Machine
end

