-- ==== Sys2Proof/Machine/Boot.lean ====
section
/-! DEFINITION. Module reset, start-up, DORMANT and OASIS (R28, R34, R281, R355 to R362, R369, R373 to R377, R404, R405, R417, R424). -/

namespace Sys2Proof.Machine

/-! ### Module reset (R34) -/

/-- HBM contents that a module reset leaves: those of stacks in self-refresh (R34, R345). -/
def keptMem (lost : Bool) (s : State) : Map Byte :=
  if lost then []
  else if s.pwr.dev == .dormant then s.devMem
  else s.devMem.filter (fun e => clkCur s (4 + stackOf (e.1 / 65536) / 4) != 0)

/-- Frames of stacks whose HBM stayed in self-refresh keep being FREE across a module reset; every other one is to be scrubbed (R174,
R176; log entry 99). -/
def keptFrames (lost : Bool) (s : State) : Map FrameState :=
  s.mem.frames.filter (fun e => !lost && e.2 == .free && (s.pwr.dev == .dormant || clkCur s (4 + stackOf e.1 / 4) != 0))

/-- A table of `n` entries by number, in canonical form. -/
def tabulate {α : Type} [DecidableEq α] (d : α) (n : Nat) (f : Nat → α) : Map α := (List.range n).foldl (fun m k => mset m d k (f k)) []

/-- A module reset: all of the package but Oasis, OTP, the ledger and flash (R34, R364). What lies outside the package stays: the host's
memory and commands, what the device has sent, pins, connectors and modules. `lost`: HBM loses power. -/
def moduleReset (lost : Bool) (s : State) : State :=
  let t := cutHaboob (cutChange (cutFlash s))
  { pending := t.pending
    free := t.free
    out := t.out
    hostMem := t.hostMem
    devMem := keptMem lost t
    mem := { frames := keptFrames lost t }
    oas := t.oas
    heads := tabulate {} 4 (fun h => { hpd := (head t h).hpd })
    net := {
      nodeId := t.sec.otp.nodeId
      ports := tabulate {} 2 (fun b =>
        let p := mget t.net.ports {} b
        { plugged := p.plugged, watts := p.watts, lowPower := p.lowPower }) }
    clk := { xtalGone := t.clk.xtalGone }
    pwr := {
      dev := .held
      mainPower := t.pwr.mainPower
      perst := t.pwr.perst
      connA := t.pwr.connA
      connB := t.pwr.connB
      duty := if t.oas.latched then t.pwr.duty else 0
      rpm := if t.oas.latched then t.pwr.rpm else 0 }
    sec := {
      otp := t.sec.otp
      flash := t.sec.flash
      tripping := setField 0 3 1 (b2n (bitOf t.sec.tripping 3)) } }

/-! ### Start-up (R373, R374, R413, R414) -/

/-- The blower runs at its duty for the hottest junction, unless its pad is latched or the module has no blower (R363, R418, R420). -/
def setBlower (s : State) : State :=
  if s.oas.latched || Config.strapVariant != 0#2 then s
  else
    let d := clampN 25 100 (Config.blowerDuty (hottest s))
    { s with pwr := { s.pwr with duty := d, rpm := Config.blowerRpm d % 2 ^ 16 } }

/-- The PLLs of every domain lock, and the domains move to them in one switch. -/
def lockAll (s : State) : State :=
  let s1 := { s with clk := { s.clk with locks := s.clk.locks ||| 0x1FF, xtalOk := true, refclkOk := true, sel := 0 } }
  foldState (List.range 11) (setSrc 0) s1

/-- With too little supply no region domain is switched on, and every region reports FAILED (R414). -/
def checkSupply (s : State) : State :=
  if supplyW s < 400 then
    foldState (List.range 16) (setRgnState · .failed) { s with pwr := { s.pwr with underSupply := true } }
  else { s with pwr := { s.pwr with underSupply := false } }

/-- TAMPER_N at step 1 of start-up: a pin that went low before may be low still, and is an alarm then, or high again (R393; log entry 120). -/
def tamperAtStart (s : State) : State :=
  if !bitOf s.sec.tripping 3 then s
  else if s.freeVal.toNat % 2 = 1 then raiseAlarm 3 s.tickFree
  else { s.tickFree with sec := { s.sec with tripping := setField s.sec.tripping 3 1 0 } }

/-- Step 1 of start-up. Without XTAL25 no PLL locks, and the front end and the security block report FAILED. -/
def startUp (s : State) : State :=
  let s2 := tamperAtStart (completeEntries { s with pwr := { s.pwr with dev := .starting } })
  if s2.clk.xtalGone then setMap 2 2 (setMap 1 2 s2)
  else setBlower (checkSupply (lockAll (cisternRestore s2)))

/-- A module reset with start-up at once: hot reset, the end of a link disable, exit from the safe state (R34, R373). -/
def resetStart (s : State) : State := startUp (moduleReset false s)

def setConns (a b : Nat) (s : State) : State := { s with pwr := { s.pwr with connA := a, connB := b } }
def setDev (d : Dev) (s : State) : State := { s with pwr := { s.pwr with dev := d } }
def setWake (c : Nat) (s : State) : State := { s with oas := { s.oas with wakeCause := c } }

/-- OASIS: everything but Oasis is off, HBM contents lost (R355, R357). -/
def enterOasis (s : State) : State := setDev .oasis (moduleReset true s)

/-- PERST_ASSERT (R34, R357, R369). While 3.3Vaux is absent Oasis is in reset, and the spec does not say what an edge does then: it changes
nothing but the pin (DESIGN CHOICE, log entry 97). -/
def execPerstAssert (s : State) : Result :=
  let s0 := { s with pwr := { s.pwr with perst := true } }
  if !s.oas.powered || s.pwr.dev == .oasis then .next s0
  else if s.pwr.dev == .dormant then .next (enterOasis s0)
  else .next (moduleReset false s0)

/-- PERST_DEASSERT: start-up, from OASIS as a wake; WAKE# is released (R366, R369, R373). -/
def execPerstDeassert (conns : Senses) (upset : Option Nat) (s : State) : Result :=
  if !s.pwr.perst then .next s
  else
    let s0 := { s with
      pwr := { s.pwr with perst := false }
      oas := { s.oas with wakePin := false } }
    if !s.pwr.mainPower || !s.oas.powered || !(s.pwr.dev == .held || s.pwr.dev == .oasis) then .next s0
    else .next (startUp (cisternUpset upset (setConns conns.a conns.b (if s.pwr.dev == .oasis then setWake 2 s0 else s0))))

/-- MAIN_POWER_UP: XTAL25 starts; with PERST# already deasserted, start-up from OASIS (R342, R357, R373). -/
def execMainPowerUp (conns : Senses) (upset : Option Nat) (s : State) : Result :=
  if s.pwr.mainPower then .next s
  else
    let s0 := { s with
      pwr := { s.pwr with mainPower := true }
      clk := { s.clk with xtalGone := false } }
    if s.pwr.perst || !s.oas.powered || s.pwr.dev != .oasis then .next s0
    else .next (startUp (cisternUpset upset (setConns conns.a conns.b (setWake 0 s0))))

/-- Loss of main power (R357). -/
def powerLoss (s : State) : State :=
  let s0 := { s with pwr := { s.pwr with mainPower := false } }
  if s.pwr.dev == .oasis then s0 else enterOasis s0

/-- MAIN_POWER_LOSS. -/
def execMainPowerLoss (s : State) : Result := .next (powerLoss s)
/-- THERMAL_TRIP (R417): main power conversion is switched off. -/
def execThermalTrip (s : State) : Result := .next (if s.pwr.mainPower then powerLoss s else s)

/-- The link is up, so that a hot reset or link disable can reach the device. -/
def linkUp (s : State) : Bool := s.link.dlUp && (bar0Up s || s.pwr.dev == .dormant)

/-- HOT_RESET (R34, R373). -/
def execHotReset (s : State) : Result := .next (if linkUp s then resetStart s else s)
/-- LINK_DISABLE: the reset, and start-up at the end of the link disable (log entry 34). -/
def execLinkDisable (s : State) : Result := .next (if linkUp s then resetStart s else s)
/-- DL_DOWN that the host did not request (R270). -/
def execDlDown (s : State) : Result := .next (if linkUp s then resetStart s else s)

/-- A write of SAFE_EXIT (R405). -/
def safeExitBit (v : Nat) (s : State) : State := if s.flt.safe then resetStart s else regRefused s 0 0x050000 v

/-- SAFE_EXIT: a write of FLT_CTRL as it stands with SAFE_EXIT set. -/
def execSafeExit (s : State) : Result := regWrite 0x050000 (safeExitBit (setField (fltCtrl s) 16 1 1)) s

/-- The message of a trip leaves on vector 0 once the PCIe link and the front end run (R277, R351). -/
def sendTripIrq (s : State) : State :=
  if s.oas.tripIrq && s.link.dlUp && isReady s 1 && s.pwr.dev == .up && !s.clk.stopped.contains 7 && !s.clk.stopped.contains 8
  then raiseIrq { s with oas := { s.oas with tripIrq := false } } 0 0 else s

/-! ### Reports of the units (R374, R376, R411) -/

/-- What the host's configuration leaves set (log entry 37). -/
def applyCfg (c : HostCfg) (s : State) : State :=
  { s with link := { s.link with
    rid := c.rid.toNat
    funcs := (List.range (c.vfs + 1)).foldl (fun m f => mset m {} f { mget m {} f with memSpace := true, atsEnable := c.ats }) s.link.funcs
    vfEnable := c.vfs != 0
    numVfs := c.vfs
    relaxed := c.relaxed
    doeIrq := c.doeIrq
    bar4Log2 := 28 + c.bar4
    mps := 128 * 2 ^ c.mps.val
    mrrs := 128 * 2 ^ c.mrrs.val
    ctoOff := c.ctoOff } }

/-- LINK_TRAINED (R266, R267, R374 step 2): 64 GT/s only in FLIT mode. -/
def execLinkTrained (speed : Fin 7) (width : Fin 17) (flit : Bool) (cfg : HostCfg) (s : State) : Result :=
  if !bar0Up s || s.link.dlUp || speed = 0 || !([1, 2, 4, 8, 16].contains width.val) || (speed = 6 && !flit) then .next s
  else
    let s1 := applyCfg cfg { s with link := { s.link with speed := speed, width := width, flit := flit, dlUp := true } }
    .next (sendTripIrq (setMap 0 1 s1))

/-- FE_READY (R244, R374 step 4, R390, R391). -/
def execFeReady (s : State) : Result :=
  if s.pwr.dev != .starting || !s.sec.imageLoaded || s.flt.safe then .next s
  else
    let s1 := if s.sec.provisioning then drawSeed s else s
    let s2 := setDev .up (attestStart s1)
    .next (sendTripIrq (startAdmin (setMap 1 1 (setMap 2 1 s2))))

/-- Reserved frames at the top of each stack (R177): a die's 9,984 frames over its READY stacks. -/
def reservedShares (s : State) : List Nat :=
  (List.range 8).map (fun k =>
    let n := ((stacksOfDie (k / 4)).filter (stackReady s)).length
    if stackReady s k then 9984 / n else 0)

/-- `n` save units of a die spread evenly over its READY stacks, the lowest-numbered taking what is left over (R177). -/
def spreadUnits (s : State) (n : Nat) : List Nat :=
  (List.range 8).map (fun k =>
    let ks := (stacksOfDie (k / 4)).filter (stackReady s)
    if stackReady s k then n / ks.length + (if ks.idxOf k < n % ks.length then 1 else 0) else 0)

/-- Once every stack has reported, the reserved area is placed; a die with no READY stack cannot hold its copy (R177, R374, R377). -/
def placeReserved (s : State) : State :=
  let dead := (List.range 2).filter (fun d => (stacksOfDie d).all (fun k => !stackReady s k))
  if s.boot.reported.length < 8 then s
  else if dead.isEmpty then setMap 3 1 { s with
    mem := { s.mem with shares := reservedShares s }
    fe := { s.fe with lcFree := spreadUnits s 4096, beFree := spreadUnits s 2048 } }
  else foldState dead (fun d a => faultEvent a 3 6 d 3 noCtx 0) (setMap 3 2 s)

/-- STACK_TRAINING_DONE. -/
def execStackTrainingDone (k : Fin 8) (ok : Bool) (s : State) : Result :=
  if !bar0Up s || s.flt.safe || s.boot.reported.contains k.val || s.mem.ltaImage then .next s
  else
    let s1 := { s with boot := { s.boot with reported := k.val :: s.boot.reported } }
    if ok then .next (placeReserved (setMap (4 + k) 1 (setStack s1 k { stackAt s1 k with st := .ready })))
    else .next (placeReserved (setMap (4 + k) 2 (setStack (faultEvent s1 2 4 k 3 noCtx 0) k { stackAt s1 k with st := .failed })))

/-- STACK_READY, on exit from DORMANT: a stack that fails takes its part of the LTA image with it (R178, R358). -/
def execStackReady (k : Fin 8) (ok : Bool) (s : State) : Result :=
  if s.pwr.dev != .up || s.flt.safe || !s.mem.ltaImage || (stackAt s k).st != .training then .next s
  else if ok then
    let s1 := setMap (4 + k) 1 (setStack s k { stackAt s k with st := .ready })
    .next { s1 with mem := { s1.mem with ltaImage := (List.range 8).any (fun j => (stackAt s1 j).st == .training) } }
  else .next (faultEvent (setMap (4 + k) 2 (setStack s k { stackAt s k with st := .outOfService })) 3 4 k 4 noCtx 0)

/-- The unit's bit of the ready map. -/
def unitBit : BootUnit → Nat
  | .head h => 28 + h
  | .media e => 32 + e
  | .port b => 36 + b

/-- A head that reports ready is OFF; a restored ENABLE takes effect now (R374, R424). -/
def headReports (h : Nat) (s : State) : State :=
  let s1 := setMap (28 + h) 1 s
  if bitOf (dispCtrl s1 h) 0 && (head s1 h).st == .off then enableHead h s1 else s1

/-- A port reports failed while its cage holds a module above 16 W (R411). -/
def portReports (b : Nat) (s : State) : State :=
  setMap (36 + b) (if (mget s.net.ports {} b).lowPower then 2 else 1) (setLock (9 + b) true s)

/-- UNIT_READY (R374, R397, R398). -/
def execUnitReady (u : BootUnit) (ok : Bool) (s : State) : Result :=
  if !bar0Up s || s.flt.safe || isReady s (unitBit u) || isFailed s (unitBit u) then .next s
  else
    match u with
    | .head h => .next (if ok then headReports h s else failHead h (faultEvent s 2 0xA h 3 noCtx (head s h).frame))
    | .media e => .next (if ok then setMap (32 + e) 1 (setEngine s e { engine s e with st := .ready }) else failEngine e (faultEvent s 2 0xB e 1 noCtx 0))
    | .port b => .next (if ok then portReports b s else failPort b (faultEvent s 2 9 b 2 noCtx 0))

/-! ### DORMANT (R28, R281, R355 to R362) -/

/-- The fence a released descriptor would have signalled is marked ABANDONED in the table; its mirror follows at its completion. -/
def markFence (ctx : Nat) (d : W512) (s : State) : State :=
  if !dSignalEn d then s
  else
    match fenceFind s ctx (dSignalAddr d) with
    | some (idx, f) => setFence s idx { f with abandoned := true, cause := 5 }
    | none => s

/-- A released descriptor ends with ABORTED, DETAIL 0x0A01 (R281). -/
def endForSleep (q : Nat) (x : Queue) (e : Nat × Desc) (s : State) : State :=
  if e.2.phase != .released then s
  else
    let s1 := match e.2.launch with
      | some l => endLaunch l 5 0x0A01 s
      | none => finishDesc s q e.1 5 0x0A01 0 true
    markFence x.ctx e.2.cur s1

def endAllForSleep (s : State) : State :=
  foldState s.fe.queues (fun p a => foldState p.2.descs (endForSleep p.1 p.2) a) s

/-- Regions power down: their contents go, with the residency set; FAILED, OUT and the counts stay (R362). -/
def sleepRegions (s : State) : State :=
  let s1 := foldState (List.range 16) rgnFlush s
  { s1 with
    cores := []
    cdcs := []
    rgns := tabulate {} 16 (fun r =>
      let x := s1.rgn r
      { st := if x.st == .failed || x.st == .out then x.st else .testing
        cycles := x.cycles
        coreCerr := x.coreCerr
        cdcCerr := x.cdcCerr })
    fe := { s1.fe with residency := [] } }

/-- Units of the hub power down, keeping what R362 gives. -/
def sleepUnits (s : State) : State :=
  { s with
    heads := tabulate {} 4 (fun h => { failed := (head s h).failed, hpd := (head s h).hpd, frame := (head s h).frame, repeats := (head s h).repeats })
    engines := tabulate {} 4 (fun e => { st := if (engine s e).st == .failed then .failed else .starting, pictures := (engine s e).pictures })
    net := { s.net with
      subs := tabulate {} 4 (fun q => { dropped := (sub s q).dropped })
      jobs := [] } }

/-- The bits of units that power down are cleared, a change of the map whose record waits until the device leaves D3hot (R280, R281, R377). -/
def clearUnitBits (s : State) : State :=
  let b := { s.boot with ready := setField s.boot.ready 4 34 0, failed := setField s.boot.failed 4 34 0 }
  if b = s.boot then s else copyReady { s with boot := b }

/-- One LTA replica is copied to the reserved area, and both go with their dies (R28); stacks go to self-refresh, pads are latched, PLLs and
IBO stop. -/
def sleepRest (s : State) : State :=
  { s with
    mem := { s.mem with
      hbm := s.mem.hbm.map (fun x => if x.st == .ready then { x with st := .training } else x)
      ltaCopy := s.mem.lta
      lta := []
      ltaImage := true }
    oas := { s.oas with latched := true, padRelease := false }
    clk := { s.clk with iboReady := false, locks := 0, stopped := [], answers := [] }
    link := { s.link with d3hot := true }
    pwr := { s.pwr with dev := .dormant, beStall := false, capStall := false, capped := [], hot := [], temp0 := 0, temp1 := 0, inputW := 0 } }

/-- D3HOT_ENTRY. -/
def execD3hotEntry (s : State) : Result :=
  if !feRuns s then .next s
  else .next (clearUnitBits (sleepRest (cisternSave (sleepUnits (sleepRegions (endAllForSleep s))))))

/-- FAILED is kept across DORMANT (R362, R427). -/
def restoreFailed (s : State) : State :=
  let bad := (List.range 8).filter (fun k => (stackAt s k).st == .failed || (stackAt s k).st == .outOfService) |>.map (4 + ·)
  let badR := (List.range 16).filter (fun r => (s.rgn r).st == .failed) |>.map (12 + ·)
  let badH := (List.range 4).filter (fun h => (head s h).failed) |>.map (28 + ·)
  let badE := (List.range 4).filter (fun e => (engine s e).st == .failed) |>.map (32 + ·)
  let badP := (List.range 2).filter (fun b => (mget s.net.ports {} b).failed) |>.map (36 + ·)
  foldState (bad ++ badR ++ badH ++ badE ++ badP) (fun i a => setMap i 2 a) s

/-- Send the messages pending on a function's vectors that may leave now (R279, R280). -/
def firePending (fn : Nat) (s : State) : State :=
  foldState (mkeys s.link.pba (fun v on => on && vecFn v == fn)) (fun v a =>
    if vecOpen a v then fireVec { a with link := { a.link with pba := mset a.link.pba false v false } } v else a) s

/-- A function may issue requests again: its held records are written in order, then its pending messages are sent. -/
def resumeFn (fn : Nat) (s : State) : State := firePending fn (retryRecords fn s)

/-- Regions powered up again at too little supply report FAILED as at start-up (R414). -/
def wakeClocks (s : State) : State := endEmergency 3 (lockAll s)

/-- Both LTA replicas are reloaded from the image (R28), step 6 of R358. -/
def reloadLta (s : State) : State := { s with mem := { s.mem with lta := s.mem.ltaCopy, ltaCopy := [] } }

/-- A compare channel, and a temperature comparator, of Oasis. -/
def cmp (s : State) (n : Nat) : Cmp := mget s.oas.cmps {} n
def tempCmp (s : State) (t : Nat) : TempCmp := mget s.oas.temps {} t

/-- What may bring the device out of DORMANT (R357, R372): 1 a write of D0, 3 a compare channel that fired with WAKE, 4 a temperature comparator
that tripped with WAKE. -/
def wakeSource (s : State) (cause : Nat) : Bool :=
  cause == 1 || (cause == 3 && (List.range 4).any (fun n => (cmp s n).fired && (cmp s n).wake))
    || (cause == 4 && (List.range 2).any (fun t => (tempCmp s t).trip && (tempCmp s t).wake))

/-- DORMANT_EXIT (R358): steps 1 to 4, and step 6, since what needs the replicas waits for it (log entry 95). The flash page buffer takes its
reset value, and the trips of CLK_MON_STATUS (R8). The cause is a write of D0, a compare channel, or a temperature comparator. -/
def execDormantExit (w : WakeUp) (s : State) : Result :=
  if s.pwr.dev != .dormant || s.clk.xtalGone || !wakeSource s w.cause then .next s
  else
    let s1 := setWake w.cause (setDev .up { s with
      link := { s.link with d3hot := false }
      clk := { s.clk with mon := 0 } })
    let s2 := cisternRestore (cisternUpset w.upset (reloadLta (wakeClocks (resetPage s1))))
    let s3 := setBlower (restoreFailed (foldState [0, 1] retarget s2))
    .next (sendTripIrq (foldState (List.range 64) resumeFn (s3.send { kind := .frs })))

/-! ### OSFP modules (R411) -/

/-- OSFP_MODULE_INSERTION: a module above 16 W is held in low-power mode, and its port reports failed while it is there. -/
def execOsfpModuleInsertion (b plugged : Bool) (watts : Nat) (s : State) : Result :=
  let k := b2n b
  let low := plugged && decide (16 < watts)
  let p := mget s.net.ports {} k
  let s1 := { s with net := { s.net with ports := mset s.net.ports {} k { p with
    plugged := plugged
    watts := if plugged then watts else 0
    lowPower := low } } }
  let reported := isReady s (36 + k) || isFailed s (36 + k)
  if p.failed || !reported || !bar0Up s then .next s1
  else if low then
    .next (setMap (36 + k) 2 (foldState [2 * k, 2 * k + 1] (fun q a => setSub a q (linkDown (sub a q))) s1))
  else .next (setMap (36 + k) 1 s1)

end Sys2Proof.Machine
end

