-- ==== Sys2Proof/Machine/Clocks.lean ====
section
/-! DEFINITION. Clocks, their monitors, power and heat (R57, R61, R63, R342 to R354, R359, R371, R415, R418). -/

namespace Sys2Proof.Machine

/-! ### What a trip does (R351, R353, R354) -/

/-- Units stop with XTAL25: every sub-port's link goes down, every enabled head reads LINK_FAILED with its timing stopped, and stays so until
software sets RETRAIN (R318, R351). -/
def stopHead (h : Nat) (st : HeadState) (s : State) : State :=
  let x := head s h
  if x.st == .off then s
  else setHead s h { x with
    st := if x.st == .linkFailed then .linkFailed else st, timingStopped := true, startStamp := none, shown := none, line := headLine s h }
def stopPort (b : Nat) (s : State) : State :=
  foldState [2 * b, 2 * b + 1] (fun q a => setSub a q (linkDown (sub a q))) s
def stopAllUnits (s : State) : State := foldState [0, 1] stopPort (foldState (List.range 4) (fun h a => stopHead h .linkFailed a) s)

/-- The latches of a trip: its bit of CLK_MON_STATUS, CLK_TRIP, and the message to send. -/
def tripLatch (bit : Nat) (s : State) : State :=
  { s with
    clk := { s.clk with mon := setField s.clk.mon bit 1 1 }
    oas := { s.oas with clkTrip := true, tripIrq := true } }

/-- The record of a trip, and its alarm where it is a severe clock-monitor event (R351, R393, R398). -/
def tripRecord (unit : Nat) (severe : Bool) (s : State) : State :=
  let s1 := faultEvent s 0 8 unit 1 noCtx 0
  if severe then raiseAlarm 2 s1 else s1

/-- The answer to a trip once its domains run on IBO (R351, R354): the record and the alarm; for the XTAL set a clock emergency (R61, DETAIL
0x0003), with the ports and heads stopped where XTAL25 is lost; for PCIE_CLK the link goes down, which R270 answers as a module reset. -/
def answerTrip (a : TripAnswer) (s : State) : State :=
  let s1 := tripRecord a.unit a.severe s
  match a.kind with
  | .xtalSet => beginEmergency 3 (fun _ => true) s1
  | .xtal => stopAllUnits (beginEmergency 3 (fun _ => true) s1)
  | .pcie => resetStart s1

/-- Oasis takes the device to the safe state (R354, step 4', R404): its record and those of the trips wait for HFAB_CLK, and a stopped PCIE_CLK
takes the link down. -/
def oasisSafe (s : State) : State :=
  let s1 := if s.clk.stopped.contains 6 then
      (if s.flt.safe then s else
        let t := enterSafe s
        { t with clk := { t.clk with owed := true } })
    else
      let t := foldState s.clk.answers (fun a b => tripRecord a.unit a.severe b) { s with clk := { s.clk with answers := [] } }
      faultEvent t 3 8 s.clk.waitUnit 2 noCtx 0
  if s.clk.stopped.contains 8 then { s1 with link := { s1.link with dlUp := false, speed := 0, width := 0, flit := false } } else s1

/-- The domains that a trip moves: the XTAL set, or PCIE_CLK. -/
def tripDomains (k : TripKind) : List Nat :=
  match k with
  | .pcie => [8]
  | _ => xtalSet

/-- Domains move to IBO and the answer follows; or they stop, and it waits until IBO is ready (R354). IBO_FAULT leaves no fallback. -/
def fallBack (a : TripAnswer) (s : State) : State :=
  let ds := (tripDomains a.kind).filter (fun k => clkCur s k != 1 || s.clk.stopped.contains k)
  if ds.isEmpty then answerTrip a s
  else if s.clk.iboReady then answerTrip a (foldState ds (setSrc 1) s)
  else
    let s1 := foldState ds stopDomain { s with
      oas := { s.oas with iboStarting := true }
      clk := { s.clk with waitUnit := a.unit, answers := s.clk.answers ++ [a] } }
    if s1.clk.iboFault then oasisSafe s1 else s1

/-- A monitor's trip: the latches, then the fall back. -/
def trip (bit : Nat) (a : TripAnswer) (s : State) : State := sendTripIrq (fallBack a (tripLatch bit s))

/-- XTAL25 is lost. -/
def loseXtal (s : State) : State := { s with clk := { s.clk with xtalOk := false, xtalGone := true } }

/-- The monitors' windows, in cycles of the reference, and the counts they accept (R350): XTAL, XTAL_LPO, REFCLK, IBO. The row of a monitor
stands for a window whose count it does not accept, so it carries no count. -/
def monWindow (m : Nat) : Nat := [1024, 8, 256, 8].getD m 0
def monAccepts (m n : Nat) : Bool :=
  decide ([58, 5493, 1008, 87891].getD m 0 ≤ n) && decide (n ≤ [71, 6714, 1034, 107422].getD m 0)

/-- XTAL_TRIP: in a window of IBO, which the monitor runs against, XTAL25 gave a count that the monitor does not accept (R350). -/
def execXtalTrip (s : State) : Result :=
  if !bar0Up s || !s.clk.xtalOk || !s.clk.iboReady then .next s
  else .next (trip 0 ⟨0, true, .xtal⟩ (loseXtal s))

/-- XTAL_LPO_TRIP: XTAL25 watched against LPO while IBO is not ready; in DORMANT no domain runs from it. -/
def execXtalLpoTrip (s : State) : Result :=
  if !latchesAlarms s || s.clk.xtalGone || s.clk.iboReady then .next s
  else if s.pwr.dev == .dormant then .next (tripRecord 1 true (tripLatch 1 (loseXtal s)))
  else .next (trip 1 ⟨1, true, .xtal⟩ (loseXtal s))

/-- REFCLK_TRIP, against XTAL25. In DORMANT, where IBO stands, PCIE_CLK has no source left and the link goes down at once (log entry 43). -/
def execRefclkTrip (s : State) : Result :=
  let s1 := { s with clk := { s.clk with refclkOk := false } }
  if !s.clk.refclkOk || !s.clk.xtalOk then .next s
  else if s.pwr.dev == .dormant then .next (answerTrip ⟨2, true, .pcie⟩ (tripLatch 2 s1))
  else if bar0Up s then .next (trip 2 ⟨2, true, .pcie⟩ s1)
  else .next s

/-- IBO_TRIP: IBO is stopped and started once again; a second trip sets IBO_FAULT. -/
def execIboTrip (s : State) : Result :=
  if !bar0Up s || !s.clk.iboReady then .next s
  else
    let s1 := sendTripIrq (tripRecord 3 false (tripLatch 3 s))
    .next { s1 with clk := { s1.clk with iboReady := false, iboFault := s1.clk.iboTrips != 0, iboTrips := s1.clk.iboTrips + 1 } }

/-- LOCK_TRIP: an Ethernet or pixel PLL stops its port or head; any other PLL its domains (R351). -/
def execLockTrip (pll : Fin 15) (s : State) : Result :=
  if !bar0Up s || !bitOf s.clk.locks pll then .next s
  else
    let s1 := setLock pll false s
    let rec_ := fun (a : State) => faultEvent a 0 8 (4 + pll) 1 noCtx 0
    if pll.val = 6 then .next (trip 4 ⟨10, false, .pcie⟩ s1)
    else if pll.val ≤ 8 then .next (trip 4 ⟨4 + pll, false, .xtalSet⟩ s1)
    else if pll.val ≤ 10 then .next (stopPort (pll - 9) (rec_ s1))
    else .next (stopHead (pll - 11) (if s.clk.xtalOk then .training else .linkFailed) (rec_ s1))

/-- A head's timing generator restarts at line 0 of a new frame (R318). -/
def restartHead (h : Nat) (s : State) : State :=
  let x := head s h
  if x.st == .off || !x.timingStopped then s else setHead s h { x with timingStopped := false, line := 0 }

/-- PLL_RELOCK: a PLL with its reference locks again. -/
def execPllRelock (pll : Fin 15) (s : State) : Result :=
  let ref := if pll.val = 6 then s.clk.refclkOk else s.clk.xtalOk
  if !bar0Up s || !ref then .next s
  else
    let s1 := setLock pll true s
    .next (if 11 ≤ pll.val then restartHead (pll - 11) s1 else s1)

/-- PLL_RELOCK_TIMEOUT: class F for the port or head; no limit runs while XTAL25 is absent (R351, R427). -/
def execPllRelockTimeout (pll : Fin 15) (s : State) : Result :=
  if !bar0Up s || !s.clk.xtalOk || bitOf s.clk.locks pll || s.flt.safe then .next s
  else if 11 ≤ pll.val then
    let h := pll.val - 11
    .next (if (head s h).st == .off then s else failHead h (faultEvent s 2 0xA h 2 noCtx (head s h).frame))
  else if 9 ≤ pll.val then
    let b := pll.val - 9
    .next (if isReady s (36 + b) then failPort b (faultEvent s 2 9 b 1 noCtx 0) else s)
  else .next s

/-- XTAL25_RESTART (R351, R352): XTAL_OK rises, and the PLLs it feeds lock; domains stay on IBO until software moves them. -/
def execXtal25Restart (s : State) : Result :=
  if !s.clk.xtalGone || s.pwr.dev == .oasis then .next s
  else
    let s0 := { s with clk := { s.clk with xtalGone := false } }
    if !bar0Up s then .next s0
    else
      let s1 := foldState [0, 1, 2, 3, 4, 5, 7, 8] (fun p a => setLock p true a) { s0 with clk := { s0.clk with xtalOk := true } }
      let s2 := foldState [0, 1] (fun b a => if isReady a (36 + b) then setLock (9 + b) true a else a) s1
      .next (foldState (List.range 4) (fun h a => if (head a h).st == .off then a else restartHead h (setLock (11 + h) true a)) s2)

/-- The safe-state record that Oasis owes is entered once HFAB_CLK runs (R404). -/
def enterOwed (s : State) : State :=
  if s.clk.owed then
    let s1 := { s with clk := { s.clk with owed := false } }
    signalFault (newRecord s1 3 false 8 s1.clk.waitUnit 2 noCtx 0) 3 noCtx
  else s

/-- IBO_READY (R342, R354): stopped domains start on IBO, the answers to their trips follow, and the record owed is entered. -/
def execIboReady (s : State) : Result :=
  if !bar0Up s || s.clk.iboReady || s.clk.iboFault then .next s
  else
    let s1 := foldState s.clk.stopped (setSrc 1) { s with clk := { s.clk with iboReady := true, answers := [] } }
    .next (sendTripIrq (enterOwed (foldState s.clk.answers answerTrip s1)))

/-- IBO_START_TIMEOUT (R354). -/
def execIboStartTimeout (s : State) : Result :=
  if s.clk.stopped.isEmpty || s.clk.iboReady || s.flt.safe then .next s else .next (oasisSafe s)

/-! ### Registers of the CLK block (R346, R352, R353, R370) -/

/-- The PLL of a domain, by its LOCK bit. -/
def domainPll (k : Nat) : Nat := [0, 1, 2, 3, 2, 3, 4, 5, 6, 7, 8].getD k 0

/-- A source that a domain may be switched to. -/
def sourceOk (s : State) (k v : Nat) : Bool :=
  if v = 0 then bitOf s.clk.locks (domainPll k) else if v = 1 then s.clk.iboReady else v == 2 && k != 8 && s.clk.xtalOk

/-- A write of CLK_SRC: the domains whose source differs switch together, or nothing does. -/
def writeClkSrc (v : Nat) (s : State) : State :=
  let ks := (List.range 11).filter (fun k => field v (2 * k) 2 != clkCur s k || s.clk.stopped.contains k)
  let reserved := (List.range 11).any (fun k => field v (2 * k) 2 == 3) || field v 16 2 == 2
  if s.clk.switching || reserved || !(ks.all (fun k => sourceOk s k (field v (2 * k) 2))) then
    regRefused { s with clk := { s.clk with mon := setField s.clk.mon 5 1 1 } } 0 0x030000 v
  else
    let s1 := foldState ks (fun k a => setSrc (field v (2 * k) 2) k a) { s with clk := { s.clk with sel := field v 0 22 } }
    if xtalSet.any (fun k => clkCur s1 k == 1 || s1.clk.stopped.contains k) then s1 else endEmergency 3 s1

/-- CLOCK_SWITCH. -/
def execClockSwitch (v : W32) (s : State) : Result := regWrite 0x030000 (writeClkSrc v.toNat) s

/-- A write of CLK_CORE_CTRL_d: one that sets CORE_MAX below 2,200 MHz needs LC work disabled and idle. -/
def writeCoreCtrl (d v : Nat) (s : State) : State :=
  if 25 * clampN 16 104 (field v 0 7) < 2200 && !lcIdle s then regRefused s 0 (0x030010 + 4 * d) v
  else retarget d (wr s (0x030010 + 4 * d) (v &&& 0x7F7F))

/-- CORE_CTRL_WRITE. -/
def execCoreCtrlWrite (die : Fin 2) (v : W32) (s : State) : Result := regWrite (0x030010 + 4 * die) (writeCoreCtrl die v.toNat) s

def writeFabCtrl (v : Nat) (s : State) : State := if lcIdle s then wr s 0x030020 (v &&& 0x7F7F) else regRefused s 0 0x030020 v
/-- FAB_CTRL_WRITE. -/
def execFabCtrlWrite (v : W32) (s : State) : Result := regWrite 0x030020 (writeFabCtrl v.toNat) s

/-- A write of CLK_FE_CTRL; FE_DIV 3 is discarded whole. -/
def writeFeCtrl (v : Nat) (s : State) : State :=
  if lcIdle s && v % 4 != 3 then wr s 0x030024 (v % 4) else regRefused s 0 0x030024 v
/-- FE_CTRL_WRITE. -/
def execFeCtrlWrite (v : W32) (s : State) : Result := regWrite 0x030024 (writeFeCtrl v.toNat) s

/-- Clock settings that bar LC work (R346). -/
def clocksShort (s : State) : Bool :=
  decide (coreMax s 0 < 2200) || decide (coreMax s 1 < 2200) || decide (clampN 32 64 (field (rd s 0x030020) 0 7) < 64)
    || decide (clampN 32 64 (field (rd s 0x030020) 8 7) < 64) || rd s 0x030024 % 4 != 0

/-- A write of CLK_MON_STATUS: trips clear by writing 1; IBO_FAULT is read only. -/
def writeClkMon (v : Nat) (s : State) : State :=
  { s with clk := { s.clk with mon := (List.range 6).foldl (fun a k => if bitOf v k then setField a k 1 0 else a) s.clk.mon } }

/-! ### Heat, supply and the brake (R63, R348, R371, R414, R415, R418) -/

/-- A die's clock is lowered as far as needed, never raised; the PLL's frequency is what the event reports. -/
def lowerDie (mhz d : Nat) (s : State) : State :=
  if clkCur s d = 0 && !s.clk.stopped.contains d then setMhz d (min (coreMhz s d) (max 400 mhz)) s else s

/-- The stall of BE issue follows the hottest junction. -/
def heatStall (s : State) : State := { s with pwr := { s.pwr with beStall := decide (limitC s ≤ hottest s) } }

/-- The junction temperature of a die. -/
def setJunction (d t : Nat) (s : State) : State :=
  if d = 0 then { s with pwr := { s.pwr with temp0 := t } } else { s with pwr := { s.pwr with temp1 := t } }

/-- THERMAL_LIMIT_REACHED: BE issue stalls at LIMIT_C; at LIMIT_C + 3 the die's clock goes down to `mhz`. -/
def execThermalLimitReached (die : Fin 2) (temp : Byte) (mhz : Nat) (s : State) : Result :=
  if !bar0Up s || temp.toNat < limitC s then .next s
  else
    let s1 := setBlower (heatStall (setJunction die temp.toNat s))
    if temp.toNat < limitC s + 3 then .next s1
    else
      let s2 := { s1 with pwr := { s1.pwr with hot := if s1.pwr.hot.contains die.val then s1.pwr.hot else s1.pwr.hot ++ [die.val] } }
      .next (watchHeat (lowerDie mhz die s2))

/-- THERMAL_LIMIT_CLEARED. -/
def execThermalLimitCleared (die : Fin 2) (temp : Byte) (s : State) : Result :=
  if !bar0Up s || limitC s + 3 ≤ temp.toNat then .next s
  else
    let s1 := heatStall (setJunction die temp.toNat s)
    .next (setBlower (retarget die { s1 with pwr := { s1.pwr with hot := s1.pwr.hot.filter (· != die.val) } }))

/-- THERMAL_EMERGENCY_END: the junction has stayed below LIMIT_C − 5 °C for 10 ms. -/
def execThermalEmergencyEnd (s : State) : Result := .next (endEmergency 1 s)

/-- A write of PWR_THERMAL: the stall follows the new limit. -/
def writeThermal (v : Nat) (s : State) : State := heatStall (wr s 0x040014 (field v 0 8))

/-- The brake engages (R415): every admitted LC launch it makes late carries DETAIL 0x0002. -/
def engageBrake (cause mhz : Nat) (s : State) : State :=
  if s.pwr.brake then s
  else
    let s1 := { s with pwr := { s.pwr with brake := true, brakeCause := cause, brakeCount := min 255 (s.pwr.brakeCount + 1) } }
    foldState [0, 1] (lowerDie mhz) (beginEmergency 2 (fun _ => true) s1)

/-- PWRBRK_N_LOW and INPUT_OVERCURRENT; `mhz` is the clock that BRAKE_W leaves. -/
def execPwrbrkNLow (mhz : Nat) (s : State) : Result := .next (if bar0Up s then engageBrake 0 mhz s else s)
def execInputOvercurrent (mhz : Nat) (s : State) : Result := .next (if bar0Up s then engageBrake 1 mhz s else s)

/-- BRAKE_RELEASE. -/
def execBrakeRelease (s : State) : Result :=
  if !s.pwr.brake then .next s
  else .next (foldState [0, 1] retarget (endEmergency 2 { s with pwr := { s.pwr with brake := false } }))

/-- BRAKE_W as it acts (R420). -/
def brakeW (s : State) : Nat := clampN 150 400 (field (rd s 0x04001C) 0 10)

/-- BLOWER_STALL: not a fault; CT880-M288-L has no blower (R2, R418). -/
def execBlowerStall (rpm : BitVec 16) (s : State) : Result :=
  .next (if Config.strapVariant = 0#2 && bar0Up s then { s with pwr := { s.pwr with stalled := true, rpm := rpm.toNat } } else s)

/-- A write of PWR_CAP: it holds at once for new admissions; the earlier cap is kept for those it does not fit. -/
def writeCap (v : Nat) (s : State) : State :=
  let old := drawLimit s
  let s1 := wr s 0x040000 (field v 0 10)
  capWatch { s1 with fe := { s1.fe with heldCap := old } }

/-- CAP_WRITE. -/
def execCapWrite (v : W32) (s : State) : Result := regWrite 0x040000 (writeCap v.toNat) s

/-! ### Power domains (R35, R355) -/

/-- The power domains, by the groups of their table: 171 in all. The display group counts heads 0 to 3, composition and writeback. -/
inductive PDomain where
  | cluster (k : Fin 128)
  | regionFabric (r : Fin 16)
  | dieUncore (d : Fin 2)
  | hbmPhy (k : Fin 8)
  | frontEnd
  | pcie
  | ethPort (b : Fin 2)
  | display (n : Fin 6)
  | media (e : Fin 4)
  | security
  | hubFabric
  | oasis
  deriving DecidableEq, Repr

inductive PState where
  | off | retention | on
  deriving DecidableEq, Repr

/-- Every power domain, in the order of the table. -/
def allDomains : List PDomain :=
  (List.finRange 128).map .cluster ++ (List.finRange 16).map .regionFabric ++ (List.finRange 2).map .dieUncore ++ (List.finRange 8).map .hbmPhy
    ++ [.frontEnd, .pcie] ++ (List.finRange 2).map .ethPort ++ (List.finRange 6).map .display ++ (List.finRange 4).map .media
    ++ [.security, .hubFabric, .oasis]

/-- Domains go up in rising order of rank and down in falling order (R35). -/
def powerRank (p : PDomain) : Nat :=
  match p with
  | .dieUncore _ => 0
  | .regionFabric _ => 1
  | .cluster _ => 2
  | _ => 0

/-- A region's domains are switched on: outside NAP, and with supply enough for regions (R356, R414). -/
def rgnOn (s : State) (r : Nat) : Bool := !(s.rgn r).napping && !s.pwr.underSupply
/-- A media queue is live (R355). -/
def mediaLive (s : State) : Bool := s.fe.queues.any (fun q => q.2.typ == 3 && q.2.st != .destroyed)
def onIf (b : Bool) : PState := if b then .on else .off

/-- The state of a domain with main power and PERST# released, in DORMANT, and in OASIS (R355). The device under reset is taken as ACTIVE
(DESIGN CHOICE, log entry 121). -/
def domainState (s : State) (p : PDomain) : PState :=
  match s.pwr.dev with
  | .oasis => (match p with
    | .oasis => onIf s.oas.powered
    | _ => .off)
  | .dormant => (match p with
    | .hbmPhy _ => .retention
    | .frontEnd => .retention
    | .pcie => .on
    | .security => .on
    | .oasis => onIf s.oas.powered
    | _ => .off)
  | _ => (match p with
    | .cluster k => onIf (rgnOn s (k / 8))
    | .regionFabric r => onIf (rgnOn s r)
    | .ethPort b => onIf (subEnabled s (2 * b) || subEnabled s (2 * b + 1))
    | .display n => onIf (if n.val < 4 then (head s n).st != .off else (List.range 4).any (fun h => (head s h).st != .off))
    | .media _ => onIf (mediaLive s)
    | .oasis => onIf s.oas.powered
    | _ => .on)

/-! ### Voltages (R359), in mV -/

/-- VDD_CORE of a die: linear between the corners of the table; 0 while it is off. -/
def vddCore (s : State) (d : Nat) : Nat :=
  let f := coreMhz s d
  if !bar0Up s then 0
  else if 1800 ≤ f then 720 + (f - 1800) * 130 / 800 else 600 + (f - 400) * 120 / 1400
/-- VDD_SRAM of a die, and whether its read and write assists are on; in DORMANT the front-end memory's retention supply. -/
def vddSram (s : State) (d : Nat) : Nat := if !bar0Up s then (if s.pwr.dev == .dormant then 550 else 0) else if 1800 ≤ coreMhz s d then 850 else 700
def sramAssist (s : State) (d : Nat) : Bool := bar0Up s && decide (coreMhz s d < 1800)
/-- How far read assist lowers the word line, and write assist the bit line below ground. -/
def readAssist (s : State) (d : Nat) : Nat := if sramAssist s d then 40 else 0
def writeAssist (s : State) (d : Nat) : Nat := if sramAssist s d then 100 else 0
/-- A region's core supply and its tile stores' supply: off, and 0.55 V for retention, while it naps. -/
def rgnCore (s : State) (r : Nat) : Nat := if (s.rgn r).napping then 0 else vddCore s (r / 8)
def rgnSram (s : State) (r : Nat) : Nat := if bar0Up s && (s.rgn r).napping then 550 else if bar0Up s then vddSram s (r / 8) else 0
/-- The reverse body bias of a region's tile-store arrays, and of the front-end SRAM arrays. -/
def rgnBias (s : State) (r : Nat) : Nat := if bar0Up s && (s.rgn r).napping then 350 else 0
def feBias (s : State) : Nat := if s.pwr.dev == .dormant then 350 else 0
/-- VDD_HUB (in DORMANT for PCIe and security only), and VDD_OAS from 3.3Vaux. -/
def vddHub (s : State) : Nat :=
  match s.pwr.dev with
  | .oasis => 0
  | .dormant => 650
  | _ => 750
def vddOas (s : State) : Nat := if s.oas.powered then 800 else 0

end Sys2Proof.Machine
end

