-- ==== Sys2Proof/Machine/GfxData.lean ====
section
/-! DEFINITION. What tile rendering computes (R126, R128 to R131, R133, R134, R138 to R140, R143 to R145, R148): draw lists, batches,
setup, bin area, footprints, coverage, texels, depth, stencil and blend. -/

namespace Sys2Proof.Machine

/-! ### Memory of the launch's context -/

/-- Read local bytes; a range that does not translate reads as nothing (its translation is checked first). -/
def peek (s : State) (k : Ctx) (va n : Nat) : List Byte := readPieces s (walkVa s k false 0 va n false).pieces
def peekN (s : State) (k : Ctx) (va n : Nat) : Nat := ofLe (peek s k va n)
def poke (s : State) (k : Ctx) (va : Nat) (bs : List Byte) : State := writePieces s (walkVa s k false 0 va bs.length true).pieces bs

/-- Write over the bridge between the cores of die `d` and its fabric (R349). -/
def pokeOver (d : Nat) (k : Ctx) (va : Nat) (bs : List Byte) (s : State) : State :=
  tickCross (coreRatio s d) bs.length (poke s k va (crossed (coreRatio s d) s bs))
/-- Bytes put into the tile store of core `c` over that bridge (R349). -/
def putOver (c a : Nat) (bs : List Byte) (s : State) : State :=
  tickCross (coreRatio s (c / 256)) bs.length (putTs s c a (crossed (coreRatio s (c / 256)) s bs))

/-- The first range (address, length, write) that does not translate: its address and DETAIL (R197). -/
def rangeBad (s : State) (k : Ctx) (rs : List (Nat × Nat × Bool)) : Option (Nat × Nat) :=
  rs.findSome? (fun r => match (walkVa s k false 0 r.1 r.2.1 r.2.2).stop with
    | none => none
    | some (.bad _ d) => some (r.1, d)
    | some _ => some (r.1, 0x0703))

def argAt (x : Launch) (slot : Nat) : Nat := x.args.getD slot 0

/-! ### Draw lists and batches (R126, R133, R151) -/

/-- DRAW_COUNT of a list; one above 65,536 is taken as 65,536 (DESIGN CHOICE, log entry 113). -/
def drawCount (s : State) (k : Ctx) (va : Nat) : Nat := min (peekN s k va 4) 65536

def readDraw (s : State) (k : Ctx) (va : Nat) : Draw :=
  let w := peekN s k va 32
  ⟨field w 0 64, field w 64 32, bitOf w 96, bitOf w 97, field w 128 64, field w 192 32⟩

/-- The draws of a pass: none without an admissible submission (R124, R149). -/
def drawsOf (s : State) (k : Ctx) (x : Launch) (p : PassRec) : List Draw :=
  if p.submitMax = 0 then []
  else
    let va := argAt x p.argDraws
    (List.range (drawCount s k va)).map (fun i => readDraw s k (va + 32 + 32 * i))

/-- A batch: its draw, the draw's first primitive in it, how many, and the SEQ of the first. -/
abbrev Batch := Nat × Nat × Nat × Nat

/-- Batches of 1,024 primitives in SEQ order; a draw's first batch starts a batch (R133, R151; log entry 31). -/
def batchesOf (ds : List Draw) : List Batch :=
  (ds.zipIdx.foldl (fun (a : List Batch × Nat) d =>
    (a.1 ++ (List.range (ceilDiv d.1.prims 1024)).map (fun j => (d.2, 1024 * j, min 1024 (d.1.prims - 1024 * j), a.2 + 1024 * j)), a.2 + d.1.prims))
    ([], 0)).1

/-- Positions in the index array of primitive `n` of a draw. -/
def primIdx (d : Draw) (n : Nat) : List Nat :=
  if d.strip then (if n % 2 = 0 then [n, n + 1, n + 2] else [n + 1, n, n + 2]) else [3 * n, 3 * n + 1, 3 * n + 2]

def idxSize (d : Draw) : Nat := if d.wide then 4 else 2
def readIdx (s : State) (k : Ctx) (d : Draw) (j : Nat) : Nat := peekN s k (d.idx + j * idxSize d) (idxSize d)

/-- Index arrays of a batch's primitives. -/
def batchIdxRange (d : Draw) (b : Batch) : Nat × Nat × Bool :=
  if d.strip then (d.idx + b.2.1 * idxSize d, (b.2.2.1 + 2) * idxSize d, false)
  else (d.idx + 3 * b.2.1 * idxSize d, 3 * b.2.2.1 * idxSize d, false)

/-- The vertices of a batch, three to a primitive; none for a primitive with an index at or above VERTEX_COUNT (R126). -/
def batchVerts (s : State) (k : Ctx) (d : Draw) (b : Batch) : List (Option Nat) :=
  (List.range b.2.2.1).flatMap (fun n =>
    let ids := (primIdx d (b.2.1 + n)).map (readIdx s k d)
    if ids.all (fun i => decide (i < d.count)) then ids.map some else [none, none, none])

/-- Vertex items of 32 lanes. -/
def batchItems (pass : Nat) (b : Batch) (vs : List (Option Nat)) : List GItem :=
  (List.range (ceilDiv vs.length 32)).map (fun j =>
    { kind := 0, pass := pass, draw := b.1, num := 32 * j, verts := (vs.drop (32 * j)).take 32 })

/-! ### Setup (R133) -/

def posWords (p : Prim) : List Nat := p.vtx.flatMap (fun v => (v.take 4).map (·.toNat))

/-- An exact homogeneous position: x, y and z, and w, scaled alike. -/
abbrev Clip := Int × Int × Int × Int

/-- A finite FP32 code times 2^149. -/
def fixed149 (w : Nat) : Option Int :=
  match decodeF fp32 w with
  | .fin m e => some (shiftI m (e + 149))
  | _ => none

/-- The three positions of a primitive, if all are finite. -/
def clipPos (q : Prim) : Option (List Clip) :=
  q.vtx.mapM (fun v =>
    match (v.take 4).map (fun c => fixed149 c.toNat) with
    | [some x, some y, some z, some w] => some (x, y, z, w)
    | _ => none)

/-- Window coordinates in 1/256 pixel, still homogeneous: the map of a clip position is linear, its coefficients open (log entry 93). -/
def toWindow (p : PassRec) (v : Clip) : Clip :=
  let k := Config.viewport p.width p.height
  (k.1 * v.1 + k.2.1 * v.2.2.2, k.2.2.1 * v.2.1 + k.2.2.2 * v.2.2.2, v.2.2.1, v.2.2.2)

/-- Clip a polygon to the points at which a linear form is not negative; both weights of a crossing point are positive. -/
def clipBy (f : Clip → Int) (l : List Clip) : List Clip :=
  (l.zip (l.drop 1 ++ l.take 1)).flatMap (fun e =>
    let a := f e.1
    let b := f e.2
    let mix := fun (u v : Int) => a.natAbs * v + b.natAbs * u
    let cut := (mix e.1.1 e.2.1, mix e.1.2.1 e.2.2.1, mix e.1.2.2.1 e.2.2.2.1, mix e.1.2.2.2 e.2.2.2.2)
    (if 0 ≤ a then [e.1] else []) ++ (if (0 < a && b < 0) || (a < 0 && 0 < b) then [cut] else []))

/-- The guard band of ±32,768 pixels, in 1/256 pixel. -/
def guardBand : Int := 8388608

/-- The half-spaces setup clips to: the guard band, and without DEPTH_CLAMP the depth range (R133). -/
def clipForms (p : PassRec) : List (Clip → Int) :=
  [fun v => guardBand * v.2.2.2 - v.1, fun v => guardBand * v.2.2.2 + v.1, fun v => guardBand * v.2.2.2 - v.2.1, fun v => guardBand * v.2.2.2 + v.2.1]
    ++ (if p.depthClamp then [] else [fun v => v.2.2.1, fun v => v.2.2.2 - v.2.2.1])

/-- Snap `n / d` to an integer: exact where it is one, else one of its two neighbours (which is open, log entry 93). -/
def snap (n d : Int) : Int := if n % d = 0 then n / d else n / d + (if Config.snapUp n d then 1 else 0)

/-- Corners in 1/256 pixel, y downward: clipped and snapped (R133). Positions that are not finite leave them open. -/
def polyOf (p : PassRec) (q : Prim) : List (Int × Int) :=
  match clipPos q with
  | none => Config.setupPoly ([p.width, p.height, b2n p.depthClamp] ++ posWords q)
  | some vs => (((clipForms p).foldl (fun l f => clipBy f l) (vs.map (toWindow p))).filter (fun v => decide (0 < v.2.2.2))).map
      (fun v => (snap v.1 v.2.2.2, snap v.2.1 v.2.2.2))

def cross (a b : Int × Int) : Int := a.1 * b.2 - b.1 * a.2
/-- Edges of a polygon, each corner with the next. -/
def edges (l : List (Int × Int)) : List ((Int × Int) × (Int × Int)) := l.zip (l.drop 1 ++ l.take 1)
/-- Twice the signed area: positive when the corners run clockwise on the screen. -/
def area2 (l : List (Int × Int)) : Int := ((edges l).map (fun e => cross e.1 e.2)).sum

def minOf (l : List Int) : Int := l.foldl min (l.headD 0)
def maxOf (l : List Int) : Int := l.foldl max (l.headD 0)

/-- Whether the bounding box overlaps the pixels `[x0, x1) × [y0, y1)`. -/
def boxMeets (l : List (Int × Int)) (x0 y0 x1 y1 : Int) : Bool :=
  let xs := l.map (·.1)
  let ys := l.map (·.2)
  decide (minOf xs < 256 * x1) && decide (256 * x0 ≤ maxOf xs) && decide (minOf ys < 256 * y1) && decide (256 * y0 ≤ maxOf ys)

/-- Whether an edge of a polygon leaves all of the pixels `[0, w) × [0, h)` outside. -/
def edgeParts (l : List (Int × Int)) (w h : Int) : Bool :=
  let c := if area2 l < 0 then l.reverse else l
  (edges c).any (fun e => [(0, 0), (256 * w, 0), (0, 256 * h), (256 * w, 256 * h)].all (fun v =>
    decide ((e.2.1 - e.1.1) * (v.2 - e.1.2) - (e.2.2 - e.1.2) * (v.1 - e.1.1) < 0)))

/-- Whether a primitive survives: not of zero area, not culled by its facing, not wholly outside the render area. -/
def survives (p : PassRec) (q : Prim) : Bool :=
  let l := polyOf p q
  let front := decide (0 < area2 l) == p.frontCw
  area2 l != 0 && !(p.cull == 1 && !front) && !(p.cull == 2 && front) && boxMeets l 0 0 p.width p.height && !edgeParts l p.width p.height

/-! ### Tiles (R129 to R131, R148) -/

def tilesX (p : PassRec) : Nat := ceilDiv p.width (tileW p)
/-- First pixel of a tile. -/
def tileX (p : PassRec) (t : Nat) : Nat := t % tilesX p * tileW p
def tileY (p : PassRec) (t : Nat) : Nat := t / tilesX p * tileH p

def inExtent (p : PassRec) (t : Nat) (l : List (Int × Int)) : Bool :=
  let h : Int := p.halo
  boxMeets l (tileX p t - h) (tileY p t - h) (tileX p t + tileW p + h) (tileY p t + tileH p + h)

/-- Tiles whose extent a primitive's bounding box overlaps. -/
def tilesMet (p : PassRec) (q : Prim) : List Nat := (List.range (passTiles p)).filter (fun t => inExtent p t (polyOf p q))

/-- Pixels of a tile's extent inside the render area, as (column in the extent, row, x, y). -/
def extentPixels (p : PassRec) (t : Nat) : List (Nat × Nat × Nat × Nat) :=
  (List.range (extH p)).flatMap (fun j => (List.range (extW p)).filterMap (fun i =>
    let x := tileX p t + i
    let y := tileY p t + j
    if p.halo ≤ x && p.halo ≤ y && x - p.halo < p.width && y - p.halo < p.height then some (i, j, x - p.halo, y - p.halo) else none))

/-- Those of the tile itself. -/
def ownPixels (p : PassRec) (t : Nat) : List (Nat × Nat × Nat × Nat) :=
  (extentPixels p t).filter (fun e => decide (p.halo ≤ e.1) && decide (e.1 < p.halo + tileW p) && decide (p.halo ≤ e.2.1) && decide (e.2.1 < p.halo + tileH p))

/-- Tile-store address of a sample of attachment `a` in a slot (R130). -/
def sampleAddr (p : PassRec) (slot a i j smp : Nat) : Nat :=
  let before := ((p.attach.take a).map (fun e => layoutBytes e.layout * passSamples p)).sum
  let n := layoutBytes ((p.attach[a]?.map (·.layout)).getD 0)
  slot * slotBytes p + tilePixels p * before + ((j * extW p + i) * passSamples p + smp) * n

/-- Device address of a sample of a surface: one plane to a sample (R144). -/
def surfAddr (p : PassRec) (a : Attach) (va smp x y : Nat) : Nat := va + smp * a.pitch * p.height + y * a.pitch + x * layoutBytes a.layout

/-! ### Bin area and primitive buffer (R134) -/

def poolChunks (p : PassRec) : Nat := ceilDiv p.binEntries 63 + passTiles p
def binStride (p : PassRec) : Nat := roundUp (passTiles p * 160 + poolChunks p * 512) 65536
def binBase (x : Launch) (p : PassRec) (rel : Nat) : Nat := argAt x p.argBins + rel * binStride p
def headerVa (x : Launch) (p : PassRec) (rel t : Nat) : Nat := binBase x p rel + 160 * t
def chunkVa (x : Launch) (p : PassRec) (rel k : Nat) : Nat := binBase x p rel + passTiles p * 160 + 512 * k
/-- Primitive records that a region's part of the primitive buffer holds. -/
def precMax (pl : Plan) (p : PassRec) : Nat := pl.env.prims.getD p.submitMax
def precVa (x : Launch) (pl : Plan) (p : PassRec) (rel k : Nat) : Nat := argAt x p.argPrims + (rel * precMax pl p + k) * precBytes p

/-- The model's record of a primitive: SEQ, draw, and from byte 64 its three output vertices (log entry 31). -/
def precImage (p : PassRec) (q : Prim) : List Byte :=
  leBytes 4 q.seq ++ leBytes 60 q.draw ++ q.vtx.flatMap (fun v => (List.range (p.vout / 4)).flatMap (fun k => leBytes 4 ((v.getD k 0).toNat)))

def readPrec (s : State) (k : Ctx) (p : PassRec) (va : Nat) : Prim :=
  let w := peekN s k va (precBytes p)
  ⟨field w 0 32, field w 32 32, (List.range 3).map (fun v => (List.range (p.vout / 4)).map (fun j => BitVec.ofNat 32 (field w (512 + 8 * v * p.vout + 32 * j) 32)))⟩

/-- An empty footprint: U_MIN above U_MAX. -/
def footEmpty : List Byte := leBytes 4 fInf ++ leBytes 4 fNegInf ++ leBytes 4 fInf ++ leBytes 4 fNegInf
def emptyHeader : List Byte := leBytes 16 0 ++ (List.replicate 8 footEmpty).flatten ++ leBytes 16 0

def fLess (a b : Nat) : Bool := fvLt (decodeF fp32 a) (decodeF fp32 b)
def fMinC (a b : Nat) : Nat := if fLess b a then b else a
def fMaxC (a b : Nat) : Nat := if fLess a b then b else a
def isFin (w : Nat) : Bool :=
  match decodeF fp32 w with
  | .fin _ _ => true
  | _ => false

/-- Attribute `n` of a primitive's three vertices. -/
def attrOf (q : Prim) (n : Nat) : List Nat := q.vtx.map (fun v => (v.getD (4 + n) 0).toNat)

/-- Bound of one texture axis: the attribute's range times the level-0 size, or the whole level (R139). -/
def axisBound (q : Prim) (n size : Nat) : Nat × Nat :=
  let vs := attrOf q n
  let w := toFp32 (.fin size 0)
  let f := vs.headD 0
  let r := (fmul (vs.foldl fMinC f) w, fmul (vs.foldl fMaxC f) w)
  if vs.all isFin && isFin r.1 && isFin r.2 then r else (0, w)

def footBound (q : Prim) (m : Sampler) : List Nat :=
  let u := axisBound q m.uvAttr m.width
  let v := axisBound q (m.uvAttr + 1) m.height
  [u.1, u.2, v.1, v.2]

/-- The union of two footprints of a sampler; an empty one has U_MIN above U_MAX. -/
def footUnion (a b : List Nat) : List Nat :=
  if fLess (a.getD 1 0) (a.getD 0 0) then b
  else if fLess (b.getD 1 0) (b.getD 0 0) then a
  else [fMinC (a.getD 0 0) (b.getD 0 0), fMaxC (a.getD 1 0) (b.getD 1 0), fMinC (a.getD 2 0) (b.getD 2 0), fMaxC (a.getD 3 0) (b.getD 3 0)]

def readFoot (s : State) (k : Ctx) (va m : Nat) : List Nat := (List.range 4).map (fun j => peekN s k (va + 16 + 16 * m + 4 * j) 4)

/-- The bytes that append a primitive to one tile's list: header, the last chunk's NEXT, and the entry (R134, R139). -/
def binPokes (s : State) (k : Ctx) (x : Launch) (p : PassRec) (rel t chunk rec' : Nat) (q : Prim) : List (Nat × List Byte) :=
  let h := headerVa x p rel t
  let n := peekN s k (h + 4) 4
  let first := peekN s k h 4
  let last := (List.range (n / 63 - b2n (n % 63 == 0 && n != 0))).foldl (fun c _ => peekN s k (chunkVa x p rel c) 4) first
  let fresh := n % 63 == 0
  let at' := chunkVa x p rel (if fresh then chunk else last)
  let foots := (p.samplers.zipIdx.filter (fun m => m.1.planned)).map (fun m =>
    (h + 16 + 16 * m.2, (footUnion (readFoot s k h m.2) (footBound q m.1)).flatMap (leBytes 4)))
  [(h, leBytes 4 (if n = 0 then chunk else first) ++ leBytes 4 (n + 1))]
    ++ (if fresh && n != 0 then [(chunkVa x p rel last, leBytes 4 chunk)] else [])
    ++ [(at' + 4, leBytes 2 (n % 63 + 1)), (at' + 8 + 8 * (n % 63), leBytes 4 q.seq ++ leBytes 4 rec')] ++ foots

/-- The chunks of a tile's list on one region. -/
def tileChunks (s : State) (k : Ctx) (x : Launch) (p : PassRec) (rel t : Nat) : List Nat :=
  let h := headerVa x p rel t
  ((List.range (ceilDiv (peekN s k (h + 4) 4) 63)).foldl (fun (a : List Nat × Nat) _ =>
    let c := chunkVa x p rel a.2
    (a.1 ++ [c], peekN s k c 4)) ([], peekN s k h 4)).1

/-- The entries that one region holds for a tile: (SEQ, record). -/
def tileEntries (s : State) (k : Ctx) (x : Launch) (p : PassRec) (rel t : Nat) : List (Nat × Nat) :=
  let h := headerVa x p rel t
  let n := peekN s k (h + 4) 4
  ((List.range (ceilDiv n 63)).foldl (fun (a : List (Nat × Nat) × Nat) j =>
    let c := chunkVa x p rel a.2
    (a.1 ++ (List.range (min 63 (n - 63 * j))).map (fun e => (peekN s k (c + 8 + 8 * e) 4, peekN s k (c + 12 + 8 * e) 4)), peekN s k c 4))
    ([], peekN s k h 4)).1

/-! ### Textures (R138 to R142) -/

/-- Offset of a texel in its block. -/
def texelOff (m : Sampler) (i j : Nat) : Nat := (j % blockH m * blockW m + i % blockW m) * layoutBytes m.layout

/-- Floor of an FP32 code over `2^l`. -/
def floorCode (w l : Nat) : Int :=
  match decodeF fp32 w with
  | .fin m e => shiftI m (e - l)
  | _ => 0

/-- Whether texel `t` of a level of `n` lies in the range `lo` to `hi` under an address mode (R139). -/
def axisHas (mode n : Nat) (lo hi : Int) (t : Nat) : Bool :=
  let c : Int → Int := fun v => max 0 (min v ((n : Int) - 1))
  if mode = 1 then decide (c lo ≤ (t : Int)) && decide ((t : Int) ≤ c hi)
  else if mode = 0 then decide (((t : Int) - lo) % (n : Int) ≤ hi - lo)
  else decide ((n : Int) ≤ hi - lo + 1) || decide (((t : Int) - lo) % (2 * (n : Int)) ≤ hi - lo) || decide ((2 * (n : Int) - 1 - t - lo) % (2 * (n : Int)) ≤ hi - lo)

/-- Block numbers along one axis that hold a covered texel. -/
def axisBlocks (mode n bw l lo hi : Nat) : List Nat :=
  let a := floorCode lo l - 1
  let b := floorCode hi l + 1
  (List.range (ceilDiv n bw)).filter (fun k => (List.range bw).any (fun i => decide (bw * k + i < n) && axisHas mode n a b (bw * k + i)))

/-- Blocks of one planned sampler's footprint in ascending level, row and column (R139, R141). -/
def footBlocksOf (m : Sampler) (idx : Nat) (f : List Nat) : List (List Nat) :=
  if fLess (f.getD 1 0) (f.getD 0 0) then []
  else
    (List.range (level1 m + 1 - level0 m)).flatMap (fun d =>
      let l := level0 m + d
      let rows := axisBlocks m.addrV (levelH m l) (blockH m) l (f.getD 2 0) (f.getD 3 0)
      let cols := axisBlocks m.addrU (levelW m l) (blockW m) l (f.getD 0 0) (f.getD 1 0)
      rows.flatMap (fun r => cols.map (fun c => [idx, l, r, c])))

/-- The static footprint of a DIRECT pass: levels L0 to L1, whole (R142). -/
def staticBlocks (p : PassRec) : List (List Nat) :=
  (p.samplers.zipIdx.filter (fun m => m.1.planned)).flatMap (fun m =>
    (List.range (level1 m.1 + 1 - level0 m.1)).flatMap (fun d =>
      let l := level0 m.1 + d
      (List.range (blockRows m.1 l)).flatMap (fun r => (List.range (blockCols m.1 l)).map (fun c => [m.2, l, r, c]))))

/-- Address of a footprint block in memory. -/
def footVa (x : Launch) (p : PassRec) (b : List Nat) : Nat :=
  match p.samplers[b.getD 0 0]? with
  | none => 0
  | some m => argAt x m.argTex + blockOff m (b.getD 1 0) (b.getD 2 0) (b.getD 3 0)

/-! ### Rasterisation (R130, R132, R143) -/

def samplePos (log2 : Nat) : List (Nat × Nat) :=
  match log2 with
  | 0 => [(8, 8)]
  | 1 => [(4, 4), (12, 12)]
  | 2 => [(6, 2), (14, 6), (2, 10), (10, 14)]
  | _ => [(9, 5), (7, 11), (13, 9), (5, 3), (3, 13), (1, 7), (11, 15), (15, 1)]

/-- Edges of a polygon between corners that differ: snapping can bring two corners of a clipped primitive together. -/
def realEdges (l : List (Int × Int)) : List ((Int × Int) × (Int × Int)) := (edges l).filter (fun e => e.1 != e.2)

/-- Whether a polygon whose corners run clockwise covers a point in 1/16 pixel, by the top-left rule; a single point covers nothing. -/
def coversPt (l : List (Int × Int)) (px py : Nat) : Bool :=
  !(realEdges l).isEmpty && (realEdges l).all (fun e =>
    let dx := e.2.1 - e.1.1
    let dy := e.2.2 - e.1.2
    let v := dx * (16 * (py : Int) - e.1.2) - dy * (16 * (px : Int) - e.1.1)
    decide (0 < v) || (v == 0 && (decide (dy < 0) || (dy == 0 && decide (0 < dx)))))

def clockwise (l : List (Int × Int)) : List (Int × Int) := if area2 l < 0 then l.reverse else l

/-- Coverage mask of a pixel. -/
def pixelMask (p : PassRec) (l : List (Int × Int)) (x y : Nat) : Nat :=
  (samplePos p.samplesLog2).zipIdx.foldl (fun a e => if coversPt l (16 * x + e.1.1) (16 * y + e.1.2) then a + 2 ^ e.2 else a) 0

/-- Quads of a primitive in a tile's extent, each with a covered pixel, row by row. -/
def quadsOf (p : PassRec) (t : Nat) (l : List (Int × Int)) : List Quad :=
  let c := clockwise l
  let hi := (extentPixels p t).map (fun e => (e.2.2.1, e.2.2.2))
  let corners := (hi.map (fun e => (e.1 / 2 * 2, e.2 / 2 * 2))).dedup
  let mask := fun (x y : Nat) => if hi.contains (x, y) then pixelMask p c x y else 0
  (corners.map (fun e => (⟨e.1, e.2, [mask e.1 e.2, mask (e.1 + 1) e.2, mask e.1 (e.2 + 1), mask (e.1 + 1) (e.2 + 1)]⟩ : Quad))).filter
    (fun q => q.cover.any (· != 0))

/-- Fragment items of a primitive in a tile: eight quads to an item. -/
def fragItems (p : PassRec) (pass t : Nat) (q : Prim) : List GItem :=
  let l := polyOf p q
  let qs := quadsOf p t l
  (List.range (ceilDiv qs.length 8)).map (fun j =>
    { kind := 1, pass := pass, draw := q.draw, tile := t, seq := q.seq, quads := (qs.drop (8 * j)).take 8, poly := clockwise l, vtx := q.vtx })

/-- All items of a tile in SEQ order, numbered. -/
def tileItems (p : PassRec) (pass t : Nat) (qs : List Prim) : List GItem :=
  ((qs.flatMap (fragItems p pass t)).zipIdx).map (fun e => { e.1 with num := e.2 })

def laneQuad (it : GItem) (lane : Nat) : Quad := it.quads.getD (lane / 4) ⟨0, 0, []⟩
def laneX (it : GItem) (lane : Nat) : Nat := (laneQuad it lane).x + lane % 2
def laneY (it : GItem) (lane : Nat) : Nat := (laneQuad it lane).y + lane / 2 % 2
def laneMask (it : GItem) (lane : Nat) : Nat := (laneQuad it lane).cover.getD (lane % 4) 0
def coveredLanes (it : GItem) : List Nat := (List.range 32).filter (fun lane => laneMask it lane != 0)

/-- The interpolation point of a lane in 1/16 pixel (R143). -/
def interpPt (p : PassRec) (it : GItem) (lane : Nat) : Nat × Nat :=
  let c := (16 * laneX it lane + 8, 16 * laneY it lane + 8)
  let m := laneMask it lane
  if m = 0 || coversPt it.poly c.1 c.2 then c
  else
    match ((samplePos p.samplesLog2).zipIdx.find? (fun e => bitOf m e.2)) with
    | some e => (16 * laneX it lane + e.1.1, 16 * laneY it lane + e.1.2)
    | none => c

/-- Interpolation of an attribute, or of depth (attribute 64), at a point (R143). -/
def interpAt (p : PassRec) (it : GItem) (n : Nat) (pt : Nat × Nat) : Nat :=
  let q : Prim := ⟨it.seq, it.draw, it.vtx⟩
  canon32 (Config.interpolate ([p.width, p.height, pt.1, pt.2, n] ++ posWords q ++ (if 16 + 4 * n < p.vout then attrOf q n else []))).toNat

/-- Depth at a point, clamped to [0, 1] with DEPTH_CLAMP. -/
def depthAt (p : PassRec) (it : GItem) (pt : Nat × Nat) : Nat :=
  let z := interpAt p it 64 pt
  if p.depthClamp then clampUnit z else z

/-- Clamp to the range of a primitive's vertices (R140). -/
def clampTo (vs : List Nat) (v : Nat) : Nat :=
  let f := vs.headD 0
  fMinC (fMaxC v (vs.foldl fMinC f)) (vs.foldl fMaxC f)

/-- An attribute as a lane reads it: a planned sampler's coordinates are clamped (R140). -/
def attrAt (p : PassRec) (it : GItem) (n lane : Nat) : Nat :=
  let v := interpAt p it n (interpPt p it lane)
  if p.samplers.any (fun m => m.planned && (m.uvAttr == n || m.uvAttr + 1 == n)) then clampTo (attrOf ⟨it.seq, it.draw, it.vtx⟩ n) v else v

/-! ### Depth, stencil and blend (R144, R145) -/

/-- A compare function: `a` against `b`. -/
def cmpFn (code : Nat) (lt eq : Bool) (gt : Bool) : Bool :=
  match code with
  | 0 => false
  | 1 => lt
  | 2 => eq
  | 3 => lt || eq
  | 4 => gt
  | 5 => !eq
  | 6 => gt || eq
  | _ => true

def depthCmp (code new old : Nat) : Bool :=
  let a := decodeF fp32 new
  let b := decodeF fp32 old
  cmpFn code (fvLt a b) (fvEq a b) (fvLt b a)

def stencilOp (code ref old : Nat) : Nat :=
  match code with
  | 0 => old
  | 1 => 0
  | 2 => ref
  | 3 => min 255 (old + 1)
  | 4 => old - 1
  | 5 => 255 - old
  | 6 => (old + 1) % 256
  | _ => (old + 255) % 256

/-- Depth and stencil of one sample: its new image, and whether the sample passes. -/
def depthStencil (a : Attach) (z img : Nat) : Nat × Bool :=
  let w := a.st
  let st := field img 32 8
  let ref := field w 17 8
  let sOn := a.layout == 0x0B && bitOf w 4
  let sPass := !sOn || cmpFn (field w 5 3) (decide (ref < st)) (ref == st) (decide (st < ref))
  let zPass := depthCmp (field w 0 3) z (field img 0 32)
  let op := if !sPass then field w 8 3 else if !zPass then field w 11 3 else field w 14 3
  let st' := if sOn then stencilOp op ref st else st
  let img1 := if a.layout == 0x0B then setField img 32 8 st' else img
  (if sPass && zPass && bitOf w 3 then setField img1 0 32 (clampUnit z) else img1, sPass && zPass)

/-- Blend factor of a channel. -/
def factor (code ch : Nat) (src dst con : List Nat) : Nat :=
  let om := fun v => fsub f1 v
  match code with
  | 0 => 0
  | 1 => f1
  | 2 => src.getD ch 0
  | 3 => om (src.getD ch 0)
  | 4 => dst.getD ch 0
  | 5 => om (dst.getD ch 0)
  | 6 => src.getD 3 0
  | 7 => om (src.getD 3 0)
  | 8 => dst.getD 3 0
  | 9 => om (dst.getD 3 0)
  | _ => con.getD ch 0

def blendOp (code sp dp s d : Nat) : Nat :=
  match code with
  | 0 => fadd sp dp
  | 1 => fsub sp dp
  | 2 => fsub dp sp
  | 3 => toFp32 (fvMin (decodeF fp32 s) (decodeF fp32 d))
  | _ => toFp32 (fvMax (decodeF fp32 s) (decodeF fp32 d))

def clearColor (a : Attach) : List Nat := (List.range 4).map (fun k => f16Read (field a.clear (16 * k) 16))

def blendColor (a : Attach) (src dst : List Nat) : List Nat :=
  let w := a.st
  let con := clearColor a
  (List.range 4).map (fun ch =>
    let o := if ch = 3 then 11 else 0
    let s := src.getD ch 0
    let d := dst.getD ch 0
    blendOp (field w (8 + o) 3) (fmul s (factor (field w o 4) ch src dst con)) (fmul d (factor (field w (4 + o) 4) ch src dst con)) s d)

/-- Bit fields of a layout's channels. -/
def channels (code : Nat) : List (Nat × Nat) :=
  match code with
  | 0x00 => [(0, 8)]
  | 0x01 | 0x02 => [(0, 8), (8, 8), (16, 8), (24, 8)]
  | 0x03 => [(0, 10), (10, 10), (20, 10), (30, 2)]
  | 0x04 => [(0, 16)]
  | 0x05 => [(0, 16), (16, 16)]
  | 0x06 => [(0, 16), (16, 16), (32, 16), (48, 16)]
  | 0x07 => [(0, 32)]
  | 0x08 => [(0, 32), (32, 32)]
  | _ => [(0, 32), (32, 32), (64, 32), (96, 32)]

/-- The colour to be written to a sample, before its conversion to the layout. -/
def colorNew (a : Attach) (src : List Nat) (img : Nat) : List Nat := if a.blend then blendColor a src (pixelRead a.layout img) else src

/-- Flags of a colour written in a layout (R88, R128): those of the write-out of its FP16 channels (R86), and a NaN or infinity written in
an FP16 or FP32 channel; `on` says which channels are written. -/
def pixelFlags (layout : Nat) (on : Nat → Bool) (v : List Nat) : AFlags :=
  let n := match layout with
    | 0x04 | 0x07 => 1
    | 0x05 | 0x08 => 2
    | 0x06 | 0x09 => 4
    | _ => 0
  ((List.range n).filter on).foldl (fun (a : AFlags) ch =>
    let x := decodeF fp32 (v.getD ch 0)
    a ||| seenFlags [x] ||| (if layout ≤ 0x06 then (encodeF fp16 false .rne x).2 else 0)) 0

/-- Flags of a colour sample: channels that WRITE_MASK leaves clear are not written. -/
def colorFlags (a : Attach) (src : List Nat) (img : Nat) : AFlags := pixelFlags a.layout (fun ch => bitOf a.st (22 + ch)) (colorNew a src img)

/-- The new image of a colour sample: a channel that WRITE_MASK leaves clear keeps its value. -/
def colorSample (a : Attach) (src : List Nat) (img : Nat) : Nat :=
  let new := pixelWrite a.layout (colorNew a src img)
  (channels a.layout).zipIdx.foldl (fun (v : Nat) e => if bitOf a.st (22 + e.2) then setField v e.1.1 e.1.2 (field new e.1.1 e.1.2) else v) img

/-- What a CLEAR puts in a sample. -/
def clearImage (a : Attach) : Nat :=
  if isDepth a.layout then clampUnit (field a.clear 0 32) + (if a.layout = 0x0B then field a.clear 32 8 * 2 ^ 32 else 0)
  else pixelWrite a.layout (clearColor a)

/-- The mean of a pixel's samples: their sum in sample order, times 1 / n (R145). -/
def resolveColor (a : Attach) (n : Nat) (imgs : List Nat) : List Nat :=
  let inv := toFp32 (.fin 1 (-(n.log2 : Int)))
  let sum := fun ch => imgs.foldl (fun (t : Nat) v => fadd t ((pixelRead a.layout v).getD ch 0)) 0
  (List.range 4).map (fun ch => fmul (sum ch) inv)

/-- RESOLVE of a pixel's samples (R145). -/
def resolvePixel (a : Attach) (n : Nat) (imgs : List Nat) : Nat :=
  let avg := resolveColor a n imgs
  if isDepth a.layout then
    clampUnit (avg.getD 0 0) + (if a.layout = 0x0B then (Config.resolveStencil imgs).toNat * 2 ^ 32 else 0)
  else pixelWrite a.layout avg

end Sys2Proof.Machine
end

