-- ==== Sys2Proof/Machine/Gfx.lean ====
section
/-! DEFINITION. The GFX class and the tile-rendering events (R60, R125, R127, R132 to R136, R140 to R153). -/

namespace Sys2Proof.Machine

/-! ### The launch that renders on a region -/

/-- Launch number, launch, plan and context of a region whose launch runs a GRAPHICS step and is not held. -/
def gfxEnv (s : State) (r : Nat) : Option (Nat × Launch × Plan × Ctx) :=
  match launchAt s r with
  | none => none
  | some (l, x) =>
    match s.planOf x.ver, s.ctx? x.ctx with
    | some p, some k =>
      if !s.flt.safe && (x.phase == .running || x.phase == .yielding) && (s.rgn r).held == none && (stepOf p x.step).graphics
      then some (l, x, p, k) else none
    | _, _ => none

def gfxOn (s : State) (c : Nat) : CoreGfx := (s.core c).gfx
def setGfx (s : State) (c : Nat) (g : CoreGfx) : State := s.setCore c { s.core c with gfx := g }
def setGeo (s : State) (r : Nat) (g : Geo) : State := s.setRgn r { s.rgn r with geo := g }

/-- The pass a core works on, and whether it shades a fragment round of it (R136). -/
def curPass (g : CoreGfx) : Option (Nat × Bool) := (g.passes.head?).map (fun i => (i % 256, decide (256 ≤ i)))

def passAt (p : Plan) (i : Nat) : PassRec := p.passes.getD i {}

/-- The device stops handing out new work: the launch must yield or stop at its next graphics point. -/
def pausing (x : Launch) : Bool := x.phase == .yielding || x.stop.isSome

/-- The first excess of a launch over its envelope names the DETAIL it completes with (R60). -/
def noteExcess (l d : Nat) (s : State) : State :=
  match s.launch? l with
  | none => s
  | some x => if x.excess = 0 then s.setLaunch l { x with excess := d } else s

/-- ENVELOPE_WITHDRAWAL (R60), at the start of a pass or at a draw or tile boundary: an LC launch with an excess leaves admission and
continues as BE. It keeps its units and its pins. -/
def leaveLc (l : Nat) (s : State) : State :=
  match s.launch? l with
  | none => s
  | some x => if x.excess ≠ 0 && x.lc && !x.asBe then settleDraining (lapseBounds (s.setLaunch l { x with asBe := true })) else s

/-- A range of a pass that does not translate (R125, R199). -/
def passFault (s : State) (l r : Nat) (e : Nat × Nat) : State := launchFault s l r e.1 3 e.2 0 0 0

/-! ### Pre-emption points (R151, R152) -/

/-- A lane group that stands at NEXT with no item, or has ended. -/
def atNext (s : State) (c g : Nat) (y : Lg) : Bool :=
  y.st == .ended || (y.st == .running && y.item == none && (match nextWord s c g with
    | some w => rowWord 0xB 0 none w
    | none => false))

/-- A core stands at a tile boundary of a BINNED pass, has no pass in work, or stands as BE work between two primitives of its tile. A
DIRECT pass in work has no point of its own (R151). -/
def coreAtPoint (s : State) (pl : Plan) (x : Launch) (c : Nat) : Bool :=
  let g := gfxOn s c
  let direct := g.started && (match curPass g with
    | some (i, _) => !(passAt pl i).binned
    | none => false)
  let within := isBeRun x && g.cur != none && !g.netOn && (match g.todo with
    | it :: _ => it.seq != g.lastSeq
    | [] => false)
  (s.core c).lgs.all (fun e => atNext s c e.1 e.2) && g.writing == none && g.active.isEmpty && (within || (g.cur == none && !direct))

def rgnAtPoint (s : State) (pl : Plan) (x : Launch) (r : Nat) : Bool :=
  regionQuiet s r && !(s.rgn r).geo.begun && (coresOf r).all (coreAtPoint s pl x)

/-- Regions of a yielding launch that reach a graphics point stand there; a launch that must stop ends at one. -/
def gfxPoint (r : Nat) (s : State) : State :=
  match gfxEnv s r with
  | none => s
  | some (l, x, pl, _) =>
    if !pausing x then s
    else
      match x.stop with
      | some (st, d) => if rgnAtPoint s pl x r then endLaunch l st d s else s
      | none =>
        let at' := x.regions.filter (fun k => (s.rgn k).held == none && rgnAtPoint s pl x k)
        if at'.isEmpty then s
        else foldState at' (fun k a => a.setRgn k { a.rgn k with held := some 0 }) (s.setLaunch l { x with point := .graphics })

/-! ### The course of a tile (R141, R149) -/

/-- Lane groups of a core that have not ended. -/
def liveLgs (s : State) (c : Nat) : List Nat := mkeys (s.core c).lgs (fun _ y => y.st != .ended)

def itemKindOn (s : State) (c k : Nat) : Bool := (s.core c).lgs.any (fun e => e.2.st != .ended && (match e.2.item with
  | some it => it.kind == k
  | none => false))

/-- Whether an attachment is loaded from its surface: LOAD, or any after a fragment round (R136). -/
def loads (a : Attach) (again : Bool) : Bool := a.loadOp == 1 || again

/-- Clear one attachment's part of a slot; UNDEFINED and the extent pixels outside the render area are zero (R144, R148). -/
def clearAttach (p : PassRec) (c slot t : Nat) (a : Attach × Nat) (s : State) : State :=
  let b := layoutBytes a.1.layout
  let n := passSamples p
  let s0 := s.setCore c { s.core c with ts := zeroRange (s.core c).ts (sampleAddr p slot a.2 0 0 0) (tilePixels p * n * b) }
  if a.1.loadOp = 2 then s0
  else
    let s1 := foldState (extentPixels p t) (fun e st => foldState (List.range n) (fun m st =>
      putTs st c (sampleAddr p slot a.2 e.1 e.2.1 m) (leBytes b (clearImage a.1))) st) s0
    coreFlags s1 c (if isDepth a.1.layout then 0 else pixelFlags a.1.layout (fun _ => true) (clearColor a.1))

/-- Shade the staged next tile, once the core has left its current one; a launch that must yield stops at the boundary of a BINNED tile
(R141, R151). -/
def promote (pl : Plan) (x : Launch) (c : Nat) (s : State) : State :=
  let g := gfxOn s c
  match g.cur, g.next, curPass g with
  | none, some n, some (i, _) =>
    let p := passAt pl i
    if pausing x && p.binned then s
    else
      let s1 := foldState (p.attach.zipIdx.filter (fun a => !loads a.1 (x.rounded.contains i))) (clearAttach p c n.slot n.tile) s
      setGfx s1 c { g with
        next := none, cur := some n.tile, slot := n.slot, foot := n.foot, footBuf := n.buf, todo := tileItems p i n.tile n.window, active := []
        lastSeq := 2 ^ 32, overdraw := 0 }
  | _, _, _ => s

/-- Move a tile on: its network item is issued once all fragment items are blended, then its write-out starts and the next tile's shading
(R141, R149). The network runs in the last round only (log entry 31). -/
def settleTile (l : Nat) (pl : Plan) (c : Nat) (s : State) : State :=
  match s.launch? l with
  | none => s
  | some x =>
    let s0 := promote pl x c s
    let g := gfxOn s0 c
    match g.cur, curPass g with
    | some t, some (i, round) =>
      if !g.todo.isEmpty || !g.active.isEmpty then s0
      else if (passAt pl i).network && !round && !g.netOn then
        setGfx s0 c { g with netOn := true, netNew := true, netLeft := liveLgs s0 c }
      else if g.netOn && (g.netLeft.any (fun k => (liveLgs s0 c).contains k) || itemKindOn s0 c 2) then s0
      else if g.writing != none then s0
      else
        promote pl x c (leaveLc l (setGfx s0 c { g with
          cur := none, writing := some t, wslot := g.slot, netOn := false, netNew := false, netLeft := [] }))
    | _, _ => s0

/-! ### Pass start (R60, R125, R127, R142) -/

/-- Argument slots a pass takes addresses from. -/
def passSlots (p : PassRec) : List Nat :=
  (if p.submitMax = 0 then [] else p.argDraws :: (if p.binned then [p.argBins, p.argPrims] else []))
    ++ p.attach.flatMap (fun a => a.argSurface :: (if a.storeOp = 1 then [a.argResolve] else [])) ++ p.samplers.map (·.argTex)

def passArgsLocal (x : Launch) (p : PassRec) : Bool := (passSlots p).all (fun k => decide (argAt x k < localEnd))

/-- The index bytes that the stream engine gathers for a region's batch (R133, R408). -/
def gatherBytes (s : State) (k : Ctx) (x : Launch) (p : PassRec) (geo : Geo) : Nat :=
  let ds := drawsOf s k x p
  match (batchesOf ds)[geo.batch]? with
  | none => 0
  | some b => (batchIdxRange (ds.getD b.1 ⟨0, 0, false, false, 0, 0⟩) b).2.1

/-- Gather batch `b` of the region's pass: its vertex items, or the range that does not translate (R133). -/
def gatherBatch (s : State) (k : Ctx) (x : Launch) (p : PassRec) (i : Nat) (geo : Geo) : Except (Nat × Nat) Geo :=
  let ds := drawsOf s k x p
  match (batchesOf ds)[geo.batch]? with
  | none =>
    .ok { geo with
      passes := geo.passes.drop 1, past := mset geo.past 0 i geo.entries, active := false, items := [], outstanding := 0, begun := false, vout := [] }
  | some b =>
    let d := ds.getD b.1 ⟨0, 0, false, false, 0, 0⟩
    match rangeBad s k [batchIdxRange d b] with
    | some e => .error e
    | none =>
      let vs := batchVerts s k d b
      match rangeBad s k (vs.filterMap (fun v => v.map (fun n => (d.vtx + n * p.vin, p.vin, false)))) with
      | some e => .error e
      | none =>
        let items := batchItems i b vs
        .ok { geo with active := true, items := items, outstanding := items.length, begun := false, vout := [] }

/-- Start the geometry of a region's next pass: SUBMIT_MAX is checked, its bin headers are emptied, its first batch gathered. -/
def startGeo (r : Nat) (s : State) : State :=
  match gfxEnv s r, (s.rgn r).geo.passes with
  | some (l, x, pl, k), i :: _ =>
    let p := passAt pl i
    let rel := (s.rgn r).rel
    if (s.rgn r).geo.active || (s.rgn r).geo.wait then s
    else if !passArgsLocal x p then abortLaunch l r 5 0x0501 s
    else
      let bins := if p.binned then [(binBase x p rel, passTiles p * 160, true)] else []
      match rangeBad s k (if p.submitMax = 0 then [] else (argAt x p.argDraws, 32 + 32 * drawCount s k (argAt x p.argDraws), false) :: bins) with
      | some e => passFault s l r e
      | none =>
        let ds := drawsOf s k x p
        let s1 := if p.submitMax < (ds.map (·.prims)).sum then leaveLc l (noteExcess l 3 s) else s
        let s2 := if p.binned && p.submitMax != 0 then
            foldState (List.range (passTiles p)) (fun t a => pokeOver (r / 8) k (headerVa x p rel t) emptyHeader a) s1 else s1
        let g := { (s.rgn r).geo with batch := rel, chunks := 0, prims := 0, entries := 0, full := false, extra := [], round := false }
        match gatherBatch s2 k x p i g with
        | .error e => passFault s2 l r e
        | .ok g1 => setGeo (countRgnBytes r (gatherBytes s2 k x p g) s2) r g1
  | _, _ => s

/-- The geometry a core's pass needs is done: for a DIRECT pass, on every region of the launch (R135). -/
def geoReady (s : State) (x : Launch) (i : Nat) (p : PassRec) : Bool :=
  p.binned || x.regions.all (fun r => !(s.rgn r).geo.passes.contains i)

/-- Copy footprint blocks into a footprint buffer: as many as it holds (R141). -/
def stageBlocks (s : State) (k : Ctx) (x : Launch) (p : PassRec) (c buf : Nat) (bs : List (List Nat)) : State :=
  foldState (bs.zipIdx) (fun e a =>
    putOver c (p.footBase + buf * p.footBlocks * 1024 + e.2 * 1024) (peek a k (footVa x p e.1) 1024) a) s

/-- Every core has shaded the fragment round of a pass. -/
def roundDone (s : State) (x : Launch) (i : Nat) : Bool :=
  x.regions.all (fun r => (coresOf r).all (fun c => !(gfxOn s c).passes.contains (256 + i)))

/-- Empty a region's part of the bin area of a pass. -/
def emptyPool (x : Launch) (p : PassRec) (k : Ctx) (i r : Nat) (s : State) : State :=
  let rel := (s.rgn r).rel
  let s1 := foldState (List.range (passTiles p)) (fun t a => pokeOver (r / 8) k (headerVa x p rel t) emptyHeader a) s
  let g := (s1.rgn r).geo
  setGeo s1 r (if g.passes.head? = some i then { g with chunks := 0, prims := 0, entries := 0, full := false, extra := [], round := false }
    else { g with past := mset g.past 0 i 0 })

/-- After a round binning resumes at the next batch, into emptied pools (R136). -/
def endRound (r i : Nat) (s : State) : State :=
  match gfxEnv s r with
  | none => s
  | some (l, x, pl, k) =>
    if !roundDone s x i then s
    else
      let s1 := foldState x.regions (emptyPool x (passAt pl i) k i)
        (s.setLaunch l { x with rounded := if x.rounded.contains i then x.rounded else x.rounded ++ [i] })
      foldState x.regions (fun n a =>
        let g := (a.rgn n).geo
        if g.passes.head? = some i && g.wait then
          match gatherBatch a k x (passAt pl i) i { g with wait := false } with
          | .error e => passFault a l n e
          | .ok h => setGeo (countRgnBytes n (gatherBytes a k x (passAt pl i) g) a) n h
        else a) s1

/-- A core drops a pass whose tiles are all written out (R127); the last core to leave a fragment round ends it. -/
def leavePass (c : Nat) (s : State) : State :=
  let g := gfxOn s c
  if g.started && g.tiles.isEmpty && g.cur == none && g.next == none && g.writing == none then
    let s1 := setGfx s c { passes := g.passes.drop 1, lastSeq := 0 }
    match curPass g with
    | some (i, true) => endRound (c / 32) i s1
    | _ => s1
  else s

/-- Start a core's next pass: its tiles in ascending order, the static footprint of a DIRECT pass staged once (R127, R131, R142). -/
def startPass (c : Nat) (s : State) : State :=
  let r := c / 32
  let g := gfxOn s c
  match gfxEnv s r, curPass g with
  | some (l, x, pl, k), some (i, _) =>
    let p := passAt pl i
    if g.started || pausing x || !geoReady s x i p then s
    else if !passArgsLocal x p then abortLaunch l r 5 0x0501 s
    else
      let bs := if p.binned then [] else staticBlocks p
      match rangeBad s k (bs.map (fun b => (footVa x p b, 1024, false))) with
      | some e => passFault s l r e
      | none =>
        let s1 := countRgnBytes r (1024 * bs.length) (stageBlocks s k x p c 0 bs)
        leavePass c (setGfx s1 c { g with
          started := true, tiles := tilesOf p pl.regionCount (coreRel s c) (c % 32), count := 0, foot := bs, footBuf := 0 })
  | _, _ => s

/-- PASS_START (R60, R125, R127). -/
def execPassStart (c : Nat) (s : State) : Result :=
  let s1 := startGeo (c / 32) s
  .next (startPass c s1)

/-! ### Binning (R133 to R136) -/

/-- Bin entries a pass holds, over all regions. -/
def passEntries (s : State) (x : Launch) (i : Nat) : Nat :=
  (x.regions.map (fun n => if (s.rgn n).geo.passes.head? = some i then (s.rgn n).geo.entries else mget (s.rgn n).geo.past 0 i)).sum

/-- Record and bin one surviving primitive; where its region's pools have no room, or BIN_ENTRIES none, it waits for the round (R136).
Whether a fault has ended the launch. -/
def binPrim (l : Nat) (x : Launch) (pl : Plan) (k : Ctx) (i r : Nat) (q : Prim) (s : State) : State × Bool :=
  let p := passAt pl i
  let rel := (s.rgn r).rel
  let g := (s.rgn r).geo
  let ts := tilesMet p q
  let fresh := (ts.filter (fun t => peekN s k (headerVa x p rel t + 4) 4 % 63 == 0)).length
  if g.full || poolChunks p < g.chunks + fresh || precMax pl p ≤ g.prims || p.binEntries < passEntries s x i + ts.length then
    (noteExcess l 3 (setGeo s r { g with full := true, extra := g.extra ++ [q] }), false)
  else
    let pokes := (precVa x pl p rel g.prims, precImage p q) :: (ts.foldl (fun (a : List (Nat × List Byte) × Nat) t =>
      (a.1 ++ binPokes s k x p rel t a.2 g.prims q, a.2 + b2n (peekN s k (headerVa x p rel t + 4) 4 % 63 == 0))) ([], g.chunks)).1
    match rangeBad s k (pokes.map (fun e => (e.1, e.2.length, true))) with
    | some e => (passFault s l r e, true)
    | none =>
      let s1 := foldState pokes (fun e a => pokeOver (r / 8) k e.1 e.2 a) s
      (setGeo s1 r { g with chunks := g.chunks + fresh, prims := g.prims + 1, entries := g.entries + ts.length }, false)

/-- Count one surviving primitive of the launch (R133, R153). -/
def countPrim (l : Nat) (pl : Plan) (s : State) : State :=
  match s.launch? l with
  | none => s
  | some x =>
    let s1 := s.setLaunch l { x with prims := x.prims + 1 }
    match pl.env.prims with
    | some n => if n < x.prims + 1 then noteExcess l 3 s1 else s1
    | none => s1

/-- Primitive `n` of a gathered batch, from its three output vertices. -/
def batchPrim (p : PassRec) (geo : Geo) (b : Batch) (n : Nat) : Prim :=
  ⟨b.2.2.2 + n, b.1, (List.range 3).map (fun v => (List.range (p.vout / 4)).map (fun j => mget geo.vout 0 (64 * (3 * n + v) + j)))⟩

/-- Set up and bin a batch in SEQ order, and whether a fault has ended the launch. `fuel` counts its primitives. -/
def binBatch (l : Nat) (pl : Plan) (k : Ctx) (i r : Nat) (d : Draw) (b : Batch) : (fuel n : Nat) → State → State × Bool
  | 0, _, s => (s, false)
  | m + 1, n, s =>
    let p := passAt pl i
    let geo := (s.rgn r).geo
    let q := batchPrim p geo b n
    let live := ((primIdx d (b.2.1 + n)).map (readIdx s k d)).all (fun v => decide (v < d.count))
    if !live || !survives p q then binBatch l pl k i r d b m (n + 1) s
    else if !p.binned then
      binBatch l pl k i r d b m (n + 1) (countPrim l pl (setGeo s r { geo with direct := geo.direct ++ [(i, q)] }))
    else
      match s.launch? l with
      | none => (s, true)
      | some x =>
        match binPrim l x pl k i r q s with
        | (s1, false) => binBatch l pl k i r d b m (n + 1) (countPrim l pl s1)
        | (s1, true) => (s1, true)

/-- The batch of a pass that a region is at. -/
def batchAt (s : State) (n i : Nat) : Nat :=
  let g := (s.rgn n).geo
  if g.passes.head? == some i && (g.active || g.wait) then g.batch else (s.rgn n).rel

/-- A lower-numbered batch of the pass is still to be binned on another region: bins fill in batch order (log entry 31). -/
def lowerBatch (s : State) (x : Launch) (i r b : Nat) : Bool :=
  x.regions.any (fun n => n != r && (s.rgn n).geo.passes.contains i && decide (batchAt s n i < b))

/-- Whether a region may begin its batch: while a pool is full, only to keep the round a prefix of the batches (R136). -/
def mayBegin (s : State) (x : Launch) (r : Nat) : Bool :=
  match (s.rgn r).geo.passes.head? with
  | none => false
  | some i =>
    let peers := x.regions.filter (fun n => (s.rgn n).geo.passes.head? == some i)
    !peers.any (fun n => (s.rgn n).geo.full) || peers.any (fun n => (s.rgn n).geo.begun && decide (batchAt s r i < batchAt s n i))

/-- The batch in work is binned: at the end of its draw an excess withdraws the launch; the next batch is gathered, after the round where
a pool is full; the region may stand at a batch boundary. -/
def finishBatch (l : Nat) (x : Launch) (pl : Plan) (k : Ctx) (i r draw : Nat) (bs : List Batch) (s : State) : State :=
  let geo := (s.rgn r).geo
  let n := geo.batch + pl.regionCount
  let s1 := if (bs[n]?).map (·.1) = some draw then s else leaveLc l s
  if geo.full then
    gfxPoint r (setGeo s1 r { geo with batch := n, active := false, wait := true, items := [], outstanding := 0, begun := false, vout := [] })
  else
    match gatherBatch s1 k x (passAt pl i) i { geo with batch := n } with
    | .error e => passFault s1 l r e
    | .ok g => gfxPoint r (setGeo (countRgnBytes r (gatherBytes s1 k x (passAt pl i) { geo with batch := n }) s1) r g)

/-- BATCH_BINNED (R133 to R136, R151, R153): the batch's vertices are shaded, its primitives set up and binned. -/
def execBatchBinned (r : Nat) (s : State) : Result :=
  match gfxEnv s r, (s.rgn r).geo.passes with
  | some (l, x, pl, k), i :: _ =>
    let geo := (s.rgn r).geo
    let p := passAt pl i
    if !geo.active || !geo.items.isEmpty || geo.outstanding ≠ 0 then .next s
    else if p.binned && lowerBatch s x i r geo.batch then .next s
    else
      let ds := drawsOf s k x p
      match (batchesOf ds)[geo.batch]? with
      | none => .next s
      | some b =>
        let d := ds.getD b.1 ⟨0, 0, false, false, 0, 0⟩
        match binBatch l pl k i r d b b.2.2.1 0 s with
        | (s1, false) => (match s1.launch? l with
            | some x1 => .next (finishBatch l x1 pl k i r b.1 (batchesOf ds) s1)
            | none => .next s1)
        | (s1, true) => .next s1
  | _, _ => .next s

/-- BIN_POOL_FULL (R136, R153): every region has finished its batch, and a fragment round of the pass begins on every core of the
launch, which is beyond its bound. -/
def execBinPoolFull (r : Nat) (s : State) : Result :=
  match gfxEnv s r, (s.rgn r).geo.passes with
  | some (_, x, _, _), i :: _ =>
    let geo := (s.rgn r).geo
    let peers := x.regions.filter (fun n => (s.rgn n).geo.passes.head? == some i)
    if !geo.full || !geo.wait || peers.any (fun n => (s.rgn n).geo.round || (s.rgn n).geo.begun) then .next s
    else
      .next (foldState (x.regions.flatMap coresOf) (fun c a =>
        let g := gfxOn a c
        setGfx a c { g with passes := if g.started then g.passes.take 1 ++ (256 + i) :: g.passes.drop 1 else (256 + i) :: g.passes })
        (setGeo s r { geo with round := true }))
  | _, _ => .next s

/-! ### Staging a tile (R134, R139, R141, R144, R148) -/

/-- Surface bytes an attachment's pixels are loaded from or stored to. -/
def surfRanges (p : PassRec) (a : Attach) (va n : Nat) (px : List (Nat × Nat × Nat × Nat)) (write : Bool) : List (Nat × Nat × Bool) :=
  px.flatMap (fun e => (List.range n).map (fun m => (surfAddr p a va m e.2.2.1 e.2.2.2, layoutBytes a.layout, write)))

/-- Load one attachment's part of a slot; extent pixels outside the render area read as zero (R148). -/
def loadAttach (k : Ctx) (x : Launch) (p : PassRec) (c slot t : Nat) (a : Attach × Nat) (s : State) : State :=
  let b := layoutBytes a.1.layout
  let n := passSamples p
  let s0 := s.setCore c { s.core c with ts := zeroRange (s.core c).ts (sampleAddr p slot a.2 0 0 0) (tilePixels p * n * b) }
  foldState (extentPixels p t) (fun e st => foldState (List.range n) (fun m st =>
    putOver c (sampleAddr p slot a.2 e.1 e.2.1 m) (peek st k (surfAddr p a.1 (argAt x a.1.argSurface) m e.2.2.1 e.2.2.2) b) st) st) s0

/-- Merge the regions' lists of a tile by SEQ (R134). -/
def insertSeq (q : Prim) : List Prim → List Prim
  | [] => [q]
  | y :: r => if q.seq < y.seq then q :: y :: r else y :: insertSeq q r
def mergePrims (qs : List Prim) : List Prim := qs.foldl (fun a q => insertSeq q a) []

/-- Ranges read to stage a tile's lists on one region: headers, chunks and records in order. -/
def tileRanges (s : State) (k : Ctx) (x : Launch) (pl : Plan) (p : PassRec) (rel t : Nat) : List (Nat × Nat × Bool) :=
  let es := tileEntries s k x p rel t
  (headerVa x p rel t, 160, false) :: (tileChunks s k x p rel t).map (fun c => (c, 512, false))
    ++ es.map (fun e => (precVa x pl p rel e.2, precBytes p, false))

/-- The primitives of finished batches that a round shades though no bin holds them. -/
def tileExtra (s : State) (x : Launch) (i t : Nat) (p : PassRec) : List Prim :=
  x.regions.flatMap (fun r => let g := (s.rgn r).geo
    if g.passes.head? = some i then g.extra.filter (fun q => inExtent p t (polyOf p q)) else [])

/-- The primitives that reach a tile, in SEQ order. -/
def tilePrims (s : State) (k : Ctx) (x : Launch) (pl : Plan) (i t : Nat) : List Prim :=
  let p := passAt pl i
  if !p.binned then
    mergePrims ((x.regions.flatMap (fun r => (s.rgn r).geo.direct)).filterMap (fun e => if e.1 = i && inExtent p t (polyOf p e.2) then some e.2 else none))
  else if p.submitMax = 0 then []
  else mergePrims (tileExtra s x i t p
    ++ (List.range pl.regionCount).flatMap (fun rel => (tileEntries s k x p rel t).map (fun e => readPrec s k p (precVa x pl p rel e.2))))

/-- Footprint blocks of a tile of a BINNED pass: the union over the regions' headers (R139). A DIRECT pass has its own (R142). -/
def tileFoot (s : State) (k : Ctx) (x : Launch) (pl : Plan) (i t : Nat) : List (List Nat) :=
  let p := passAt pl i
  if p.submitMax = 0 || !p.binned then []
  else
    (p.samplers.zipIdx.filter (fun m => m.1.planned)).flatMap (fun m =>
      let f0 := (tileExtra s x i t p).foldl (fun a q => footUnion a (footBound q m.1)) [fInf, fNegInf, fInf, fNegInf]
      let f := (List.range pl.regionCount).foldl (fun a rel => footUnion a (readFoot s k (headerVa x p rel t) m.2)) f0
      footBlocksOf m.1 m.2 f)

/-- The end of the tile-store bytes that staging a tile writes: its slot, its footprint buffer and its staging window (R130). -/
def stageTop (p : PassRec) (slot buf : Nat) : Nat :=
  listMax [(slot + 1) * slotBytes p, if p.footBlocks = 0 then 0 else p.footBase + (buf + 1) * p.footBlocks * 1024,
    if p.submitMax = 0 then 0 else p.stageBase + (buf + 1) * 16384]

/-- TILE_STAGING_DONE (R127, R134, R139, R141, R144, R153): the inputs of the core's next tile stand staged, while it may still shade
the one before: footprint, bin entries with their records, and loaded attachments. A slot of a BINNED pass is loaded once its last
tile is written out. Raster writes at or above U end the launch (R258). -/
def execTileStagingDone (c : Nat) (s : State) : Result :=
  let r := c / 32
  let g := gfxOn s c
  match gfxEnv s r, curPass g, g.tiles with
  | some (l, x, pl, k), some (i, _), t :: rest =>
    let p := passAt pl i
    if !g.started || g.next != none || (p.binned && (g.writing != none || pausing x)) then .next s
    else
      let ins := p.attach.zipIdx.filter (fun a => loads a.1 (x.rounded.contains i))
      let rels := if p.binned && p.submitMax != 0 then List.range pl.regionCount else []
      let surf := ins.flatMap (fun a => surfRanges p a.1 (argAt x a.1.argSurface) (passSamples p) (extentPixels p t) false)
      match rangeBad s k (rels.flatMap (fun rel => tileRanges s k x pl p rel t) ++ surf) with
      | some e => .next (passFault s l r e)
      | none =>
        let foot := tileFoot s k x pl i t
        let staged := foot.take p.footBlocks
        match rangeBad s k (staged.map (fun b => (footVa x p b, 1024, false))) with
        | some e => .next (passFault s l r e)
        | none =>
          let qs := tilePrims s k x pl i t
          let n : Staged := if p.binned then ⟨t, g.count % 2, g.count % 2, staged, qs⟩ else ⟨t, g.count, 0, g.foot, qs⟩
          if usableTop s < stageTop p n.slot n.buf then .next (coreAbort s c 5 0x0901)
          else
          let s1 := if p.binned then stageBlocks s k x p c n.buf staged else s
          let moved := ((rels.flatMap (fun rel => tileRanges s k x pl p rel t) ++ surf).map (·.2.1)).sum + (if p.binned then 1024 * staged.length else 0)
          let s2 := countRgnBytes r moved (foldState ins (loadAttach k x p c n.slot t) s1)
          let s3 := setGfx s2 c { g with tiles := rest, count := g.count + 1, next := some n }
          let s4 := if p.footBlocks < foot.length || p.tileEntries < qs.length then noteExcess l 4 s3 else s3
          .next (settleTile l pl c s4)
  | _, _, _ => .next s

/-! ### Blending (R132, R143 to R145, R149) -/

def outAt (it : GItem) (lane k : Nat) : Nat := (mget it.outs 0 (lane * 64 + k)).toNat
def wroteLane (it : GItem) (a lane : Nat) : Bool := (mget it.wrote 0 a).getLsbD lane

/-- Read and write one sample of an attachment in a slot. -/
def readSample (s : State) (c : Nat) (p : PassRec) (slot a i j m : Nat) : Nat :=
  ofLe (bytesAt (s.core c).ts (layoutBytes ((p.attach[a]?.map (·.layout)).getD 0)) (sampleAddr p slot a i j m))
def writeSample (s : State) (c : Nat) (p : PassRec) (slot a i j m v : Nat) : State :=
  putTs s c (sampleAddr p slot a i j m) (leBytes (layoutBytes ((p.attach[a]?.map (·.layout)).getD 0)) v)

/-- Depth and stencil of one covered sample of one lane against the depth attachment, and whether it passes. -/
def testSample (c : Nat) (p : PassRec) (slot : Nat) (it : GItem) (lane m : Nat) (s : State) : State × Bool :=
  let i := laneX it lane + p.halo - tileX p it.tile
  let j := laneY it lane + p.halo - tileY p it.tile
  let pos := (samplePos p.samplesLog2).getD m (8, 8)
  let z := if wroteLane it 8 lane then outAt it lane 32 else depthAt p it (16 * laneX it lane + pos.1, 16 * laneY it lane + pos.2)
  match p.attach.zipIdx.find? (fun a => isDepth a.1.layout) with
  | none => (s, true)
  | some a =>
    let v := depthStencil a.1 z (readSample s c p slot a.2 i j m)
    (writeSample s c p slot a.2 i j m v.1, v.2)

def laneSamples (p : PassRec) (it : GItem) (lane : Nat) : List Nat := (List.range (passSamples p)).filter (fun m => bitOf (laneMask it lane) m)

/-- Whether the fragment program of a core has no KILL and no depth write: depth and stencil are then tested before shading (R143). -/
def testsEarly (s : State) (c : Nat) : Bool :=
  match progOf s c with
  | none => false
  | some g => g.words.all (fun w => !(wCls w == 0xB && (wOp w == 4 || (wOp w == 3 && bitOf (wMod w) 0))))

/-- The depth and stencil test of an item before its shading: per lane, the samples that pass. -/
def testItem (c : Nat) (p : PassRec) (slot : Nat) (it : GItem) (s : State) : State × List Nat :=
  (List.range 32).foldl (fun (a : State × List Nat) lane =>
    let r := (laneSamples p it lane).foldl (fun (b : State × Nat) m =>
      let v := testSample c p slot it lane m b.1
      (v.1, b.2 + (if v.2 then 2 ^ m else 0))) (a.1, 0)
    (r.1, a.2 ++ [r.2])) (s, [])

/-- Depth and stencil, unless tested before, and blend of one covered sample of one lane. -/
def blendSample (c : Nat) (p : PassRec) (slot : Nat) (it : GItem) (lane m : Nat) (s : State) : State :=
  let i := laneX it lane + p.halo - tileX p it.tile
  let j := laneY it lane + p.halo - tileY p it.tile
  let r := match it.early with
    | some ms => (s, bitOf (ms.getD lane 0) m)
    | none => testSample c p slot it lane m s
  if !r.2 then r.1
  else
    foldState (p.attach.zipIdx.filter (fun a => !isDepth a.1.layout && wroteLane it a.2 lane)) (fun a st =>
      let src := (List.range 4).map (fun k => outAt it lane (4 * a.2 + k))
      let img := readSample st c p slot a.2 i j m
      coreFlags (writeSample st c p slot a.2 i j m (colorSample a.1 src img)) c (colorFlags a.1 src img))
      r.1

/-- Blend an item: every covered sample of every lane it did not discard. -/
def blendItem (c : Nat) (p : PassRec) (slot : Nat) (it : GItem) (s : State) : State :=
  foldState ((coveredLanes it).filter (fun lane => !it.killed.getLsbD lane)) (fun lane a =>
    foldState (laneSamples p it lane) (blendSample c p slot it lane) a) s

/-- Count an item's covered pixels against MAX_OVERDRAW × TILE_PIXELS / 16 (R143, R153). -/
def countOverdraw (l : Nat) (pl : Plan) (c : Nat) (p : PassRec) (it : GItem) (s : State) : State :=
  let g := gfxOn s c
  let n := g.overdraw + (coveredLanes it).length
  let s1 := setGfx s c { g with overdraw := n }
  match pl.env.overdraw with
  | some m => if m * tilePixels p < 16 * n then noteExcess l 4 s1 else s1
  | none => s1

/-- The lane group that still runs an item of the current tile. -/
def runsItem (s : State) (c : Nat) (it : GItem) : Option (Nat × Lg) :=
  (s.core c).lgs.find? (fun e => match e.2.item with
    | some y => y.kind == 1 && y.num == it.num
    | none => false)

/-- The oldest item whose outputs can be blended now: finished, or standing at a TWAIT with outputs; an item that stands at a TWAIT
with none does not hold back later ones. -/
def nextBlend (s : State) (c : Nat) : List GItem → Option (GItem × Option (Nat × Lg))
  | [] => none
  | it :: rest =>
    if it.done then some (it, none)
    else
      match runsItem s c it with
      | some (k, y) => (match y.item with
          | some z => if !z.atWait then none else if z.wrote.isEmpty then nextBlend s c rest else some (z, some (k, y))
          | none => none)
      | none => none

/-- FRAGMENT_BLENDED (R132, R143, R145, R149, R153): the oldest item is blended. -/
def execFragmentBlended (c : Nat) (s : State) : Result :=
  let r := c / 32
  let g := gfxOn s c
  match gfxEnv s r, curPass g with
  | some (l, _, pl, _), some (i, _) =>
    let p := passAt pl i
    match nextBlend s c g.active with
    | none => .next (gfxPoint r (settleTile l pl c s))
    | some (it, run) =>
      let s1 := if it.blended then s else countOverdraw l pl c p it s
      let s2 := if it.blended && it.wrote.isEmpty then s1 else blendItem c p g.slot it s1
      match run with
      | none =>
        let h := gfxOn s2 c
        .next (gfxPoint r (settleTile l pl c (setGfx s2 c { h with active := h.active.filter (fun e => e.num != it.num) })))
      | some (k, y) => .next (setLg s2 c k { y with item := some { it with atWait := false, blended := true, outs := [], wrote := [] } })
  | _, _ => .next s

/-! ### Write-out (R136, R145, R148, R149, R151) -/

/-- Store or resolve one attachment's own pixels; between fragment rounds every attachment's samples go to its surface. -/
def storeAttach (k : Ctx) (x : Launch) (p : PassRec) (round : Bool) (c slot t : Nat) (a : Attach × Nat) (s : State) : State :=
  let b := layoutBytes a.1.layout
  let n := passSamples p
  foldState (ownPixels p t) (fun e st =>
    let imgs := (List.range n).map (readSample st c p slot a.2 e.1 e.2.1)
    if round || a.1.storeOp = 0 then
      foldState imgs.zipIdx (fun v st => pokeOver (c / 256) k (surfAddr p a.1 (argAt x a.1.argSurface) v.2 e.2.2.1 e.2.2.2) (leBytes b v.1) st) st
    else if a.1.storeOp = 1 then
      coreFlags (pokeOver (c / 256) k (surfAddr p a.1 (argAt x a.1.argResolve) 0 e.2.2.1 e.2.2.2) (leBytes b (resolvePixel a.1 n imgs)) st) c
        (if isDepth a.1.layout then 0 else pixelFlags a.1.layout (fun _ => true) (resolveColor a.1 n imgs))
    else st) s

def storeRanges (x : Launch) (p : PassRec) (round : Bool) (t : Nat) (a : Attach) : List (Nat × Nat × Bool) :=
  if round || a.storeOp = 0 then surfRanges p a (argAt x a.argSurface) (passSamples p) (ownPixels p t) true
  else if a.storeOp = 1 then surfRanges p a (argAt x a.argResolve) 1 (ownPixels p t) true
  else []

/-- TILE_WRITE_OUT_DONE (R127, R136, R145, R148, R149, R151). -/
def execTileWriteOutDone (c : Nat) (s : State) : Result :=
  let r := c / 32
  let g := gfxOn s c
  match gfxEnv s r, curPass g, g.writing with
  | some (l, x, pl, k), some (i, round), some t =>
    let p := passAt pl i
    match rangeBad s k (p.attach.flatMap (storeRanges x p round t)) with
    | some e => .next (passFault s l r e)
    | none =>
      let s1 := foldState p.attach.zipIdx (storeAttach k x p round c g.wslot t) s
      let n := (p.attach.flatMap (storeRanges x p round t)).map (·.2.1)
      let s2 := countRgnBytes r n.sum (setGfx s1 c { g with writing := none })
      .next (gfxPoint r (leavePass c (settleTile l pl c s2)))
  | _, _, _ => .next s

/-! ### GFX.NEXT (R146, R149, R152) -/

/-- The lane group closes its item. -/
def closeLg (s : State) (c g : Nat) : State :=
  let y := getLg s c g
  let s1 := closeVertex (s.setCore c (closeItem (s.core c) y)) c y
  setLg s1 c g { y with item := none }

/-- Lane-group state at the start of an item: s0 to s3 as R96 gives them, all else 0, s4 the kind; its counter is past the NEXT. -/
def itemLg (s : State) (c g kind : Nat) (it : Option GItem) : Lg :=
  let z : Lg := { pc := (getLg s c g).pc + 1, item := it }
  lgSetS (lgSetS (lgSetS (lgSetS (lgSetS z 0 g) 1 (s.rgn (c / 32)).passed) 2 (coreRel s c)) 3 (c % 32)) 4 kind

/-- Zero the lane group's item scratch. -/
def zeroScratch (p : PassRec) (c g : Nat) (s : State) : State :=
  s.setCore c { s.core c with ts := zeroRange (s.core c).ts (p.scratchBase + g * p.scratchBytes) p.scratchBytes }

def laneMaskOf (f : Nat → Bool) : W32 := BitVec.ofNat 32 ((List.range 32).foldl (fun a k => if f k then a + 2 ^ k else a) 0)

/-- Fill a vector register lane by lane. -/
def fillV (r : Nat) (f : Nat → Nat) (y : Lg) : Lg := (List.range 32).foldl (fun z k => lgSetV z r k (f k)) y

/-- Deliver a vertex item: its inputs stand in the core's staging windows (R133, R146). -/
def giveVertex (pl : Plan) (k : Ctx) (x : Launch) (c g : Nat) (it : GItem) (win : Nat) (s : State) : State :=
  let p := passAt pl it.pass
  let r := c / 32
  let geo := (s.rgn r).geo
  let d := (drawsOf s k x p).getD it.draw ⟨0, 0, false, false, 0, 0⟩
  let base := p.stageBase + win * 32 * p.vin
  let s1 := foldState (List.range 32) (fun n a =>
    match it.verts.getD n none with
      | some v => countRgnBytes r p.vin (putOver c (base + n * p.vin) (peek a k (d.vtx + v * p.vin) p.vin) a)
      | none => putTs a c (base + n * p.vin) (List.replicate p.vin 0)) (setGeo s r { geo with items := geo.items.drop 1, begun := true })
  let y := itemLg s1 c g 0 (some { it with win := win })
  let y1 := lgSetS (lgSetS (lgSetS y 5 it.pass) 6 it.draw) 8 base
  let y2 := fillV 0 (fun n => (it.verts.getD n none).getD 0) y1
  setLg (zeroScratch p c g s1) c g (lgSetP y2 0 (laneMaskOf (fun n => (it.verts.getD n none).isSome)))

/-- Deliver a fragment item (R146); where the program allows it, depth and stencil are tested first (R143). -/
def giveFragment (pl : Plan) (c g : Nat) (it : GItem) (s : State) : State :=
  let p := passAt pl it.pass
  let e := if testsEarly s c then (let r := testItem c p (gfxOn s c).slot it s; (r.1, some r.2)) else (s, none)
  let jt : GItem := { it with early := e.2 }
  let q := gfxOn e.1 c
  let s2 := setGfx e.1 c { q with todo := q.todo.drop 1, active := q.active ++ [jt], lastSeq := it.seq }
  let y := itemLg s2 c g 1 (some jt)
  let y1 := lgSetS (lgSetS (lgSetS y 5 it.pass) 6 it.draw) 7 it.tile
  let y2 := fillV 0 (fun n => laneX it n + 65536 * laneY it n) y1
  let y3 := fillV 3 (fun n => depthAt p it (interpPt p it n)) (fillV 2 (fun _ => it.seq) (fillV 1 (laneMask it) y2))
  setLg (zeroScratch p c g s2) c g (lgSetP y3 0 (laneMaskOf (fun n => laneMask it n != 0)))

/-- Deliver a tile's network item to one lane group; the first also zeroes the network area (R146, R149). -/
def giveNetwork (pl : Plan) (c g i t : Nat) (s : State) : State :=
  let p := passAt pl i
  let q := gfxOn s c
  let s1 := setGfx s c { q with netLeft := q.netLeft.filter (· != g), netNew := false }
  let s2 := if q.netNew then s1.setCore c { s1.core c with ts := zeroRange (s1.core c).ts p.netBase p.netBytes } else s1
  let y := itemLg s2 c g 2 (some { kind := 2, pass := i, tile := t })
  let y1 := lgSetS (lgSetS (lgSetS (lgSetS y 5 i) 7 t) 8 (q.slot * slotBytes p)) 9 p.netBase
  setLg (zeroScratch p c g s2) c g y1

/-- A place in the staging windows that no vertex item of the core uses. -/
def freeWin (s : State) (c : Nat) (p : PassRec) : Option Nat :=
  (List.range (32768 / (32 * p.vin))).find? (fun n => !(s.core c).lgs.any (fun e => match e.2.item with
    | some it => it.kind == 0 && it.win == n
    | none => false))

/-- Whether a fragment item may be delivered: fewer than 32 are with the back end, and BE work that must yield stops after the current
primitive (R132, R152). -/
def fragmentFree (x : Launch) (q : CoreGfx) (it : GItem) : Bool :=
  decide (q.active.length < 32) && (!(pausing x && isBeRun x) || it.seq == q.lastSeq)

/-- Whether a step holds no further items (R146). -/
def noItems (s : State) (x : Launch) (c : Nat) : Bool :=
  (gfxOn s c).passes.isEmpty && x.regions.all (fun r => (s.rgn r).geo.passes.isEmpty)

/-- The end of a lane group's item scratch. -/
def scratchTop (p : PassRec) (g : Nat) : Nat := if p.scratchBytes = 0 then 0 else p.scratchBase + (g + 1) * p.scratchBytes

/-- A delivery that writes tile-store bytes up to `n`: one at or above U ends the launch (R258). -/
def belowU (s : State) (c n : Nat) (t : State) : State := if usableTop s < n then coreAbort s c 5 0x0901 else t

/-- Deliver the next item to a lane group with none; where none is ready it waits, and a yielding launch may be at a graphics point. -/
def giveItem (c g : Nat) (s : State) : State :=
  let r := c / 32
  let q := gfxOn s c
  match gfxEnv s r with
  | none => s
  | some (_, x, pl, k) =>
    match q.netLeft.contains g, q.cur, q.todo, (s.rgn r).geo.items with
    | true, some t, _, _ =>
      let i := ((curPass q).getD (0, false)).1
      belowU s c (max (scratchTop (passAt pl i) g) ((passAt pl i).netBase + (passAt pl i).netBytes)) (giveNetwork pl c g i t s)
    | _, cur, it :: _, vs =>
      if cur.isSome && fragmentFree x q it then belowU s c (scratchTop (passAt pl it.pass) g) (giveFragment pl c g it s)
      else giveVert x pl k vs
    | _, _, [], vs => giveVert x pl k vs
where
  giveVert (x : Launch) (pl : Plan) (k : Ctx) (vs : List GItem) : State :=
    match vs with
    | it :: _ =>
      (match freeWin s c (passAt pl it.pass) with
        | some win =>
          let p := passAt pl it.pass
          if !(s.rgn (c / 32)).geo.begun && (pausing x || !mayBegin s x (c / 32)) then gfxPoint (c / 32) s
          else belowU s c (max (scratchTop p g) (p.stageBase + (win + 1) * 32 * p.vin)) (giveVertex pl k x c g it win s)
        | none => s)
    | [] =>
      if noItems s x c && !pausing x then setLg s c g (itemLg s c g 3 none)
      else gfxPoint (c / 32) s

/-- GFX.NEXT (R102, R132, R146, R149). -/
def execGfxNext (c g : Nat) (w : W128) (s : State) : Result :=
  coreRow 0xB 0 none (fun s =>
    match gfxEnv s (c / 32) with
    | none => s
    | some (l, _, pl, _) => giveItem c g (settleTile l pl c (closeLg s c g))) c g w s

/-! ### The other GFX instructions (R140, R142, R146) -/

/-- The frame of an instruction valid for one kind of item only (R146). A lane group that holds no item ends its launch as one with an item of
another kind does (DESIGN CHOICE, log entry 116). -/
def itemRow (op kind : Nat) (eff : PassRec → GItem → Lg → State → State) (c g : Nat) (w : W128) (s : State) : Result :=
  coreRow 0xB op none (fun s =>
    match (getLg s c g).item with
    | some it => if it.kind = kind then eff (itemPass s c it) it (getLg s c g) s else coreAbort s c 5 0x0502
    | none => coreAbort s c 5 0x0502) c g w s

/-- GFX.VOUT: position and attributes of the active lanes' vertices. -/
def execGfxVout (c g : Nat) (w : W128) (s : State) : Result :=
  itemRow 1 0 (fun p it y s =>
    let geo := (s.rgn (c / 32)).geo
    let put := fun (m : Map W32) lane => (List.range (p.vout / 4)).foldl (fun m j =>
      let v := if j < 4 then lgV y (wA w + j) lane else lgV y (wB w + (j - 4)) lane
      mset m 0 (64 * (it.num + lane) + j) (BitVec.ofNat 32 v)) m
    let vout := ((activeLanes y w).filter (fun lane => (it.verts.getD lane none).isSome)).foldl put geo.vout
    setLg (setGeo s (c / 32) { geo with vout := vout }) c g (stepPc y)) c g w s

/-- GFX.ATTR (R140, R143). -/
def execGfxAttr (c g : Nat) (w : W128) (s : State) : Result :=
  itemRow 2 1 (fun p it y s => setLg s c g (stepPc (mapLanes y w (wDst w) (attrAt p it (field (wImm w) 0 6))))) c g w s

/-- GFX.FOUT: colour of an attachment, and depth with MOD[0]. -/
def execGfxFout (c g : Nat) (w : W128) (s : State) : Result :=
  itemRow 3 1 (fun _ it y s =>
    let a := field (wImm w) 0 3
    let lanes := activeLanes y w
    let on := laneMaskOf (fun n => lanes.contains n)
    let depth := bitOf (wMod w) 0
    let outs := lanes.foldl (fun m lane =>
      let m1 := (List.range 4).foldl (fun m k => mset m 0 (lane * 64 + 4 * a + k) (BitVec.ofNat 32 (lgV y (wA w + k) lane))) m
      if depth then mset m1 0 (lane * 64 + 32) (BitVec.ofNat 32 (vsrc y w (wB w) lane)) else m1) it.outs
    let w1 := mset it.wrote 0 a (mget it.wrote 0 a ||| on)
    let w2 := if depth then mset w1 0 8 (mget w1 0 8 ||| on) else w1
    setLg s c g (stepPc { y with item := some { it with outs := outs, wrote := w2 } })) c g w s

/-- GFX.KILL: the lanes the predicate gates are discarded. -/
def execGfxKill (c g : Nat) (w : W128) (s : State) : Result :=
  itemRow 4 1 (fun _ it y s =>
    setLg s c g (stepPc { y with item := some { it with killed := it.killed ||| laneMaskOf (fun n => laneOn y w n) } })) c g w s

/-! ### Sampling -/

/-- A texel: its sampler number, level, column and row. -/
abbrev Texel := Nat × Nat × Nat × Nat

def texelVa (x : Launch) (m : Sampler) (e : Texel) : Nat :=
  argAt x m.argTex + blockOff m e.2.1 (e.2.2.2 / blockH m) (e.2.2.1 / blockW m) + texelOff m e.2.2.1 e.2.2.2

/-- Where the footprint directory holds a texel's block (R141). -/
def staged (q : CoreGfx) (m : Sampler) (e : Texel) : Option Nat :=
  q.foot.findIdx? (fun b => b == [e.1, e.2.1, e.2.2.2 / blockH m, e.2.2.1 / blockW m])

/-- A texel of the staged footprint; none where it is not staged. -/
def stagedTexel (s : State) (c : Nat) (p : PassRec) (m : Sampler) (e : Texel) : Option Nat :=
  (staged (gfxOn s c) m e).map (fun n =>
    ofLe (bytesAt (s.core c).ts (layoutBytes m.layout)
      (p.footBase + (gfxOn s c).footBuf * p.footBlocks * 1024 + n * 1024 + texelOff m e.2.2.1 e.2.2.2)))

/-- Read a texel through the core's CDC, as read `n` of its lane group's sample: the sampler's accesses hit, join and queue as any other
(R142, R158, R162). -/
def cdcTexel (c g : Nat) (k : Ctx) (x : Launch) (m : Sampler) (e : Texel) (n : Nat) (s : State) : State :=
  let va := texelVa x m e
  match trLocal s k va false with
  | .ok pa => makeAcc (c / 4) ⟨4, g, 3, va, pa - pa % 64, layoutBytes m.layout, [], n, 0, 0, c % 4, false⟩ s
  | _ => s

/-- Texel index under an address mode. -/
def wrapIdx (mode n : Nat) (i : Int) : Nat :=
  if mode = 0 then (i % (n : Int)).toNat
  else if mode = 1 then (max 0 (min i ((n : Int) - 1))).toNat
  else
    let j := i % (2 * (n : Int))
    (if j < (n : Int) then j else 2 * (n : Int) - 1 - j).toNat

/-- Floor of `u × n - h / 2`, exactly. -/
def texelPos (u n h : Nat) : Int :=
  match decodeF fp32 u with
  | .fin a e => let r := addF (2 * a * (n : Int)) e (-(h : Int)) 0; shiftI r.1 (r.2 - 1)
  | _ => 0

/-- Texels a filter reads at one level: one for nearest, four else. -/
def levelTexels (m : Sampler) (idx l u v : Nat) : List Texel :=
  let h := if m.filter = 0 then 0 else 1
  let i := texelPos u (levelW m l) h
  let j := texelPos v (levelH m l) h
  let at' := fun (a b : Int) => (idx, l, wrapIdx m.addrU (levelW m l) a, wrapIdx m.addrV (levelH m l) b)
  if m.filter = 0 then [at' i j] else [at' i j, at' (i + 1) j, at' i (j + 1), at' (i + 1) (j + 1)]

/-- The level of detail times 2^24, after LOD_BIAS and the clamp (R140). -/
def lodOf (m : Sampler) (raw : Int) : Int :=
  let b := raw + signed 16 m.lodBias * 65536
  max ((m.minLod : Int) * 65536) (min b ((m.maxLod : Int) * 65536))

/-- Levels a filter reads (R140). -/
def levelsRead (m : Sampler) (lod : Int) : List Nat :=
  let top := m.levels - 1
  if m.filter = 2 then
    let l := (shiftI lod (-24)).toNat
    [min l top, min (l + 1) top]
  else [min (shiftI (lod + 8388608) (-24)).toNat top]

/-- An explicit level of detail (R146). -/
def lodCode (w : Nat) : Int :=
  match decodeF fp32 w with
  | .fin a e => shiftI a (e + 24)
  | .inf neg => if neg then -(2 ^ 40 : Int) else 2 ^ 40
  | .nan => Config.quadLod [w]

/-- The four channels from the texels a filter read: a nearest read is its texel; the filter's rounding is open (log entry 14). -/
def filtered (m : Sampler) (u v : Nat) (lod : Int) (txs : List Nat) : List Nat :=
  if m.filter = 0 && isFin u && isFin v then pixelRead m.layout (txs.headD 0)
  else (List.range 4).map (fun ch => canon32 (Config.filterTexels ([ch, m.filter, m.layout, m.addrU, m.addrV, u, v, lod.toNat] ++ txs)).toNat)

/-- Texels one lane reads. -/
def laneTexels (m : Sampler) (idx u v : Nat) (lod : Int) : List Texel :=
  if isFin u && isFin v then (levelsRead m lod).flatMap (fun l => levelTexels m idx l u v) else []

/-- What a sample gives one lane: the texels `txs` filtered; a helper lane of a planned read and a NaN coordinate get 0. -/
def sampleOut (m : Sampler) (zero : Bool) (uv : Nat × Nat) (lod : Int) (txs : List Nat) : List Nat :=
  if zero then [0, 0, 0, 0] else filtered m uv.1 uv.2 (lodOf m lod) txs

/-- Complete a sample: the texel values, in the order of the lanes' reads, give the lanes' results. -/
def sampleDone (c g : Nat) (w : W128) (m : Sampler) (lanes : List Nat) (zero : Nat → Bool) (reads : Nat → List Texel) (uv : Nat → Nat × Nat)
    (lod : Nat → Int) (nan : Bool) (vals : List Nat) (s : State) : State :=
  let r := lanes.foldl (fun (a : Lg × List Nat × AFlags) lane =>
    let n := (reads lane).length
    let out := sampleOut m (zero lane) (uv lane) (lod lane) (a.2.1.take n)
    ((List.range 4).foldl (fun z j => lgSetV z (wDst w + j) lane (out.getD j 0)) a.1, a.2.1.drop n, a.2.2 ||| seenFlags (out.map (decodeF fp32))))
    (getLg s c g, vals, if nan then flNan else 0)
  setLg (coreFlags s c r.2.2) c g (stepPc { r.1 with smp := none })

/-- Sample the active lanes of an item: coordinates `uv` and level `lod` of each lane. A NaN coordinate gives zero texels and NAN_SEEN.
Texels that are not staged are read through the CDC, after the lane group's own unplanned accesses (R159); until they are there the lane
group stays at the word. -/
def sampleLanes (c g : Nat) (w : W128) (p : PassRec) (it : GItem) (y : Lg) (plan : Bool) (uv : Nat → Nat × Nat) (lod : Sampler → Nat → Int)
    (s : State) : State :=
  match coreLaunch s c with
  | none => s
  | some (l, x) =>
    match s.ctx? x.ctx, p.samplers[field (wImm w) 0 3]? with
    | some k, some m =>
      let idx := field (wImm w) 0 3
      let lanes := activeLanes y w
      let skip := fun lane => plan && laneMask it lane == 0
      let nan := fun lane => decodeF fp32 (uv lane).1 == .nan || decodeF fp32 (uv lane).2 == .nan
      let zero := fun lane => skip lane || nan lane
      let reads := fun lane => if zero lane then [] else laneTexels m idx (uv lane).1 (uv lane).2 (lodOf m (lod m lane))
      let all := lanes.flatMap reads
      let fin := fun (a : State) => match (getLg a c g).smp with
        | some vs => if vs.all (·.isSome) then
            sampleDone c g w m lanes zero reads uv (lod m) (lanes.any (fun lane => !skip lane && nan lane)) (vs.map (·.getD 0)) a else a
        | none => a
      if y.smp.isSome then fin s
      else
        match rangeBad s k (all.map (fun e => (texelVa x m e, layoutBytes m.layout, false))) with
        | some e => launchFault s l (c / 32) e.1 3 e.2 1 0 0
        | none =>
          let vals := all.map (fun e => if plan && m.planned then stagedTexel s c p m e else none)
          if vals.any (·.isNone) && unpPending s c g then s
          else
            fin (foldState ((all.zip vals).zipIdx.filter (fun e => e.1.2.isNone)) (fun e a => cdcTexel c g k x m e.1.1 e.2 a)
              (setLg s c g { y with smp := some vals }))
    | _, _ =>
      -- a sampler the pass does not have: the result is open
      let out := fun j => canon32 (Config.filterTexels [j, field (wImm w) 0 3]).toNat
      setLg s c g (stepPc ((List.range 4).foldl (fun z j => mapLanes z w (wDst w + j) (fun _ => out j)) y))

/-- The level of detail from the differences across a lane's quad. -/
def quadLodOf (m : Sampler) (uv : Nat → Nat × Nat) (lane : Nat) : Int :=
  Config.quadLod ([m.width, m.height] ++ (List.range 4).flatMap (fun j => [(uv (lane / 4 * 4 + j)).1, (uv (lane / 4 * 4 + j)).2]))

/-- GFX.SAMPLE (R140, R141): at the interpolated coordinates of the sampler's UV attributes. -/
def execGfxSample (c g : Nat) (w : W128) (s : State) : Result :=
  itemRow 5 1 (fun p it y s =>
    let n := ((p.samplers[field (wImm w) 0 3]?).map (·.uvAttr)).getD 0
    let uv := fun lane => (attrAt p it n lane, attrAt p it (n + 1) lane)
    sampleLanes c g w p it y true uv (fun m lane => quadLodOf m uv lane) s) c g w s

/-- GFX.USAMPLE (R142): at coordinates the program computes, through the CDC. -/
def execGfxUsample (c g : Nat) (w : W128) (s : State) : Result :=
  itemRow 6 1 (fun p it y s =>
    let uv := fun lane => (lgV y (wA w) lane, lgV y (wA w + 1) lane)
    let lod := fun m lane => if wB w = 0xFF then quadLodOf m uv lane else lodCode (vsrc y w (wB w) lane)
    sampleLanes c g w p it y false uv lod s) c g w s

/-- GFX.TWAIT (R146, R147): it goes on once no output of the core's current tile is left to blend. -/
def execGfxTwait (c g : Nat) (w : W128) (s : State) : Result :=
  itemRow 7 1 (fun _ it y s =>
    let waiting := (s.core c).lgs.any (fun e => match e.2.item with
        | some z => z.kind == 1 && !z.wrote.isEmpty
        | none => false) || (gfxOn s c).active.any (fun z => z.done && !z.wrote.isEmpty)
    if waiting then setLg s c g { y with item := some { it with atWait := true } }
    else setLg s c g (stepPc { y with item := some { it with atWait := false, twaited := true } })) c g w s

end Sys2Proof.Machine
end

