-- ==== Sys2Proof/Machine/Oasis.lean ====
section
/-! DEFINITION. The Oasis domain (R363 to R369, R372). -/

namespace Sys2Proof.Machine

/-! ### Compare channels (R366) -/

def setCmp (n : Nat) (c : Cmp) (s : State) : State := { s with oas := { s.oas with cmps := mset s.oas.cmps {} n c } }
/-- The 48-bit pair that the registers hold now, which a write of HI arms. -/
def cmpPair (c : Cmp) : BitVec 48 := BitVec.ofNat 48 (c.lo.toNat + 2 ^ 32 * c.hi.toNat)
/-- An enabled channel fires: (counter − C) mod 2^48 < 2^47 for its armed value C. -/
def cmpPassed (s : State) (c : Cmp) : Bool :=
  match c.armed with
  | some v => c.en && decide ((s.oas.count + 2 ^ 48 - v.toNat) % 2 ^ 48 < 2 ^ 47)
  | none => false

/-- WAKE: a PME message in DORMANT, WAKE# in OASIS. -/
def wakeAction (s : State) : State :=
  if s.pwr.dev == .dormant then s.send { kind := .pme }
  else if s.pwr.dev == .oasis then { s.send { kind := .wake } with oas := { s.oas with wakePin := true } }
  else s

/-- A channel fires: FIRED set, EN cleared, disarmed, and its actions. -/
def fireCmp (n : Nat) (s : State) : State :=
  let c := cmp s n
  let s1 := setCmp n { c with fired := true, en := false, armed := none } s
  let s2 := if c.wake then wakeAction s1 else s1
  if c.irq && s.pwr.dev == .up then raiseIrq s2 0 0 else s2

/-- An armed, enabled channel whose value is passed fires at once. -/
def checkCmp (n : Nat) (s : State) : State := if cmpPassed s (cmp s n) then fireCmp n s else s

def writeCmpLo (n v : Nat) (s : State) : State := setCmp n { cmp s n with lo := BitVec.ofNat 32 v } s
/-- Writing CMP_n_HI arms the channel with the pair. -/
def writeCmpHi (n v : Nat) (s : State) : State :=
  let c := { cmp s n with hi := BitVec.ofNat 32 (v % 65536) }
  checkCmp n (setCmp n { c with armed := some (cmpPair c) } s)
def writeCmpCtrl (n v : Nat) (s : State) : State :=
  let c := cmp s n
  checkCmp n (setCmp n { c with en := bitOf v 0, wake := bitOf v 1, irq := bitOf v 2, fired := c.fired && !bitOf v 3 } s)

/-- CMP_ARM. -/
def execCmpArm (n : Fin 4) (hi : W32) (s : State) : Result := regWrite (0x0A0014 + 16 * n) (writeCmpHi n hi.toNat) s

/-- COMPARE_FIRE: the counter has passed an armed, enabled channel's value. -/
def execCompareFire (n : Fin 4) (s : State) : Result := .next (if s.oas.powered then checkCmp n s else s)

/-! ### Temperature and supply comparators (R367, R368) -/

def setTemp (t : Nat) (c : TempCmp) (s : State) : State := { s with oas := { s.oas with temps := mset s.oas.temps {} t c } }
/-- Two's-complement °C. -/
def degC (b : Byte) : Int := b.toInt
/-- A measurement outside an enabled comparator's bounds. -/
def tempTrips (c : TempCmp) : Bool := c.en && (decide (degC c.high < degC c.now) || decide (degC c.now < degC c.low))

/-- TEMPERATURE_MEASUREMENT: a trip takes its WAKE action and is an alarm (R367, R393). -/
def execTemperatureMeasurement (t : Fin 2) (now : Byte) (s : State) : Result :=
  if !s.oas.powered then .next s
  else
    let c : TempCmp := { tempCmp s t with now := now }
    let other := tempTrips (tempCmp s (1 - t))
    if !tempTrips c then
      .next { setTemp t c s with sec := { s.sec with tripping := setField s.sec.tripping 1 1 (b2n other) } }
    else
      let s1 := setTemp t { c with trip := true } s
      let s2 := if c.wake then wakeAction s1 else s1
      .next (if latchesAlarms s2 then raiseAlarm 1 s2 else s2)

def writeTemp (t v : Nat) (s : State) : State :=
  let c := tempCmp s t
  setTemp t { c with
    high := BitVec.ofNat 8 v
    low := BitVec.ofNat 8 (v / 256)
    en := bitOf v 16
    wake := bitOf v 17
    trip := c.trip && !bitOf v 18 } s

/-- AUX_BELOW_THRESHOLD: under THRESH, BELOW is set, a class C event while the hub is powered; below 2.70 V Oasis is reset, whatever THRESH
holds (R34, R368). -/
def execAuxBelowThreshold (mv : Nat) (s : State) : Result :=
  if !s.oas.powered then .next s
  else
    let s1 := { s with oas := { s.oas with below := true } }
    let s2 := if s.oas.thresh ≤ mv then s else if bar0Up s then faultEvent s1 0 0xC 0 5 noCtx 0 else s1
    .next (if mv < 2700 then { s2 with oas := { powered := false } } else s2)

/-- AUX_POWER_UP: Oasis leaves its reset (R364, R365). -/
def execAuxPowerUp (s : State) : Result := .next (if s.oas.powered then s else { s with oas := {} })

/-- LPO_CAL_UPDATE (R365): every 2^24 XTAL25 cycles while XTAL25 runs. -/
def execLpoCalUpdate (cal : BitVec 20) (s : State) : Result :=
  if !s.oas.powered || s.clk.xtalGone || s.pwr.dev == .oasis then .next s
  else .next { s with oas := { s.oas with lpoCal := cal.toNat } }

def writeAuxCmp (v : Nat) (s : State) : State :=
  { s with oas := { s.oas with thresh := field v 0 12, below := s.oas.below && !bitOf v 16 } }

/-! ### Latches and pads (R351, R363, R372) -/

/-- A write of OAS_EVENT: CLK_TRIP clears by writing 1, and with it what the latch says of IBO. -/
def writeOasEvent (v : Nat) (s : State) : State :=
  if bitOf v 0 then { s with oas := { s.oas with clkTrip := false, iboStarting := false } } else s

/-- CLK_TRIP_CLEAR. -/
def execClkTripClear (s : State) : Result := regWrite 0x0A005C (writeOasEvent 1) s

/-- A write of OAS_PAD: PAD_RELEASE lets latched pads go, and stays set until pads are latched again (DESIGN CHOICE, log entry 47). -/
def writePad (v : Nat) (s : State) : State :=
  if bitOf v 1 && s.oas.latched then setBlower { s with oas := { s.oas with latched := false, padRelease := true } } else s

/-- PAD_RELEASE. -/
def execPadRelease (s : State) : Result := regWrite 0x0A0064 (writePad 2) s

def writeCistern (v : Nat) (s : State) : State := if bitOf v 1 then { s with oas := { s.oas with cisternErr := false } } else s

/-- FAULT_N is driven low, by the collector or by Oasis (R351, R403, R412). -/
def faultPinLow (s : State) : Bool := s.oas.clkTrip || (bar0Up s && faultLow s)

end Sys2Proof.Machine
end

