-- ==== Sys2Proof/Machine/HostIf.lean ====
section
/-! DEFINITION. The host link (R266 to R290): function-level resets, bus mastering, MSI-X, BAR4, errors on the link, DOE, SPDM, IDE and
the management endpoint (R392, R419). -/

namespace Sys2Proof.Machine

/-! ### Bus mastering and MSI-X (R279, R280) -/

/-- A write of a function's Command register, with Bus Master Enable and Memory Space Enable; that of a virtual function has no Memory Space
Enable (R271, R280; log entry 37). -/
def writeCommand (f : Nat) (bus mem : Bool) (s : State) : State :=
  s.setFunc f { s.func f with busMaster := bus, memSpace := if f = 0 then mem else (s.func f).memSpace }

/-- A new size of BAR4, taken only while Memory Space Enable of the physical function is 0 (R274). -/
def resizeBar4 (bar4 : Option (Fin 12)) (s : State) : State :=
  match bar4 with
  | some n => if (s.func 0).memSpace then s else { s with link := { s.link with bar4Log2 := 28 + n } }
  | none => s

/-- BUS_MASTER_ENABLE_SET: the held records are written in order, and pending messages leave. -/
def execBusMasterEnableSet (w : CommandWrite) (s : State) : Result :=
  if !isReady s 0 || !fnExists s w.fn then .next s else .next (resumeFn w.fn (writeCommand w.fn true w.mem (resizeBar4 w.bar4 s)))

/-- BUS_MASTER_ENABLE_CLEAR. -/
def execBusMasterEnableClear (w : CommandWrite) (s : State) : Result :=
  if !isReady s 0 || !fnExists s w.fn then .next s else .next (writeCommand w.fn false w.mem (resizeBar4 w.bar4 s))

/-- MSIX_ENABLE: a write of MSI-X Message Control with Enable set, and the Function Mask; one message leaves for each pending vector
that is not masked. -/
def execMsixEnable (w : MsixWrite) (s : State) : Result :=
  if !isReady s 0 || !fnExists s w.fn then .next s
  else .next (firePending w.fn (s.setFunc w.fn { s.func w.fn with msixEnable := true, functionMask := w.mask }))

/-- Vectors of a function (R273). -/
def nVectors (f : Nat) : Nat := if f = 0 then 2048 else 32
/-- Offset of a function's MSI-X table in its BAR0 (R274). -/
def msixBase (f : Nat) : Nat := if f = 0 then 0xF00000 else 0x8000

/-- Write one DWORD of a table entry. -/
def putMsix (f off v : Nat) (s : State) : State :=
  let k := vecIndex f (off / 16)
  let e := mget s.link.msix {} k
  let e' : MsixEntry :=
    if off % 16 / 4 = 0 then { e with addr := setField e.addr 2 30 (v / 4) }
    else if off % 16 / 4 = 1 then { e with addr := setField e.addr 32 32 v }
    else if off % 16 / 4 = 2 then { e with data := v % 2 ^ 32 }
    else { e with masked := bitOf v 0 }
  { s with link := { s.link with msix := mset s.link.msix {} k e' } }

/-- MSIX_TABLE_WRITE: an aligned write of one or two DWORDs of one entry; an unmask sends a pending message. -/
def writeMsix (f off size v : Nat) (s : State) : State :=
  if !(blockUp s (if f = 0 then 0xF00000 else 0) && (f == 0 || !s.flt.safe)) || !((size == 4 && off % 4 == 0) || (size == 8 && off % 8 == 0)) then
    badAccess s f (msixBase f + off) size
  else
    let s1 := putMsix f off (v % 2 ^ 32) s
    firePending f (if size = 8 then putMsix f (off + 4) (v / 2 ^ 32) s1 else s1)

def execMsixTableWrite (f : Fin 64) (off size : Nat) (v : W64) (s : State) : Result :=
  if !fnExists s f || 16 * nVectors f ≤ off then .next s else .next (writeMsix f off size v.toNat s)

/-! ### Function-level resets (R242, R282 to R284) -/

/-- Every context of the functions a test selects is destroyed. -/
def destroyFns (p : Nat → Bool) (s : State) : State := foldState (mkeys s.fe.ctxs (fun _ c => p c.fn)) destroyCtx s

/-- Step 3 of R282 for one function: its DTC entries, MSI-X state, held records, page requests and configuration. -/
def resetFn (f : Nat) (s : State) : State :=
  let out := fun (v : Nat) => vecFn v == f
  { s with
    mem := { s.mem with
      dtc := s.mem.dtc.filter (fun e => e.fn != f)
      prgs := mmap s.mem.prgs (fun _ g => if g.fn = f then { g with dead := true } else g)
      stopped := s.mem.stopped.filter (· != f) }
    link := { s.link with
      msix := mdrop s.link.msix (fun v _ => out v)
      pba := mdrop s.link.pba (fun v _ => out v)
      mods := mdrop s.link.mods (fun v _ => out v)
      held := s.link.held.filter (fun h => h.fn != f)
      waits := s.link.waits.filter (fun w => w.fn != f)
      funcs := mset s.link.funcs {} f {} } }

/-- The end of a reset: a Function Readiness Status message, and vector 0 of the physical function. -/
def flrDone (f : Nat) (s : State) : State := raiseIrq (s.send { kind := .frs, a := f }) 0 0

/-- A released CTX_DESTROY of a context that a reset has freed completes with OK (R284). -/
def closeDestroy (gone : List Nat) (e : Nat × Desc) (s : State) : State :=
  if e.2.phase == .released && dOpcode e.2.cur == 0xF01 && gone.contains (dField e.2.cur 40 2) then finishDesc s adminQid e.1 0 0 0 true else s

/-- Every context of the functions a test selects goes with their reset. -/
def resetFns (p : Nat → Bool) (s : State) : State :=
  let gone := mkeys s.fe.ctxs (fun _ c => p c.fn)
  let s1 := destroyFns p s
  match s1.queue? adminQid with
  | some x => foldState x.descs (closeDestroy gone) s1
  | none => s1

/-- VF_FLR, the whole of R282 as one step. -/
def execVfFlr (f : Fin 64) (s : State) : Result :=
  if f.val = 0 || !fnExists s f || !feRuns s then .next s
  else .next (flrDone f (resetFn f (resetFns (· == f.val) s)))

/-- VF_ENABLE_CLEAR (R283). -/
def execVfEnableClear (s : State) : Result :=
  if !s.link.vfEnable || !feRuns s then .next s
  else
    let s1 := foldState ((List.range 63).map (· + 1)) resetFn (resetFns (· != 0) s)
    .next (flrDone 0 { s1 with link := { s1.link with vfEnable := false, numVfs := 0 } })

/-- Offsets of the blocks a reset of the physical function returns to their reset values: HIF, FE, MEM, DISP, MEDIA, NET, ACCT. -/
def flrBlock (off : Nat) : Bool := between 0 0x030000 off || between 0x070000 0x0A0000 off || between 0x0B0000 0x0C0000 off

/-- ENABLE of the admin queue goes to 0: its unreleased descriptors are discarded, its released ones complete (R244). -/
def stopAdmin (s : State) : State :=
  match s.queue? adminQid with
  | none => s
  | some x => settleAdmin ((dropUnreleased adminQid (s.setQueue adminQid { x with st := .destroyed })))

/-- The fields of those blocks: registers, ports with a BYE, heads, region groups, ACCT_MODE; and the configuration of the physical function. -/
def resetFields (s : State) : State :=
  let s1 := foldState (List.range 4) (fun q a => if subEnabled a q then writeNetCtrl q 0 a else a) s
  let s2 := foldState (List.range 4) (fun h a => if (head a h).st == .off then a else disableHead h a) s1
  let s3 := { s2 with
    regs := s2.regs.filter (fun e => !flrBlock e.1)
    acct := { s2.acct with mode := 0 }
    fe := { s2.fe with lostGroups := [] }
    link := { s2.link with
      vfEnable := false, numVfs := 0, ide := mmap s2.link.ide (fun _ e => { e with st := .insecure })
      relaxed := false, doeIrq := false, doe := {}, bar4Log2 := 28, mps := 128, mrrs := 512, ctoOff := false } }
  stopAdmin s3

/-- PF_FLR (R283): every function is reset, and the fields the physical function set up. -/
def execPfFlr (s : State) : Result :=
  if !isReady s 0 || !feRuns s then .next s
  else .next (flrDone 0 (foldState (List.range 64) resetFn (resetFields (resetFns (fun _ => true) s))))

/-! ### BAR4 (R275, R404) -/

/-- Where a byte of the window lies in device memory. -/
def bar4At (s : State) (off : Nat) (write : Bool) : Option Nat :=
  let w := rd s 0x200
  let va := rd64 s 0x204 + off
  if !bitOf w 16 || localEnd ≤ va || s.flt.safe then none
  else
    match s.ctx? (field w 0 16) with
    | none => none
    | some c =>
      if c.st != .live then none
      else match trLocal s c va write with
        | .ok pa => some pa
        | _ => none

def bar4Log (off : Nat) (s : State) : State := if s.flt.safe then s else logViol s 0x0A 0 0 off (field (rd s 0x200) 0 16)

/-- Bytes from a window offset to the end of its page. -/
def bar4Chunk (s : State) (off n : Nat) : Nat := min n (65536 - (rd64 s 0x204 + off) % 65536)

/-- Read page by page; an unmapped page reads zeros and is logged. -/
def bar4Get : (fuel off n : Nat) → State → State × List Byte
  | 0, _, _, s => (s, [])
  | k + 1, off, n, s =>
    if n = 0 then (s, [])
    else
      let m := bar4Chunk s off n
      let (s1, bs) := match bar4At s off false with
        | some pa => (s, readPhys s pa m)
        | none => (bar4Log off s, List.replicate m 0)
      let (s2, rest) := bar4Get k (off + m) (n - m) s1
      (s2, bs ++ rest)

/-- Write the bytes whose byte enables are set. -/
def putEnabled (pa : Nat) (bs : List (Option Byte)) (s : State) : State :=
  bs.zipIdx.foldl (fun a e => match e.1 with
    | some b => writePhys a (pa + e.2) [b]
    | none => a) s

/-- Write page by page; an unmapped page's bytes are discarded and logged. -/
def bar4Put : (fuel off : Nat) → List (Option Byte) → State → State
  | 0, _, _, s => s
  | k + 1, off, bs, s =>
    if bs.isEmpty then s
    else
      let m := bar4Chunk s off bs.length
      let s1 := match bar4At s off true with
        | some pa => putEnabled pa (bs.take m) s
        | none => bar4Log off s
      bar4Put k (off + m) (bs.drop m) s1

/-- Accesses inside the window's size reach it. -/
def inBar4 (s : State) (off n : Nat) : Bool := isReady s 0 && bar0Up s && s.link.dlUp && decide (off + n ≤ 2 ^ s.link.bar4Log2)

/-- BAR4_READ: the completion carries the bytes. -/
def execBar4Read (off n : Nat) (s : State) : Result :=
  if !inBar4 s off n then .next s
  else
    let (s1, bs) := bar4Get (n / 65536 + 2) off n s
    .next (s1.send { kind := .tlpAnswer, a := off, b := n, bytes := bs })

/-- BAR4_WRITE: of any size and any byte enables. -/
def execBar4Write (off : Nat) (data : List (Option Byte)) (s : State) : Result :=
  if !inBar4 s off data.length then .next s else .next (bar4Put (data.length / 65536 + 2) off data s)

/-- The MSI-X table and the PBA of a function in its BAR0; the PBA is read only. -/
def inMsix (f off : Nat) : Bool := between (msixBase f) (msixBase f + 16 * nVectors f) off
def inPba (f off : Nat) : Bool := if f = 0 then between 0xF10000 0xF10100 off else between 0xC000 0xC004 off

/-- An access that R6 accepts: an aligned one of 32 bits, or of 64 bits to the MSI-X table or the PBA, to a block that answers. -/
def accessOk (s : State) (f off size : Nat) : Bool :=
  ((size == 4 && off % 4 == 0) || (size == 8 && off % 8 == 0 && (inMsix f off || inPba f off)))
    && (if f = 0 then blockUp s off else blockUp s 0 && !s.flt.safe)

/-- UNALIGNED_BAR0_ACCESS (R6, R358, R375): discarded or read as 0, and logged; an access that R6 accepts is none. -/
def execUnalignedBar0Access (f : Fin 64) (off size : Nat) (write : Bool) (s : State) : Result :=
  if !s.link.dlUp || !fnExists s f then .next s
  else if accessOk s f off size then .next s
  else
    let s1 := badAccess s f off size
    .next (if write then s1 else s1.send { kind := .tlpAnswer, a := off, b := size, bytes := List.replicate size 0 })

/-! ### Errors on the link (R286, R288) -/

/-- An AER report with its severity and header log, and its entry (KIND 0x0B): `aer` is the status bit, `none` where the answer reports
none. -/
def pcieEvent (req : Nat) (aer : Option (Nat × Byte)) (hdr : List Byte) (s : State) : State :=
  let s1 := match aer with
    | some (b, sev) => s.send { kind := .aer, a := req, b := b, bytes := sev :: hdr }
    | none => s
  logViol s1 0x0B 0xFF 4 req ((aer.map (·.1)).getD 0)

/-- MALFORMED_TLP: discarded. -/
def execMalformedTlp (x : BadTlp) (s : State) : Result :=
  .next (if s.link.dlUp then pcieEvent x.req.toNat (some (18, aerOwn)) x.hdr s else s)

/-- UNSUPPORTED_REQUEST: an Unsupported Request completion, for AtomicOps too (`_atomic`). -/
def execUnsupportedRequest (x : BadTlp) (_atomic : Bool) (s : State) : Result :=
  .next (if s.link.dlUp then (pcieEvent x.req.toNat (some (20, aerOwn)) x.hdr s).send { kind := .tlpAnswer, a := x.req.toNat, b := 1 } else s)

/-- POISONED_WRITE: discarded. -/
def execPoisonedWrite (x : BadTlp) (s : State) : Result :=
  .next (if s.link.dlUp then pcieEvent x.req.toNat (some (12, aerAdvisory)) x.hdr s else s)
/-- UNEXPECTED_COMPLETION: discarded. -/
def execUnexpectedCompletion (x : BadTlp) (s : State) : Result :=
  .next (if s.link.dlUp then pcieEvent x.req.toNat (some (16, aerAdvisory)) x.hdr s else s)

/-- The function a device read is made for. -/
def userFn (s : State) : ReadUser → Nat
  | .descriptor q _ _ _ => ((s.queue? q).map (·.fn)).getD 0
  | .launch l _ _ _ _ _ => ((s.launch? l).map (·.fn)).getD 0
  | .ring q => ((s.queue? q).map (·.fn)).getD 0

/-- The address of the ring slot that a queue reads next. -/
def nextSlot (x : Queue) : Nat := x.ringVa + 64 * (x.consumer % 2 ^ x.sizeLog2)

/-- A device read that got no data ends its user with HOST_FAULT (R192, R199). A ring read is made again at the next kick or sweep after a
timeout or an IDE failure; bad data are a fault of the ring (R236, R286). -/
def failRead (d : Nat) (u : ReadUser) (s : State) : State :=
  match u with
  | .ring q => (match s.queue? q with
      | some x => if d = 0x0702 && x.st == .active && hostBase ≤ nextSlot x then ringFault q x (nextSlot x) 4 d s else s
      | none => s)
  | .launch l r source index va off => (match s.launch? l with
      | some x => if onRegions x && x.regions.contains r then launchFault s l r va 4 d source index off else s
      | none => s)
  | .descriptor q i va off => (match s.queue? q, s.desc? q i with
      | some x, some y =>
        if (y.phase == .released || y.phase == .head) && y.launch.isNone then
          readFailed q i 4 d off (if q = adminQid then s else fillFault s x.ctx ⟨va, 0, 4, d, 2, 255, dTag y.cur, off⟩)
        else s
      | _, _ => s)

/-- POISONED_COMPLETION, ERROR_COMPLETION (UR or CA) and COMPLETION_TIMEOUT of a device read. -/
def readError (d : Nat) (aer : Option (Nat × Byte)) (hdr : List Byte) (u : ReadUser) (s : State) : State :=
  failRead d u (pcieEvent (ridOf s (userFn s u)) aer hdr s)

def execPoisonedCompletion (x : BadRead) (s : State) : Result :=
  .next (if feRuns s then readError 0x0702 (some (12, aerAdvisory)) x.hdr x.user s else s)
def execErrorCompletion (user : ReadUser) (s : State) : Result := .next (if feRuns s then readError 0x0702 none [] user s else s)
def execCompletionTimeout (user : ReadUser) (s : State) : Result :=
  .next (if feRuns s && !s.link.ctoOff then readError 0x0A01 (some (14, aerAdvisory)) [] user s else s)

def ide (s : State) (k : Nat) : Ide := mget s.link.ide {} k
def setIde (k : Nat) (x : Ide) (s : State) : State := { s with link := { s.link with ide := mset s.link.ide {} k x } }

/-- IDE_CHECK_FAILED (R286, R288): the stream goes to Insecure, and the work whose data was lost ends. -/
def execIdeCheckFailed (k : Fin 8) (x : LostReads) (s : State) : Result :=
  if !s.link.dlUp || (ide s k).st != .secure then .next s
  else
    let s1 := logViol ((setIde k { ide s k with st := .insecure } s).send { kind := .aer, a := 0, b := 28, bytes := aerOwn :: x.hdr }) 0x0C 0xFF 4 k 0
    .next (if feRuns s then foldState x.users (failRead 0x0A03) s1 else s1)

/-- ASPM_L1_ENTRY (R269): requested only with no descriptor in flight, no admitted or running launch and no outstanding request. -/
def execAspmL1Entry (s : State) : Result :=
  if s.link.dlUp && feRuns s && s.fe.queues.all (fun e => e.2.descs.isEmpty) && s.fe.launches.isEmpty && s.link.waits.isEmpty
      && s.mem.prgs.isEmpty && s.link.held.isEmpty then .next (s.send { kind := .l1 })
  else .next s

/-! ### Identity over DOE and SMBus (R287, R390, R392, R419) -/

/-- Bytes of a ledger entry (R386). -/
def ledgerBytes (n : Nat) (e : LedgerEntry) : List Byte :=
  leBytes 2 (n + 1) ++ leBytes 1 e.setting ++ leBytes 1 (b2n e.complete) ++ leBytes 4 e.from_ ++ leBytes 4 e.to_ ++ leBytes 4 e.fw

/-- SEC_OTP_STATE (R396). -/
def otpState (s : State) : Nat :=
  let o := s.sec.otp
  rollbackOf o % 256 + 2 ^ 8 * (o.revoked % 16) + 2 ^ 12 * (o.debug % 4) + 2 ^ 14 * (o.policy % 4) + 2 ^ 16 * (o.nodeSteps % 16)
    + 2 ^ 20 * (o.ceilingSteps % 8) + 2 ^ 24 * ((activeSeed o).getD 0)

def digestBytes (d : BitVec 256) : List Byte := (leBytes 32 d.toNat).reverse

/-- Measurement block `k` (R392). -/
def measurement (s : State) (k : Nat) : List Byte :=
  let h := headerOf s s.sec.bank
  if k = 1 then digestBytes Config.bootRomDigest
  else if k = 2 then digestBytes (Config.sha256 (h.take 192 ++ flashBytes s (bankBase s.sec.bank + 0x1000) (hField h 16 4)))
  else if k = 3 then leBytes 4 s.sec.fw ++ leBytes 4 s.sec.svn ++ leBytes 4 s.sec.bank
  else if k = 4 then leBytes 4 (otpState s) ++ leBytes 4 s.sec.otp.ceiling ++ leBytes 4 (myNode s)
  else digestBytes (Config.sha256 ((s.sec.otp.ledger.zipIdx.map (fun e => ledgerBytes e.2 e.1)).flatten))

/-- The algorithms of the responder (R392): ECDSA P-256, SHA-256, ECDHE on secp256r1, AES-256-GCM, by their bits in SPDM 1.2. -/
def spdmAlgorithms : List Byte := [0x10#8, 0x01#8, 0x08#8, 0x02#8]
/-- Slot 0: the root and identity certificates of the chosen identity area, then the attestation certificate (R390, R392). -/
def slot0 (s : State) : List Byte := ((s.sec.chain.map (identityArea s)).getD []) ++ s.sec.attestCert

/-- What a responder's answer rests on beside the request: its transcript, its keys, its algorithms, its certificates and its measurements
(log entry 9). -/
def responderState (s : State) : Nat :=
  bytesKey ((s.sec.spdm.flatten) ++ digestBytes ((identityKey s.sec.otp).getD 0#256) ++ digestBytes (s.sec.attest.getD 0#256)
    ++ spdmAlgorithms ++ slot0 s ++ ((List.range 5).flatMap (fun k => measurement s (k + 1))))

/-- A DOE request (R287): discarded while Busy, refused above 1,024 DW with DOE Error; otherwise it is in progress until its answer is ready or
DOE Abort discards it. One made before SEC is ready waits (R392). -/
def doeRequest (code : Nat) (m : List Byte) (act : DoeAct) (s : State) : Result :=
  let d := s.link.doe
  if !s.link.dlUp || d.request.isSome then .next s
  else if 4096 < m.length then .next { s with link := { s.link with doe := { d with error := true } } }
  else .next { s with link := { s.link with doe := { d with request := some ⟨code, m, act⟩, ready := false } } }

/-- DOE_DISCOVERY. -/
def execDoeDiscovery (m : List Byte) (s : State) : Result := doeRequest 0 m .none s

/-- DOE_ABORT: the request in progress is discarded, and the mailbox is cleared. -/
def execDoeAbort (s : State) : Result := .next { s with link := { s.link with doe := {} } }

/-- An SPDM message joins the transcript, newest first; `fresh` starts a new one, `session` says what it does to the session keys. -/
def noteSpdm (code : Nat) (m : List Byte) (fresh : Bool) (session : Option Bool) (s : State) : State :=
  { s with sec := { s.sec with
    spdm := (BitVec.ofNat 8 code :: m) :: (if fresh then [] else s.sec.spdm)
    keys := session.getD s.sec.keys } }

/-- A key message of a session (R288): keys for a stream with its associations, then go; stop makes it Insecure. What waited for a Secure stream
goes on (R289). -/
def ideKm (k : Nat) (kind : IdeKm) (s : State) : State :=
  match kind with
  | .setKeys rid addrs => setIde k { st := .keyed, rid := rid.toNat, addrs := (addrs.take 4).map (fun p => (p.1.toNat, p.2.toNat)) } s
  | .go => if (ide s k).st == .keyed then foldState (List.range 64) resumeFn (setIde k { ide s k with st := .secure } s) else s
  | .stop => setIde k { ide s k with st := .insecure } s

/-- What a request does when it is served; a key message only in a session. -/
def doeAct (r : DoeReq) (s : State) : State :=
  match r.act with
  | .none => s
  | .spdm fresh session => noteSpdm r.code r.bytes fresh session s
  | .ide k kind => if s.sec.keys then ideKm k kind s else s

/-- DOE_RESPONSE_READY, once SEC is ready (R392): the request is served, and its answer signalled on vector 0 when DOE Interrupt Enable is set. -/
def execDoeResponseReady (s : State) : Result :=
  match s.link.doe.request with
  | none => .next s
  | some r =>
    if !isReady s 2 then .next s
    else
      let s1 := doeAct r s
      let a := Config.protocolReply r.code r.bytes (responderState s1)
      let s2 := ({ s1 with link := { s1.link with doe := { s1.link.doe with request := none, ready := true, response := a } } }).send
        { kind := .doe, bytes := a }
      .next (if s.link.doeIrq then raiseIrq s2 0 0 else s2)

def spdm (code : Nat) (m : List Byte) (fresh : Bool) (session : Option Bool) (s : State) : Result := doeRequest code m (.spdm fresh session) s

/-- The SPDM 1.2 requests of R392, each under its request code. -/
def execGetVersion (m : List Byte) (s : State) : Result := spdm 0x84 m true (some false) s
def execGetCapabilities (m : List Byte) (s : State) : Result := spdm 0xE1 m false none s
def execNegotiateAlgorithms (m : List Byte) (s : State) : Result := spdm 0xE3 m false none s
def execGetDigests (m : List Byte) (s : State) : Result := spdm 0x81 m false none s
def execGetCertificate (m : List Byte) (s : State) : Result := spdm 0x82 m false none s
def execChallenge (m : List Byte) (s : State) : Result := spdm 0x83 m false none s
def execGetMeasurements (m : List Byte) (s : State) : Result := spdm 0xE0 m false none s
def execKeyExchange (m : List Byte) (s : State) : Result := spdm 0xE4 m false (some true) s
def execFinish (m : List Byte) (s : State) : Result := spdm 0xE5 m false none s
def execHeartbeat (m : List Byte) (s : State) : Result := spdm 0xE8 m false none s
def execKeyUpdate (m : List Byte) (s : State) : Result := spdm 0xE9 m false none s
def execEndSession (m : List Byte) (s : State) : Result := spdm 0xEC m false (some false) s

/-- IDE_KM_MESSAGE (R287, R288): a secured message of the DOE mailbox. -/
def execIdeKmMessage (k : Fin 8) (m : IdeKmMessage) (s : State) : Result := doeRequest 0x200 m.bytes (.ide k m.kind) s

/-- The SMBus target answers in every state but OASIS, from step 1 of start-up (R419). -/
def smbusUp (s : State) : Bool := latchesAlarms s

/-- The figures behind the PLDM sensors: temperatures, input power, supply, blower speed, the ready map and FLT_STATUS. -/
def sensorState (s : State) : Nat :=
  bytesKey (leBytes 1 (tempCmp s 0).now.toNat ++ leBytes 1 (tempCmp s 1).now.toNat ++ leBytes 2 s.pwr.inputW ++ leBytes 2 (supplyW s)
    ++ leBytes 2 s.pwr.rpm ++ leBytes 8 s.boot.ready ++ leBytes 8 s.boot.failed ++ leBytes 1 (b2n s.flt.safe + 2 * b2n s.flt.self + 4 * b2n (faultLow s)))

/-- MCTP_CONTROL_MESSAGE and PLDM_MONITORING_REQUEST: answered, and no register is written. -/
def execMctpControlMessage (m : List Byte) (s : State) : Result :=
  .next (if smbusUp s then s.send { kind := .smbus, bytes := Config.protocolReply 0x200 m 0 } else s)
def execPldmMonitoringRequest (m : List Byte) (s : State) : Result :=
  .next (if smbusUp s then s.send { kind := .smbus, a := 1, bytes := Config.protocolReply 0x201 m (sensorState s) } else s)
/-- SMB_ALERT_N is driven low while a PLDM event is pending for the management partner (R412; log entry 9). -/
def smbAlertLow (s : State) : Bool := smbusUp s && Config.pldmEventPending (sensorState s)

end Sys2Proof.Machine
end

