-- ==== Sys2Proof/Machine/Writes.lean ====
section
/-! DEFINITION. Register writes with a rule of their own that no other file holds, and the write of any register (R6 to R8, R67, R244,
R262, R265, R346, R375, R377, R404, R421, R422). -/

namespace Sys2Proof.Machine

/-! ### The FE block -/

/-- A write of FE_REGION_GROUPS: taken only while LC_ENABLE and LC_ADMITTED are 0. Groups set up again admit LC work again. -/
def writeGroups (v : Nat) (s : State) : State :=
  if lcIdle s then
    let s1 := wr s 0x010404 (setField (field v 0 16) 0 1 1)
    { s1 with fe := { s1.fe with lostGroups := [] } }
  else regRefused s 0 0x010404 v

/-- REGION_GROUPS_WRITE. -/
def execRegionGroupsWrite (v : W32) (s : State) : Result := regWrite 0x010404 (writeGroups v.toNat) s

/-- A write of FE_ADM_CTRL: setting LC_ENABLE is refused while the clock settings fall short (R346). -/
def writeAdmCtrl (v : Nat) (s : State) : State :=
  if bitOf v 0 && clocksShort s then regRefused s 0 0x010400 v else wr s 0x010400 (v &&& 0xFF01)

/-- LC_ENABLE_WRITE. -/
def execLcEnableWrite (v : W32) (s : State) : Result := regWrite 0x010400 (writeAdmCtrl v.toNat) s

/-- No launch runs or is displaced, and the residency set is empty (R265). -/
def residencyFree (s : State) : Bool :=
  s.fe.residency.isEmpty && s.fe.launches.all (fun p => p.2.phase == .waiting || p.2.phase == .ended)

/-- Bytes of every tile store at and above U: with no model resident they read as zero (R23, R258). -/
def zeroArea (s : State) : State :=
  foldState (mkeys s.cores (fun _ _ => true)) (fun c a =>
    a.setCore c { a.core c with ts := (a.core c).ts.filter (fun e => decide (e.1 < usableTop s)) }) s

def writeResCtrl (v : Nat) (s : State) : State :=
  if residencyFree s then zeroArea (wr s 0x010604 (field v 0 7)) else regRefused s 0 0x010604 v

/-- RES_CTRL_WRITE. -/
def execResCtrlWrite (v : W32) (s : State) : Result := regWrite 0x010604 (writeResCtrl v.toNat) s

/-- A write of FE_REGION_CMD: every DRAIN bit, then every FORCE bit. -/
def writeRegionCmd (v : Nat) (s : State) : State :=
  let s1 := foldState ((List.range 16).filter (fun r => bitOf v r)) (drainRegion v) s
  foldState ((List.range 16).filter (fun r => bitOf v (16 + r))) (forceOut v) s1
/-- A write of FE_REGION_RETURN. -/
def writeRegionReturn (v : Nat) (s : State) : State := foldState ((List.range 16).filter (fun r => bitOf v r)) (returnRegion v) s

/-- DRAIN_REGION, FORCE_REGION and RETURN_REGION: writes with one bit set. -/
def execDrainRegion (r : Fin 16) (s : State) : Result := regWrite 0x010610 (drainRegion (2 ^ r.val) r) s
def execForceRegion (r : Fin 16) (s : State) : Result := regWrite 0x010610 (forceOut (2 ^ (16 + r.val)) r) s
def execReturnRegion (r : Fin 16) (s : State) : Result := regWrite 0x010614 (returnRegion (2 ^ r.val) r) s

/-! ### The HIF block -/

/-- A write of an address register of the admin queue: accepted only while ENABLE is 0 (R244). -/
def writeAdminReg (off v : Nat) (s : State) : State :=
  if bitOf (rd s 0x118) 0 then s
  else wr s off (if off = 0x100 || off = 0x110 then v / 4096 * 4096 else if off = 0x108 then v / 8 * 8 else v)

/-- A write of HIF_ADMIN_CTRL: while ENABLE is 1 only its clear is accepted; a SIZE_LOG2 outside 4 to 20 keeps ENABLE at 0. -/
def writeAdminCtrl (v : Nat) (s : State) : State :=
  if bitOf (rd s 0x118) 0 then
    if bitOf v 0 then s else stopAdmin (wr s 0x118 (setField (rd s 0x118) 0 1 0))
  else
    let w := v &&& 0x07FF1F01
    let n := field v 8 5
    startAdmin (wr s 0x118 (if n < 4 || 20 < n then setField w 0 1 0 else w))

/-- ADMIN_CTRL_WRITE. -/
def execAdminCtrlWrite (v : W32) (s : State) : Result := regWrite 0x118 (writeAdminCtrl v.toNat) s

/-- A write of one half of HIF_READY_COPY: the record is written once. -/
def writeReadyCopy (hi : Bool) (v : Nat) (s : State) : State :=
  copyReady (if hi then wr s 0x34 v else wr s 0x30 (v / 32 * 32))

/-- READY_COPY_WRITE. -/
def execReadyCopyWrite (hi : Bool) (v : W32) (s : State) : Result :=
  regWrite (if hi then 0x34 else 0x30) (writeReadyCopy hi v.toNat) s

/-! ### Registers of the other blocks -/

/-- A write of FLT_CTRL: its enables and POLICY, and SAFE_EXIT (R405). -/
def writeFltCtrl (v : Nat) (s : State) : State :=
  let s1 := wr s 0x050000 ((v &&& 0x177))
  if bitOf v 16 then safeExitBit v s1 else s1

/-- W1C bits of a head: HPD_CHANGED, ENABLE_ERR, SIG_MISMATCH. -/
def writeDispStatus (h v : Nat) (s : State) : State :=
  let x := head s h
  setHead s h { x with
    hpdChanged := x.hpdChanged && !bitOf v 3
    enableErr := x.enableErr && !bitOf v 4 }
def writeMismatch (h v : Nat) (s : State) : State :=
  let x := head s h
  setHead s h { x with mismatch := (List.range 16).foldl (fun a k => if bitOf v k then setField a k 1 0 else a) x.mismatch }

/-- Four bytes of the flash page buffer. -/
def writePage (w v : Nat) (s : State) : State :=
  { s with sec := { s.sec with page := (leBytes 4 v).zipIdx.foldl (fun m e => mset m 0 (4 * w + e.2) e.1) s.sec.page } }

/-- A write of any other register: a plain one stores its writable bits, a read-only one ignores it, and where no register is the write
is discarded and logged (R8, R422). -/
def writeOther (off v : Nat) (s : State) : State :=
  match plainMask off with
  | some m => wr s off (v &&& m)
  | none => if readOnlyReg off then s else regRefused s 0 off v

/-- A write in a head's block, and in a sub-port's. -/
def writeHeadReg (h o off v : Nat) (s : State) : State :=
  if o = 0 then writeDispCtrl h v s
  else if o % 4 = 0 && o ≤ 0x1C then writeTiming h o v s
  else if o = 0x20 then writeDispStatus h v s
  else if o = 0x34 then writeMismatch h v s
  else if o = 0x80 then writeAux h v s
  else writeOther off v s

def writeSubReg (q o off v : Nat) (s : State) : State :=
  if o = 0 then writeNetCtrl q v s else if o = 0x50 then writeSakCmd q v s else writeOther off v s

def writeHif (off v : Nat) (s : State) : State :=
  if off = 0x30 then writeReadyCopy false v s
  else if off = 0x34 then writeReadyCopy true v s
  else if off = 0x118 then writeAdminCtrl v s
  else if between 0x100 0x118 off then writeAdminReg off v s
  else if off = 0x120 then wr s off (v / 4096 * 4096)
  else if off = 0x124 then wr s off v
  else if between 0x300 0x308 off then foldState (List.range 64) resumeFn (writeOther off v s)
  else if between 0x4000 0x7F80 off then settleMod ((off - 0x4000) / 4) (writeOther off v s)
  else writeOther off v s

def writeFe (off v : Nat) (s : State) : State :=
  if off = 0x010400 then writeAdmCtrl v s
  else if off = 0x010404 then writeGroups v s
  else if off = 0x010604 then writeResCtrl v s
  else if off = 0x010610 then writeRegionCmd v s
  else if off = 0x010614 then writeRegionReturn v s
  else writeOther off v s

def writeClkReg (off v : Nat) (s : State) : State :=
  if off = 0x030000 then writeClkSrc v s
  else if off = 0x03000C then writeClkMon v s
  else if off = 0x030010 then writeCoreCtrl 0 v s
  else if off = 0x030014 then writeCoreCtrl 1 v s
  else if off = 0x030020 then writeFabCtrl v s
  else if off = 0x030024 then writeFeCtrl v s
  else writeOther off v s

/-- A write in the SEC block; one that is no GO drops an ARM (R383). -/
def writeSecReg (off v : Nat) (s : State) : State :=
  if off = 0x060010 then writeOtpCmd v s
  else if off = 0x060030 then writeAlarm v s.sec.tripping s
  else if off = 0x060044 then writeFlashCmd v s
  else if between 0x060100 0x060200 off then writePage ((off - 0x060100) / 4) v (disarm s)
  else writeOther off v (disarm s)

def writeOasReg (off v : Nat) (s : State) : State :=
  if between 0x0A0010 0x0A0050 off then
    let n := (off - 0x0A0010) / 16
    if off % 16 = 0 then writeCmpLo n v s
    else if off % 16 = 4 then writeCmpHi n v s
    else if off % 16 = 8 then writeCmpCtrl n v s
    else writeOther off v s
  else if off = 0x0A0050 then writeTemp 0 v s
  else if off = 0x0A0054 then writeTemp 1 v s
  else if off = 0x0A0058 then writeAuxCmp v s
  else if off = 0x0A005C then writeOasEvent v s
  else if off = 0x0A0064 then writePad v s
  else if off = 0x0A0068 then writeCistern v s
  else writeOther off v s

/-- A write of the physical function to a set-up register, once its block answers. -/
def writeReg (off v : Nat) (s : State) : State :=
  match headOff off, subOff off with
  | some (h, o), _ => writeHeadReg h o off v s
  | none, some (q, o) => writeSubReg q o off v s
  | none, none =>
    if off < 0x010000 then writeHif off v s
    else if off < 0x020000 then writeFe off v s
    else if between 0x030000 0x040000 off then writeClkReg off v s
    else if off = 0x040000 then writeCap v s
    else if off = 0x040014 then writeThermal v s
    else if off = 0x050000 then writeFltCtrl v s
    else if off = 0x05000C then writeFltAck v s
    else if secReg off then writeSecReg off v s
    else if between 0x0A0000 0x0B0000 off then writeOasReg off v s
    else if off = 0x0B0000 then writeAcctMode v s
    else if off = 0x0B0004 then (if bitOf v 0 then clearAcct s else s)
    else writeOther off v s

/-- A write in a virtual function's BAR0: VF_ID and VF_FUNC are read only, every other offset is refused (R274). -/
def writeVf (f off v : Nat) (s : State) : State :=
  if !blockUp s 0 || s.flt.safe then badAccess s f off 4
  else if off < 8 || inPba f off then s
  else regRefused s f off v

/-- REGISTER_WRITE: an aligned 32-bit write to BAR0 of a function; UNALIGNED_BAR0_ACCESS logs any other. -/
def execRegisterWrite (f : Fin 64) (off : Nat) (v : W32) (s : State) : Result :=
  if !fnExists s f || (if f.val = 0 then 2 ^ 24 else 2 ^ 16) ≤ off then .next s
  else if off % 4 ≠ 0 then .next (badAccess s f off 4)
  else if inMsix f off then .next (writeMsix f (off - msixBase f) 4 v.toNat s)
  else if f.val = 0 then regWrite off (if inPba 0 off then id else writeReg off v.toNat) s
  else .next (writeVf f off v.toNat s)

end Sys2Proof.Machine
end

