-- ==== Sys2Proof/Machine/Dispatch.lean ====
section
/-! DEFINITION. The dispatch of a command to its meaning, one arm per constructor. -/

namespace Sys2Proof.Machine

def exec (i : Instr) (s : State) : Host.Outcome State Fault Refusal :=
  match i with
  | .nop q ix => Sys2Proof.Machine.execNop q ix s
  | .fenceRegister q ix => Sys2Proof.Machine.execFenceRegister q ix s
  | .fenceRelease q ix => Sys2Proof.Machine.execFenceRelease q ix s
  | .ctxQuery q ix => Sys2Proof.Machine.execCtxQuery q ix s
  | .launch q ix => Sys2Proof.Machine.execLaunch q ix s
  | .planLoad q ix => Sys2Proof.Machine.execPlanLoad q ix s
  | .planPatch q ix => Sys2Proof.Machine.execPlanPatch q ix s
  | .planFree q ix => Sys2Proof.Machine.execPlanFree q ix s
  | .planResidency q ix => Sys2Proof.Machine.execPlanResidency q ix s
  | .copy q ix => Sys2Proof.Machine.execCopy q ix s
  | .fill q ix => Sys2Proof.Machine.execFill q ix s
  | .memAlloc q ix => Sys2Proof.Machine.execMemAlloc q ix s
  | .memFree q ix => Sys2Proof.Machine.execMemFree q ix s
  | .memMap q ix => Sys2Proof.Machine.execMemMap q ix s
  | .memUnmap q ix => Sys2Proof.Machine.execMemUnmap q ix s
  | .migrate q ix => Sys2Proof.Machine.execMigrate q ix s
  | .advise q ix => Sys2Proof.Machine.execAdvise q ix s
  | .dispCommit q ix => Sys2Proof.Machine.execDispCommit q ix s
  | .commitValidationDone h => Sys2Proof.Machine.execCommitValidationDone h s
  | .mediaDecode q ix x => Sys2Proof.Machine.execMediaDecode q ix x s
  | .mediaEncode q ix => Sys2Proof.Machine.execMediaEncode q ix s
  | .nodeSet q ix => Sys2Proof.Machine.execNodeSet q ix s
  | .nodeClear q ix => Sys2Proof.Machine.execNodeClear q ix s
  | .nodeQuery q ix => Sys2Proof.Machine.execNodeQuery q ix s
  | .exportRange q ix => Sys2Proof.Machine.execExportRange q ix s
  | .unexportRange q ix => Sys2Proof.Machine.execUnexportRange q ix s
  | .qpCreate q ix => Sys2Proof.Machine.execQpCreate q ix s
  | .qpDestroy q ix => Sys2Proof.Machine.execQpDestroy q ix s
  | .roceSend q ix => Sys2Proof.Machine.execRoceSend q ix s
  | .roceWrite q ix => Sys2Proof.Machine.execRoceWrite q ix s
  | .roceRead q ix => Sys2Proof.Machine.execRoceRead q ix s
  | .roceRecv q ix => Sys2Proof.Machine.execRoceRecv q ix s
  | .ctxCreate q ix => Sys2Proof.Machine.execCtxCreate q ix s
  | .ctxDestroy q ix => Sys2Proof.Machine.execCtxDestroy q ix s
  | .queueCreate q ix => Sys2Proof.Machine.execQueueCreate q ix s
  | .queueDestroy q ix => Sys2Proof.Machine.execQueueDestroy q ix s
  | .kick f off size v wr => Sys2Proof.Machine.execKick f off size v wr s
  | .sweep wr => Sys2Proof.Machine.execSweep wr s
  | .descriptorRead q => Sys2Proof.Machine.execDescriptorRead q s
  | .descriptorHead q => Sys2Proof.Machine.execDescriptorHead q s
  | .descriptorRelease q => Sys2Proof.Machine.execDescriptorRelease q s
  | .waitReevaluation fence => Sys2Proof.Machine.execWaitReevaluation fence s
  | .waitTimeout q => Sys2Proof.Machine.execWaitTimeout q s
  | .descriptorComplete q ix => Sys2Proof.Machine.execDescriptorComplete q ix s
  | .irqModerationTimeout vec => Sys2Proof.Machine.execIrqModerationTimeout vec s
  | .lcStart r => Sys2Proof.Machine.execLcStart r s
  | .beStart => Sys2Proof.Machine.execBeStart s
  | .beSliceExpiry l => Sys2Proof.Machine.execBeSliceExpiry l s
  | .slipPoint r => Sys2Proof.Machine.execSlipPoint r s
  | .saveComplete l => Sys2Proof.Machine.execSaveComplete l s
  | .restore l => Sys2Proof.Machine.execRestore l s
  | .stepEnd l => Sys2Proof.Machine.execStepEnd l s
  | .crossModuleStepStart l => Sys2Proof.Machine.execCrossModuleStepStart l s
  | .stepOverrun l => Sys2Proof.Machine.execStepOverrun l s
  | .hardStop r => Sys2Proof.Machine.execHardStop r s
  | .drainRegion r => Sys2Proof.Machine.execDrainRegion r s
  | .forceRegion r => Sys2Proof.Machine.execForceRegion r s
  | .returnRegion r => Sys2Proof.Machine.execReturnRegion r s
  | .regionSelfTestDone r failedClusters unitFailed => Sys2Proof.Machine.execRegionSelfTestDone r failedClusters unitFailed s
  | .regionNap r => Sys2Proof.Machine.execRegionNap r s
  | .napExit r => Sys2Proof.Machine.execNapExit r s
  | .regionGroupsWrite v => Sys2Proof.Machine.execRegionGroupsWrite v s
  | .lcEnableWrite v => Sys2Proof.Machine.execLcEnableWrite v s
  | .resCtrlWrite v => Sys2Proof.Machine.execResCtrlWrite v s
  | .capWrite v => Sys2Proof.Machine.execCapWrite v s
  | .ctrlNop c g w => Sys2Proof.Machine.execCtrlNop c g w s
  | .ctrlBr c g w => Sys2Proof.Machine.execCtrlBr c g w s
  | .ctrlBar c g w => Sys2Proof.Machine.execCtrlBar c g w s
  | .ctrlSlip c g w => Sys2Proof.Machine.execCtrlSlip c g w s
  | .ctrlEnd c g w => Sys2Proof.Machine.execCtrlEnd c g w s
  | .scalarSmov c g w => Sys2Proof.Machine.execScalarSmov c g w s
  | .scalarSadd c g w => Sys2Proof.Machine.execScalarSadd c g w s
  | .scalarSsub c g w => Sys2Proof.Machine.execScalarSsub c g w s
  | .scalarSmul c g w => Sys2Proof.Machine.execScalarSmul c g w s
  | .scalarSand c g w => Sys2Proof.Machine.execScalarSand c g w s
  | .scalarSor c g w => Sys2Proof.Machine.execScalarSor c g w s
  | .scalarSxor c g w => Sys2Proof.Machine.execScalarSxor c g w s
  | .scalarSnot c g w => Sys2Proof.Machine.execScalarSnot c g w s
  | .scalarSshl c g w => Sys2Proof.Machine.execScalarSshl c g w s
  | .scalarSshr c g w => Sys2Proof.Machine.execScalarSshr c g w s
  | .scalarSsar c g w => Sys2Proof.Machine.execScalarSsar c g w s
  | .scalarScmp c g w => Sys2Proof.Machine.execScalarScmp c g w s
  | .scalarSucmp c g w => Sys2Proof.Machine.execScalarSucmp c g w s
  | .valuFadd c g w => Sys2Proof.Machine.execValuFadd c g w s
  | .valuFsub c g w => Sys2Proof.Machine.execValuFsub c g w s
  | .valuFmul c g w => Sys2Proof.Machine.execValuFmul c g w s
  | .valuFfma c g w => Sys2Proof.Machine.execValuFfma c g w s
  | .valuFmin c g w => Sys2Proof.Machine.execValuFmin c g w s
  | .valuFmax c g w => Sys2Proof.Machine.execValuFmax c g w s
  | .valuFabs c g w => Sys2Proof.Machine.execValuFabs c g w s
  | .valuFneg c g w => Sys2Proof.Machine.execValuFneg c g w s
  | .valuFcmp c g w => Sys2Proof.Machine.execValuFcmp c g w s
  | .valuHadd2 c g w => Sys2Proof.Machine.execValuHadd2 c g w s
  | .valuHmul2 c g w => Sys2Proof.Machine.execValuHmul2 c g w s
  | .valuHfma2 c g w => Sys2Proof.Machine.execValuHfma2 c g w s
  | .valuBadd2 c g w => Sys2Proof.Machine.execValuBadd2 c g w s
  | .valuBmul2 c g w => Sys2Proof.Machine.execValuBmul2 c g w s
  | .valuBfma2 c g w => Sys2Proof.Machine.execValuBfma2 c g w s
  | .valuHmin2 c g w => Sys2Proof.Machine.execValuHmin2 c g w s
  | .valuHmax2 c g w => Sys2Proof.Machine.execValuHmax2 c g w s
  | .valuIadd c g w => Sys2Proof.Machine.execValuIadd c g w s
  | .valuIsub c g w => Sys2Proof.Machine.execValuIsub c g w s
  | .valuImul c g w => Sys2Proof.Machine.execValuImul c g w s
  | .valuImulhi c g w => Sys2Proof.Machine.execValuImulhi c g w s
  | .valuImulhu c g w => Sys2Proof.Machine.execValuImulhu c g w s
  | .valuIadds c g w => Sys2Proof.Machine.execValuIadds c g w s
  | .valuIsubs c g w => Sys2Proof.Machine.execValuIsubs c g w s
  | .valuShl c g w => Sys2Proof.Machine.execValuShl c g w s
  | .valuShr c g w => Sys2Proof.Machine.execValuShr c g w s
  | .valuSar c g w => Sys2Proof.Machine.execValuSar c g w s
  | .valuAnd c g w => Sys2Proof.Machine.execValuAnd c g w s
  | .valuOr c g w => Sys2Proof.Machine.execValuOr c g w s
  | .valuXor c g w => Sys2Proof.Machine.execValuXor c g w s
  | .valuNot c g w => Sys2Proof.Machine.execValuNot c g w s
  | .valuIcmp c g w => Sys2Proof.Machine.execValuIcmp c g w s
  | .valuUcmp c g w => Sys2Proof.Machine.execValuUcmp c g w s
  | .valuIadd4 c g w => Sys2Proof.Machine.execValuIadd4 c g w s
  | .valuIsub4 c g w => Sys2Proof.Machine.execValuIsub4 c g w s
  | .valuIadds4 c g w => Sys2Proof.Machine.execValuIadds4 c g w s
  | .valuIsubs4 c g w => Sys2Proof.Machine.execValuIsubs4 c g w s
  | .valuIdot4 c g w => Sys2Proof.Machine.execValuIdot4 c g w s
  | .valuMov c g w => Sys2Proof.Machine.execValuMov c g w s
  | .valuSel c g w => Sys2Proof.Machine.execValuSel c g w s
  | .valuShfl c g w => Sys2Proof.Machine.execValuShfl c g w s
  | .valuBcast c g w => Sys2Proof.Machine.execValuBcast c g w s
  | .vfuncRcp c g w => Sys2Proof.Machine.execVfuncRcp c g w s
  | .vfuncSqrt c g w => Sys2Proof.Machine.execVfuncSqrt c g w s
  | .vfuncRsq c g w => Sys2Proof.Machine.execVfuncRsq c g w s
  | .vfuncExp2 c g w => Sys2Proof.Machine.execVfuncExp2 c g w s
  | .vfuncLog2 c g w => Sys2Proof.Machine.execVfuncLog2 c g w s
  | .vfuncSinpi c g w => Sys2Proof.Machine.execVfuncSinpi c g w s
  | .vfuncCospi c g w => Sys2Proof.Machine.execVfuncCospi c g w s
  | .vfuncTanh c g w => Sys2Proof.Machine.execVfuncTanh c g w s
  | .vfuncSigm c g w => Sys2Proof.Machine.execVfuncSigm c g w s
  | .vcvtCvt c g w => Sys2Proof.Machine.execVcvtCvt c g w s
  | .vcvtCvtmx c g w => Sys2Proof.Machine.execVcvtCvtmx c g w s
  | .tsLd c g w => Sys2Proof.Machine.execTsLd c g w s
  | .tsSt c g w => Sys2Proof.Machine.execTsSt c g w s
  | .matMma c g w => Sys2Proof.Machine.execMatMma c g w s
  | .accClear c g w => Sys2Proof.Machine.execAccClear c g w s
  | .accLoad c g w => Sys2Proof.Machine.execAccLoad c g w s
  | .accStore c g w => Sys2Proof.Machine.execAccStore c g w s
  | .semSig c g w => Sys2Proof.Machine.execSemSig c g w s
  | .semWait c g w => Sys2Proof.Machine.execSemWait c g w s
  | .semTry c g w => Sys2Proof.Machine.execSemTry c g w s
  | .unpLd c g w => Sys2Proof.Machine.execUnpLd c g w s
  | .unpSt c g w => Sys2Proof.Machine.execUnpSt c g w s
  | .unpAtomAdd c g w => Sys2Proof.Machine.execUnpAtomAdd c g w s
  | .unpAtomFadd c g w => Sys2Proof.Machine.execUnpAtomFadd c g w s
  | .unpAtomSmin c g w => Sys2Proof.Machine.execUnpAtomSmin c g w s
  | .unpAtomSmax c g w => Sys2Proof.Machine.execUnpAtomSmax c g w s
  | .unpAtomUmin c g w => Sys2Proof.Machine.execUnpAtomUmin c g w s
  | .unpAtomUmax c g w => Sys2Proof.Machine.execUnpAtomUmax c g w s
  | .unpAtomAnd c g w => Sys2Proof.Machine.execUnpAtomAnd c g w s
  | .unpAtomOr c g w => Sys2Proof.Machine.execUnpAtomOr c g w s
  | .unpAtomXor c g w => Sys2Proof.Machine.execUnpAtomXor c g w s
  | .unpAtomExch c g w => Sys2Proof.Machine.execUnpAtomExch c g w s
  | .unpAtomCas c g w => Sys2Proof.Machine.execUnpAtomCas c g w s
  | .unpLfill c g w => Sys2Proof.Machine.execUnpLfill c g w s
  | .unpWb c g w => Sys2Proof.Machine.execUnpWb c g w s
  | .unpInv c g w => Sys2Proof.Machine.execUnpInv c g w s
  | .xferStart c g w => Sys2Proof.Machine.execXferStart c g w s
  | .xferWait c g w => Sys2Proof.Machine.execXferWait c g w s
  | .gfxNext c g w => Sys2Proof.Machine.execGfxNext c g w s
  | .gfxVout c g w => Sys2Proof.Machine.execGfxVout c g w s
  | .gfxAttr c g w => Sys2Proof.Machine.execGfxAttr c g w s
  | .gfxFout c g w => Sys2Proof.Machine.execGfxFout c g w s
  | .gfxKill c g w => Sys2Proof.Machine.execGfxKill c g w s
  | .gfxSample c g w => Sys2Proof.Machine.execGfxSample c g w s
  | .gfxUsample c g w => Sys2Proof.Machine.execGfxUsample c g w s
  | .gfxTwait c g w => Sys2Proof.Machine.execGfxTwait c g w s
  | .autoTransferStart r n => Sys2Proof.Machine.execAutoTransferStart r n s
  | .transferComplete r => Sys2Proof.Machine.execTransferComplete r s
  | .cdcMissComplete cl => Sys2Proof.Machine.execCdcMissComplete cl s
  | .evictionWriteComplete cl => Sys2Proof.Machine.execEvictionWriteComplete cl s
  | .passStart c => Sys2Proof.Machine.execPassStart c s
  | .binPoolFull r => Sys2Proof.Machine.execBinPoolFull r s
  | .tileStagingDone c => Sys2Proof.Machine.execTileStagingDone c s
  | .fragmentBlended c => Sys2Proof.Machine.execFragmentBlended c s
  | .tileWriteOutDone c => Sys2Proof.Machine.execTileWriteOutDone c s
  | .atsInvalidate f pasid => Sys2Proof.Machine.execAtsInvalidate f pasid s
  | .pageRequestResponse prg code => Sys2Proof.Machine.execPageRequestResponse prg code s
  | .pageRequestTimeout prg => Sys2Proof.Machine.execPageRequestTimeout prg s
  | .priEnableWrite f on => Sys2Proof.Machine.execPriEnableWrite f on s
  | .frameScrubbed frame => Sys2Proof.Machine.execFrameScrubbed frame s
  | .memCorrectedError k => Sys2Proof.Machine.execMemCorrectedError k s
  | .memUncorrectableError frame user => Sys2Proof.Machine.execMemUncorrectableError frame user s
  | .stackFailure k => Sys2Proof.Machine.execStackFailure k s
  | .mirrorRebuildDone die => Sys2Proof.Machine.execMirrorRebuildDone die s
  | .ltaError die entry both => Sys2Proof.Machine.execLtaError die entry both s
  | .coreEccError c corrected place => Sys2Proof.Machine.execCoreEccError c corrected place s
  | .cdcParityError cl c site => Sys2Proof.Machine.execCdcParityError cl c site s
  | .unitHardwareFault u => Sys2Proof.Machine.execUnitHardwareFault u s
  | .faultHandlingEnd seq => Sys2Proof.Machine.execFaultHandlingEnd seq s
  | .collectorSelfFault intact => Sys2Proof.Machine.execCollectorSelfFault intact s
  | .fltAckWrite v => Sys2Proof.Machine.execFltAckWrite v s
  | .safeExit => Sys2Proof.Machine.execSafeExit s
  | .acctModeWrite v => Sys2Proof.Machine.execAcctModeWrite v s
  | .acctClear => Sys2Proof.Machine.execAcctClear s
  | .energySample watts => Sys2Proof.Machine.execEnergySample watts s
  | .perstAssert => Sys2Proof.Machine.execPerstAssert s
  | .perstDeassert conns upset => Sys2Proof.Machine.execPerstDeassert conns upset s
  | .hotReset => Sys2Proof.Machine.execHotReset s
  | .linkDisable => Sys2Proof.Machine.execLinkDisable s
  | .dlDown => Sys2Proof.Machine.execDlDown s
  | .linkTrained speed width flit cfg => Sys2Proof.Machine.execLinkTrained speed width flit cfg s
  | .bootImageLoaded readErrA readErrB => Sys2Proof.Machine.execBootImageLoaded readErrA readErrB s
  | .feReady => Sys2Proof.Machine.execFeReady s
  | .stackTrainingDone k ok => Sys2Proof.Machine.execStackTrainingDone k ok s
  | .unitReady u ok => Sys2Proof.Machine.execUnitReady u ok s
  | .vfFlr f => Sys2Proof.Machine.execVfFlr f s
  | .pfFlr => Sys2Proof.Machine.execPfFlr s
  | .vfEnableClear => Sys2Proof.Machine.execVfEnableClear s
  | .d3hotEntry => Sys2Proof.Machine.execD3hotEntry s
  | .dormantExit w => Sys2Proof.Machine.execDormantExit w s
  | .stackReady k ok => Sys2Proof.Machine.execStackReady k ok s
  | .mainPowerLoss => Sys2Proof.Machine.execMainPowerLoss s
  | .busMasterEnableSet w => Sys2Proof.Machine.execBusMasterEnableSet w s
  | .busMasterEnableClear w => Sys2Proof.Machine.execBusMasterEnableClear w s
  | .msixEnable w => Sys2Proof.Machine.execMsixEnable w s
  | .msixTableWrite f off size v => Sys2Proof.Machine.execMsixTableWrite f off size v s
  | .aspmL1Entry => Sys2Proof.Machine.execAspmL1Entry s
  | .doeDiscovery m => Sys2Proof.Machine.execDoeDiscovery m s
  | .doeAbort => Sys2Proof.Machine.execDoeAbort s
  | .doeResponseReady => Sys2Proof.Machine.execDoeResponseReady s
  | .getVersion m => Sys2Proof.Machine.execGetVersion m s
  | .getCapabilities m => Sys2Proof.Machine.execGetCapabilities m s
  | .negotiateAlgorithms m => Sys2Proof.Machine.execNegotiateAlgorithms m s
  | .getDigests m => Sys2Proof.Machine.execGetDigests m s
  | .getCertificate m => Sys2Proof.Machine.execGetCertificate m s
  | .challenge m => Sys2Proof.Machine.execChallenge m s
  | .getMeasurements m => Sys2Proof.Machine.execGetMeasurements m s
  | .keyExchange m => Sys2Proof.Machine.execKeyExchange m s
  | .finish m => Sys2Proof.Machine.execFinish m s
  | .heartbeat m => Sys2Proof.Machine.execHeartbeat m s
  | .keyUpdate m => Sys2Proof.Machine.execKeyUpdate m s
  | .endSession m => Sys2Proof.Machine.execEndSession m s
  | .ideKmMessage k m => Sys2Proof.Machine.execIdeKmMessage k m s
  | .mctpControlMessage m => Sys2Proof.Machine.execMctpControlMessage m s
  | .pldmMonitoringRequest m => Sys2Proof.Machine.execPldmMonitoringRequest m s
  | .malformedTlp x => Sys2Proof.Machine.execMalformedTlp x s
  | .unsupportedRequest x atomic => Sys2Proof.Machine.execUnsupportedRequest x atomic s
  | .poisonedWrite x => Sys2Proof.Machine.execPoisonedWrite x s
  | .poisonedCompletion x => Sys2Proof.Machine.execPoisonedCompletion x s
  | .errorCompletion user => Sys2Proof.Machine.execErrorCompletion user s
  | .unexpectedCompletion x => Sys2Proof.Machine.execUnexpectedCompletion x s
  | .completionTimeout user => Sys2Proof.Machine.execCompletionTimeout user s
  | .ideCheckFailed k x => Sys2Proof.Machine.execIdeCheckFailed k x s
  | .unalignedBar0Access f off size write => Sys2Proof.Machine.execUnalignedBar0Access f off size write s
  | .bar4Read off n => Sys2Proof.Machine.execBar4Read off n s
  | .bar4Write off data => Sys2Proof.Machine.execBar4Write off data s
  | .registerWrite f off v => Sys2Proof.Machine.execRegisterWrite f off v s
  | .adminCtrlWrite v => Sys2Proof.Machine.execAdminCtrlWrite v s
  | .headEnable h v => Sys2Proof.Machine.execHeadEnable h v s
  | .headDisable h v => Sys2Proof.Machine.execHeadDisable h v s
  | .timingWrite h off v => Sys2Proof.Machine.execTimingWrite h off v s
  | .retrain h => Sys2Proof.Machine.execRetrain h s
  | .linkTrainingComplete h ok => Sys2Proof.Machine.execLinkTrainingComplete h ok s
  | .auxRequest h v => Sys2Proof.Machine.execAuxRequest h v s
  | .auxComplete h reply data => Sys2Proof.Machine.execAuxComplete h reply data s
  | .hpdLow h => Sys2Proof.Machine.execHpdLow h s
  | .hpdRise h => Sys2Proof.Machine.execHpdRise h s
  | .irqHpd h => Sys2Proof.Machine.execIrqHpd h s
  | .frameStart h => Sys2Proof.Machine.execFrameStart h s
  | .vblankStart h => Sys2Proof.Machine.execVblankStart h s
  | .writebackDone h => Sys2Proof.Machine.execWritebackDone h s
  | .signatureLatch h r => Sys2Proof.Machine.execSignatureLatch h r s
  | .subportEnable p v => Sys2Proof.Machine.execSubportEnable p v s
  | .subportDisable p v => Sys2Proof.Machine.execSubportDisable p v s
  | .sakInstall p v => Sys2Proof.Machine.execSakInstall p v s
  | .qanatData p pk => Sys2Proof.Machine.execQanatData p pk s
  | .qanatReadReq p pk => Sys2Proof.Machine.execQanatReadReq p pk s
  | .qanatReadResp p pk => Sys2Proof.Machine.execQanatReadResp p pk s
  | .qanatAck p pk => Sys2Proof.Machine.execQanatAck p pk s
  | .qanatNak p pk => Sys2Proof.Machine.execQanatNak p pk s
  | .qanatHello p pk => Sys2Proof.Machine.execQanatHello p pk s
  | .qanatBye p pk => Sys2Proof.Machine.execQanatBye p pk s
  | .qanatTransit p pk => Sys2Proof.Machine.execQanatTransit p pk s
  | .retransmissionTimeout node => Sys2Proof.Machine.execRetransmissionTimeout node s
  | .helloTimer => Sys2Proof.Machine.execHelloTimer s
  | .peerTimeout node => Sys2Proof.Machine.execPeerTimeout node s
  | .roceRequestReceived p x => Sys2Proof.Machine.execRoceRequestReceived p x s
  | .roceResponseReceived qpn x => Sys2Proof.Machine.execRoceResponseReceived qpn x s
  | .roceRetryTimeout qpn rnr => Sys2Proof.Machine.execRoceRetryTimeout qpn rnr s
  | .cnpReceived p => Sys2Proof.Machine.execCnpReceived p s
  | .xtalTrip => Sys2Proof.Machine.execXtalTrip s
  | .xtalLpoTrip => Sys2Proof.Machine.execXtalLpoTrip s
  | .refclkTrip => Sys2Proof.Machine.execRefclkTrip s
  | .iboTrip => Sys2Proof.Machine.execIboTrip s
  | .lockTrip pll => Sys2Proof.Machine.execLockTrip pll s
  | .pllRelock pll => Sys2Proof.Machine.execPllRelock pll s
  | .pllRelockTimeout pll => Sys2Proof.Machine.execPllRelockTimeout pll s
  | .iboReady => Sys2Proof.Machine.execIboReady s
  | .iboStartTimeout => Sys2Proof.Machine.execIboStartTimeout s
  | .clockSwitch v => Sys2Proof.Machine.execClockSwitch v s
  | .coreCtrlWrite die v => Sys2Proof.Machine.execCoreCtrlWrite die v s
  | .fabCtrlWrite v => Sys2Proof.Machine.execFabCtrlWrite v s
  | .feCtrlWrite v => Sys2Proof.Machine.execFeCtrlWrite v s
  | .thermalLimitReached die temp mhz => Sys2Proof.Machine.execThermalLimitReached die temp mhz s
  | .thermalLimitCleared die temp => Sys2Proof.Machine.execThermalLimitCleared die temp s
  | .thermalEmergencyEnd => Sys2Proof.Machine.execThermalEmergencyEnd s
  | .pwrbrkNLow mhz => Sys2Proof.Machine.execPwrbrkNLow mhz s
  | .inputOvercurrent mhz => Sys2Proof.Machine.execInputOvercurrent mhz s
  | .brakeRelease => Sys2Proof.Machine.execBrakeRelease s
  | .thermalTrip => Sys2Proof.Machine.execThermalTrip s
  | .blowerStall rpm => Sys2Proof.Machine.execBlowerStall rpm s
  | .temperatureMeasurement t now => Sys2Proof.Machine.execTemperatureMeasurement t now s
  | .auxBelowThreshold mv => Sys2Proof.Machine.execAuxBelowThreshold mv s
  | .lpoCalUpdate cal => Sys2Proof.Machine.execLpoCalUpdate cal s
  | .cmpArm n hi => Sys2Proof.Machine.execCmpArm n hi s
  | .compareFire n => Sys2Proof.Machine.execCompareFire n s
  | .clkTripClear => Sys2Proof.Machine.execClkTripClear s
  | .padRelease => Sys2Proof.Machine.execPadRelease s
  | .readyCopyWrite hi v => Sys2Proof.Machine.execReadyCopyWrite hi v s
  | .otpArm v => Sys2Proof.Machine.execOtpArm v s
  | .otpGo v => Sys2Proof.Machine.execOtpGo v s
  | .otpChangeDone verified => Sys2Proof.Machine.execOtpChangeDone verified s
  | .flashRead v => Sys2Proof.Machine.execFlashRead v s
  | .flashProgram v => Sys2Proof.Machine.execFlashProgram v s
  | .flashErase v => Sys2Proof.Machine.execFlashErase v s
  | .flashOpDone => Sys2Proof.Machine.execFlashOpDone s
  | .voltageGlitch => Sys2Proof.Machine.execVoltageGlitch s
  | .tamper => Sys2Proof.Machine.execTamper s
  | .alarmClear v tripping => Sys2Proof.Machine.execAlarmClear v tripping s
  | .auxPowerUp => Sys2Proof.Machine.execAuxPowerUp s
  | .mainPowerUp conns upset => Sys2Proof.Machine.execMainPowerUp conns upset s
  | .xtal25Restart => Sys2Proof.Machine.execXtal25Restart s
  | .matrixOpComplete c store => Sys2Proof.Machine.execMatrixOpComplete c store s
  | .batchBinned r => Sys2Proof.Machine.execBatchBinned r s
  | .modelLoadComplete l fail => Sys2Proof.Machine.execModelLoadComplete l fail s
  | .atsTranslationCompletion f pasid page ans => Sys2Proof.Machine.execAtsTranslationCompletion f pasid page ans s
  | .subportLinkUp p => Sys2Proof.Machine.execSubportLinkUp p s
  | .subportLinkDown p => Sys2Proof.Machine.execSubportLinkDown p s
  | .invalidFrameReceived p why => Sys2Proof.Machine.execInvalidFrameReceived p why s
  | .pfcFrameReceived p x => Sys2Proof.Machine.execPfcFrameReceived p x s
  | .osfpModuleInsertion b plugged watts => Sys2Proof.Machine.execOsfpModuleInsertion b plugged watts s
  | .haboobSeedBurned => Sys2Proof.Machine.execHaboobSeedBurned s
  | .uartConsoleInput m => Sys2Proof.Machine.execUartConsoleInput m s
  | .stackTemperature85c k above => Sys2Proof.Machine.execStackTemperature85c k above s

end Sys2Proof.Machine
end

