-- ==== Sys2Proof/Machine/Tick.lean ====
section
/-! DEFINITION. What passes with time alone (R5, R123, R347, R365, R408): when no command waits one FE_CLK cycle passes, and the counters
of FE cycles, core cycles and LPO cycles advance. What else time brings comes as commands (log entry 12). -/

namespace Sys2Proof.Machine

/-- FE cycles that one FE_CLK cycle stands for (R347): 1, 2 or 4 by FE_DIV, 4 on IBO, 64 on XTAL25; 0 while the clock stands. -/
def feStep (s : State) : Nat :=
  if !bar0Up s || s.clk.stopped.contains 7 then 0
  else if clkCur s 7 = 0 then [1, 2, 4].getD (rd s 0x030024 % 4) 1
  else if clkCur s 7 = 1 then 4
  else if s.clk.xtalOk then 64
  else 0

/-- Cycles of a core clock between two readings of the FE cycle counter. -/
def coreCyclesIn (s : State) (d t0 t1 : Nat) : Nat :=
  if s.clk.stopped.contains d then 0 else t1 * coreMhz s d / 1600 - t0 * coreMhz s d / 1600

/-- A region's cluster domains run. -/
def rgnClocked (x : Region) : Bool := !x.napping && (x.st == .inService || x.st == .draining || x.st == .testing)

/-- The counts of one region over `n` core cycles. -/
def tickRegion (r n : Nat) (s : State) : State :=
  let x := s.rgn r
  if n = 0 || !rgnClocked x then s
  else
    let s1 := s.setRgn r { x with cycles := (x.cycles + n) % 2 ^ 64 }
    if x.launch.isNone || s.acct.mode = 1 then s1
    else { s1 with acct := { s1.acct with rgnCycles := mset s1.acct.rgnCycles 0 r ((mget s1.acct.rgnCycles 0 r + n) % 2 ^ 64) } }

/-- The wake counter (R365): 48 bits, while 3.3Vaux is up. -/
def tickOas (n : Nat) (s : State) : State :=
  if s.oas.powered then { s with oas := { s.oas with count := (s.oas.count + n) % 2 ^ 48 } } else s

/-- LPO cycles, at 32.768 kHz, up to a reading of the FE cycle counter: one takes 390,625 / 8 FE cycles. -/
def lpoAt (t : Nat) : Nat := t * 8 / 390625

/-- One FE_CLK cycle; one LPO cycle while FE_CLK stands. -/
def tick (s : State) : State :=
  let k := feStep s
  if k = 0 then tickOas 1 s
  else
    let t := s.now + k
    let s1 := foldState (List.range 16) (fun r a => tickRegion r (coreCyclesIn s (r / 8) s.now t) a) s
    { tickOas (lpoAt t - lpoAt s.now) s1 with now := t % 2 ^ 64 }

end Sys2Proof.Machine
end

