-- ==== Sys2Proof/Machine/CfgSpace.lean ====
section
/-! DEFINITION. What configuration space tells the host (R3, R190, R266, R271 to R274): identification values, capability lists, and the
fields of the SR-IOV, ATS, PRI and PASID capabilities. A configuration read changes nothing, so it is no command: these are functions of the state. -/

namespace Sys2Proof.Machine

/-- The identification registers of a function's configuration space (R3), by aligned offset: `none` where R3 gives no value. A virtual
function reports Device ID 0xFFFF. -/
def configId (fn off : Nat) : Option Nat :=
  if off = 0 then some (0x1F4C + 2 ^ 16 * (if fn = 0 then 0x0880 else 0xFFFF))
  else if off = 8 then some (0xB0 + 2 ^ 8 * 0x120000)
  else if off = 0x2C then some (0x1F4C + 2 ^ 16 * (if Config.strapVariant = 0#2 then 0x0A01 else 0x0A02))
  else none

/-- Capabilities of R273. -/
inductive Cap where
  | pciExpress | powerManagement | msix | aer | acs | ari | sriov | resizableBar | ats | pasid | pri | doe | ide | ltr | l1Substates
  | serialNumber | dataLinkFeature | phy16 | phy32 | phy64 | laneMargining | flitLogging | functionReadiness
  deriving DecidableEq, Repr

/-- The capability list of the physical function, and of a virtual function (R273). -/
def capList (fn : Nat) : List Cap :=
  if fn = 0 then [.pciExpress, .powerManagement, .msix, .aer, .acs, .ari, .sriov, .resizableBar, .ats, .pasid, .pri, .doe, .ide, .ltr,
    .l1Substates, .serialNumber, .dataLinkFeature, .phy16, .phy32, .phy64, .laneMargining, .flitLogging, .functionReadiness]
  else [.pciExpress, .msix, .aer, .acs, .ari, .ats, .pasid, .pri, .functionReadiness]

/-- The SR-IOV capability (R3, R271). -/
structure Sriov where
  initialVfs : Nat := 63
  totalVfs : Nat := 63
  firstVfOffset : Nat := 1
  vfStride : Nat := 1
  vfDeviceId : Nat := 0x0881
  /-- Supported page sizes in KiB. -/
  pageKib : List Nat := [4, 8, 16, 32, 64]
  migrationCapable : Bool := false
  ariPreserved : Bool := true
  vfEnable : Bool := false
  numVfs : Nat := 0
  deriving DecidableEq, Repr

def sriov (s : State) : Sriov := { vfEnable := s.link.vfEnable, numVfs := s.link.numVfs }

/-- ATS, PRI and PASID (R190). -/
structure AtsCap where
  /-- Smallest translation unit, in bytes. -/
  unit : Nat := 4096
  /-- Largest page cached as one entry, as a power of two of that unit. -/
  maxSize : Nat := 18
  invalidateDepth : Nat := 32
  pageAligned : Bool := true
  globalInvalidate : Bool := false
  prgCapacity : Nat
  prgPasidRequired : Bool := true
  stopMarkers : Bool := false
  pasidBits : Nat := 20
  executePermission : Bool := false
  privilegedMode : Bool := false
  deriving DecidableEq, Repr

def atsCap (fn : Nat) : AtsCap := { prgCapacity := prgCapacity fn }

/-- Link options that the host may ask for (R266): rates by number, widths, payload and read request sizes, outstanding requests. -/
structure LinkOptions where
  rates : List Nat := [1, 2, 3, 4, 5, 6]
  widths : List Nat := [1, 2, 4, 8, 16]
  payloads : List Nat := [128, 256, 512]
  readRequests : List Nat := [128, 256, 512, 1024, 2048, 4096]
  outstanding : Nat := 4096
  tagBits : Nat := 14
  ctoRanges : List Char := ['A', 'B', 'C', 'D']
  ctoDisable : Bool := true
  deriving DecidableEq, Repr

/-- A BAR (R274): its number, its size in bytes, all of them 64-bit. -/
structure Bar where
  num : Nat
  size : Nat
  wide : Bool := true
  prefetchable : Bool := false
  deriving DecidableEq, Repr

/-- The BARs of a function (R274). -/
def bars (s : State) (fn : Nat) : List Bar :=
  if fn = 0 then [{ num := 0, size := 2 ^ 24 }, { num := 2, size := 2 ^ 16 }, { num := 4, size := 2 ^ s.link.bar4Log2, prefetchable := true }]
  else [{ num := 0, size := 2 ^ 16 }, { num := 2, size := 2 ^ 16 }]

/-- The sizes that BAR4 may be given, as powers of two (R274). -/
def bar4Sizes : List Nat := (List.range 12).map (28 + ·)

/-- The ACS capability of each function (R285): what it reports, with controls that hold trivially, since nothing is forwarded. -/
structure Acs where
  p2pRequestRedirect : Bool := true
  p2pCompletionRedirect : Bool := true
  upstreamForwarding : Bool := true
  directTranslatedP2p : Bool := true
  deriving DecidableEq, Repr

def acs : Acs := {}

/-! ### What a host request carries (R191, R266, R268, R272) -/

/-- Kinds of host write of the device. -/
inductive WriteKind where
  | bulk | completion | mirror | status | ctxEntry | msix
  deriving DecidableEq, Repr

/-- The attributes of a host request: Routing ID, PASID, and the ordering bits. -/
structure TlpTag where
  rid : Nat
  pasid : Option Nat
  relaxed : Bool
  idOrdered : Bool := false
  noSnoop : Bool := false
  deriving DecidableEq, Repr

/-- A context's host write carries its function's Routing ID and the context's PASID; Relaxed Ordering only on the bulk data of transfers and
copies, where it is enabled (R268, R272). -/
def writeTag (s : State) (c : Ctx) (k : WriteKind) : TlpTag := ⟨ridOf s c.fn, c.pasid, k == .bulk && s.link.relaxed, false, false⟩
/-- A context's host read. -/
def readTag (s : State) (c : Ctx) : TlpTag := ⟨ridOf s c.fn, c.pasid, false, false, false⟩

end Sys2Proof.Machine
end

