-- ==== Sys2Proof/Machine/Reads.lean ====
section
/-! DEFINITION. What a read of BAR0 or of the identification registers returns (R3, R7 to R9, R66, R123, R208, R244, R265, R290, R313,
R331, R341, R370 to R372, R386, R396, R399, R406, R409, R420 to R422). A read changes nothing (R7), so it is no command: these are functions of the state. -/

namespace Sys2Proof.Machine

def lo32 (v : Nat) : Nat := v % 2 ^ 32
def hi32 (v : Nat) : Nat := v / 2 ^ 32 % 2 ^ 32
/-- A word of a byte record. -/
def wordAt (bs : List Byte) (w : Nat) : Nat := ofLe ((bs.drop (4 * w)).take 4)
/-- Bits `[lo + len - 1 : lo]` of a register, in place. -/
def at_ (lo len v : Nat) : Nat := v % 2 ^ len * 2 ^ lo
/-- A register made of equal fields. -/
def packed (width : Nat) (vs : List Nat) : Nat := (vs.zipIdx.map (fun e => at_ (width * e.2) width e.1)).sum

/-! ### Records behind an index register -/

/-- A violation entry's 32 bytes (R406). -/
def violBytes (v : ViolRec) : List Byte :=
  leBytes 2 v.kind ++ leBytes 1 v.fn ++ leBytes 1 v.answer ++ leBytes 4 v.count ++ leBytes 8 v.place ++ leBytes 8 v.stamp ++ leBytes 4 v.detail
    ++ leBytes 4 v.vseq
/-- A ledger entry's 16 bytes (R386): zeros at or beyond the count. -/
def ledgerSlot (s : State) (k : Nat) : List Byte :=
  match s.sec.otp.ledger[k]? with
  | some e => ledgerBytes k e
  | none => List.replicate 16 0
def violSlot (s : State) (k : Nat) : List Byte :=
  match mfind s.flt.viols k with
  | some v => violBytes v
  | none => List.replicate 32 0

/-! ### Status registers by block -/

/-- The MSI-X table entry and the PBA word of a function. -/
def msixWord (s : State) (f off : Nat) : Nat :=
  let e := mget s.link.msix {} (vecIndex f (off / 16))
  if off % 16 / 4 = 0 then lo32 e.addr else if off % 16 / 4 = 1 then hi32 e.addr else if off % 16 / 4 = 2 then e.data else b2n e.masked
def pbaWord (s : State) (f w : Nat) : Nat := packed 1 ((List.range 32).map (fun k => b2n (mget s.link.pba false (vecIndex f (32 * w + k)))))

def hifStatus (s : State) (off : Nat) : Nat :=
  let l := s.link
  let busy := packed 1 ((List.range 64).map (fun f => b2n (l.flrBusy.contains f)))
  if off = 0 then 0x08801F4C
  else if off = 4 then 0x03B0 + at_ 16 2 Config.strapVariant.toNat
  else if off = 0x10 then
    at_ 0 4 l.speed + at_ 4 5 l.width + at_ 9 1 (b2n l.flit) + at_ 10 1 (b2n (l.dlUp && (decide (l.speed < 6) || decide (l.width < 16))))
  else if off = 0x20 then lo32 s.boot.ready
  else if off = 0x24 then hi32 s.boot.ready
  else if off = 0x28 then lo32 s.boot.failed
  else if off = 0x2C then hi32 s.boot.failed
  else if off = 0x308 then lo32 busy
  else if off = 0x30C then hi32 busy
  else 0

/-- STATE_i of FE_REGION_STATE (R265). -/
def rgnCode (x : Region) : Nat :=
  match x.st with
  | .inService => 0
  | .draining => 1
  | .out => 2
  | .testing => 3
  | .failed => 4

def feStatus (s : State) (off : Nat) : Nat :=
  if off = 0x010408 then Config.powerFloorW.toNat
  else if off = 0x01040C then
    at_ 0 16 (lcAdmitted s) + at_ 16 1 (b2n !s.pwr.emergencies.isEmpty) + at_ 17 1 (b2n (capDeferred s))
  else if off = 0x010410 then lo32 s.fe.refused
  else if off = 0x010414 then hi32 s.fe.refused
  else if off = 0x010418 then lo32 s.fe.breaches
  else if off = 0x010608 then at_ 0 14 s.fe.lcFree.sum + at_ 16 13 s.fe.beFree.sum
  else if off = 0x01060C then
    at_ 0 5 s.fe.residency.length + at_ 8 5 (s.fe.residency.filter (fun e => !e.pins.isEmpty)).length
  else if off = 0x010618 then packed 4 ((List.range 8).map (fun r => rgnCode (s.rgn r)))
  else if off = 0x01061C then packed 4 ((List.range 8).map (fun r => rgnCode (s.rgn (8 + r))))
  else 0

def stackCode (x : Stack) : Nat :=
  match x.st with
  | .training => 0
  | .ready => 1
  | .failed => 2
  | .outOfService => 3

/-- Frames of the whole device in a state. -/
def framesIn (s : State) (n : State → Nat → Nat) : Nat := ((List.range 8).map (n s)).sum

def memStatus (s : State) (off : Nat) : Nat :=
  if off = 0x020000 then packed 2 ((List.range 8).map (fun k => stackCode (stackAt s k))) + at_ 16 1 (b2n s.mem.mirrorLost)
  else if off = 0x020004 then framesIn s freeIn
  else if off = 0x020008 then framesIn s scrubIn
  else if off = 0x02000C then framesIn s (fun a k => countFrames a k (· == .retired))
  else if between 0x020020 0x020040 off then (stackAt s ((off - 0x020020) / 4)).cerr
  else if between 0x020040 0x020060 off then (stackAt s ((off - 0x020040) / 4)).uerr
  else 0

def clkStatus (s : State) (off : Nat) : Nat :=
  let c := s.clk
  if off = 0x030000 then c.sel
  else if off = 0x030004 then at_ 0 22 c.cur + at_ 31 1 (b2n c.switching)
  else if off = 0x030008 then b2n c.xtalOk + at_ 1 1 (b2n c.refclkOk) + at_ 2 1 (b2n c.iboReady) + at_ 3 15 c.locks
  else if off = 0x03000C then at_ 0 6 c.mon + at_ 6 1 (b2n c.iboFault)
  else if off = 0x030018 then coreMhz s 0
  else if off = 0x03001C then coreMhz s 1
  else 0

/-- No launch runs or waits, no descriptor is in flight, no copy or media descriptor runs (R356). -/
def idleDevice (s : State) : Bool :=
  s.fe.launches.all (fun p => p.2.phase == .ended) && s.fe.queues.all (fun q => q.2.descs.all (fun d => d.2.phase == .done)) && s.net.jobs.isEmpty
/-- PWR_STATE: 2 when all 16 regions nap, 1 IDLE, 0 ACTIVE. -/
def pwrState (s : State) : Nat :=
  if (List.range 16).all (fun r => (s.rgn r).napping) then 2 else if idleDevice s then 1 else 0

def pwrStatus (s : State) (off : Nat) : Nat :=
  let p := s.pwr
  if off = 0x040004 then s.sec.otp.ceiling
  else if off = 0x04000C then pwrState s + at_ 16 16 (packed 1 ((List.range 16).map (fun r => b2n (s.rgn r).napping)))
  else if off = 0x040010 then at_ 0 10 p.inputW
  else if off = 0x040014 then rd s off + at_ 8 8 (hottest s) + at_ 16 1 (b2n (p.emergencies.contains 1))
  else if off = 0x040018 then at_ 0 3 p.connA + at_ 4 3 p.connB + at_ 16 11 (supplyW s) + at_ 31 1 (b2n p.underSupply)
  else if off = 0x04001C then rd s off + at_ 16 1 (b2n p.brake) + at_ 17 1 p.brakeCause + at_ 24 8 p.brakeCount
  else if off = 0x040020 then at_ 0 8 p.duty + at_ 8 16 p.rpm + at_ 24 1 (b2n p.stalled)
  else rd s off

def fltStatus (s : State) (off : Nat) : Nat :=
  let f := s.flt
  if off = 0x050000 then rd s off ||| 0x88
  else if off = 0x050004 then b2n f.safe + at_ 1 1 (b2n f.self) + at_ 2 1 (b2n (faultLow s))
  else if off = 0x050008 then f.seq
  else if off = 0x05000C then f.ack
  else if between 0x050010 0x050020 off then mget f.last 0 ((off - 0x050010) / 4)
  else if between 0x050040 0x050060 off then wordAt (histBytes s (rd s 0x050020)) ((off - 0x050040) / 4)
  else if off = 0x050080 then f.vseq
  else if between 0x0500A0 0x0500C0 off then wordAt (violSlot s (rd s 0x050084)) ((off - 0x0500A0) / 4)
  else rd s off

def secStatus (s : State) (off : Nat) : Nat :=
  let c := s.sec
  let o := c.otp
  if off = 0x060000 then c.fw
  else if off = 0x060004 then
    at_ 0 1 c.bank + at_ 1 1 (b2n c.fallback) + at_ 2 2 c.keySlot + at_ 4 8 c.svn + at_ 12 3 c.resA + at_ 16 3 c.resB
      + at_ 20 1 (b2n (activeSeed o).isSome)
  else if off = 0x060008 then
    otpState s
  else if off = 0x060010 then rd s off + at_ 12 4 c.status
  else if off = 0x060018 then o.ledger.length
  else if between 0x060020 0x060030 off then wordAt (ledgerSlot s (rd s 0x06001C)) ((off - 0x060020) / 4)
  else if off = 0x060030 then at_ 0 4 c.alarms + at_ 8 2 c.lastAction
  else if off = 0x060048 then c.flashStatus
  else if between 0x060100 0x060200 off then wordAt (pageBytes s) ((off - 0x060100) / 4)
  else rd s off

def headCode (x : Head) : Nat :=
  match x.st with
  | .off => 0
  | .training => 1
  | .active => 2
  | .linkFailed => 3

def headStatus (s : State) (h o off : Nat) : Nat :=
  let x := head s h
  if o = 0x20 then
    headCode x + at_ 2 1 (b2n x.hpd) + at_ 3 1 (b2n x.hpdChanged) + at_ 4 1 (b2n x.enableErr) + at_ 5 1 (b2n x.timingStopped)
  else if o = 0x24 then lo32 x.frame
  else if o = 0x28 then hi32 x.frame
  else if o = 0x2C then headLine s h
  else if o = 0x30 then x.repeats
  else if o = 0x34 then x.mismatch
  else if between 0x40 0x80 o then (mget x.crc 0 ((o - 0x40) / 4)).toNat
  else if o = 0x84 then x.auxStatus
  else rd s off

def engCode (s : State) (e : Nat) : Nat :=
  match (engine s e).st with
  | .starting => 0
  | .ready => if engineBusy s e then 2 else 1
  | .failed => 3

def mediaStatus (s : State) (off : Nat) : Nat :=
  if off = 0x080000 then packed 2 ((List.range 4).map (engCode s))
  else if between 0x080010 0x080020 off then (mget s.engines {} ((off - 0x080010) / 4)).pictures
  else 0

def subStatus (s : State) (q o off : Nat) : Nat :=
  let x := sub s q
  if o = 4 then
    b2n x.linkUp + at_ 1 1 (b2n x.txAn.isSome) + at_ 2 4 (packed 1 ((List.range 4).map (fun a => b2n (x.rxAn.contains a)))) + at_ 6 1 (b2n x.pnLow)
  else if between 0x20 0x50 o then 0
  else if o = 0x60 then x.dropped
  else rd s off

def netStatus (s : State) (off : Nat) : Nat :=
  if off = 0x090000 then (s.net.nodeId.getD Config.shippedNodeId).toNat
  else if off = 0x090010 then lo32 Config.shippedMacBase.toNat
  else if off = 0x090014 then hi32 Config.shippedMacBase.toNat
  else rd s off

def oasStatus (s : State) (off : Nat) : Nat :=
  let o := s.oas
  if off = 0x0A0000 then lo32 o.count
  else if off = 0x0A0004 then hi32 o.count
  else if between 0x0A0010 0x0A0050 off then
    let c := cmp s ((off - 0x0A0010) / 16)
    if off % 16 = 0 then c.lo.toNat
    else if off % 16 = 4 then c.hi.toNat
    else if off % 16 = 8 then b2n c.en + at_ 1 1 (b2n c.wake) + at_ 2 1 (b2n c.irq) + at_ 3 1 (b2n c.fired)
    else 0
  else if off = 0x0A0050 || off = 0x0A0054 then
    let t := tempCmp s ((off - 0x0A0050) / 4)
    t.high.toNat + at_ 8 8 t.low.toNat + at_ 16 1 (b2n t.en) + at_ 17 1 (b2n t.wake) + at_ 18 1 (b2n t.trip) + at_ 24 8 t.now.toNat
  else if off = 0x0A0058 then at_ 0 12 o.thresh + at_ 16 1 (b2n o.below)
  else if off = 0x0A005C then b2n o.clkTrip + at_ 1 1 (b2n o.iboStarting) + at_ 8 3 o.wakeCause
  else if off = 0x0A0060 then o.lpoCal
  else if off = 0x0A0064 then b2n o.latched + at_ 1 1 (b2n o.padRelease)
  else if off = 0x0A0068 then b2n (cisternValid s) + at_ 1 1 (b2n o.cisternErr)
  else 0

def acctStatus (s : State) (off : Nat) : Nat :=
  let a := s.acct
  let r := (off - 0x0B0100) / 16
  if off = 0x0B0000 then a.mode
  else if off = 0x0B0008 then lo32 a.energy
  else if off = 0x0B000C then hi32 a.energy
  else if off = 0x0B0010 then lo32 a.hubBytes
  else if off = 0x0B0014 then hi32 a.hubBytes
  else if between 0x0B0100 0x0B0200 off then
    [lo32 (mget a.rgnCycles 0 r), hi32 (mget a.rgnCycles 0 r), lo32 (mget a.rgnBytes 0 r), hi32 (mget a.rgnBytes 0 r)].getD (off % 16 / 4) 0
  else if between 0x0B0200 0x0B0300 off then mget a.jobs 0 ((off - 0x0B0200) / 4)
  else if between 0x0B0300 0x0B0400 off then mget a.descs 0 ((off - 0x0B0300) / 4)
  else 0

def rgnStatus (s : State) (off : Nat) : Nat :=
  let x := s.rgn ((off - 0x100000) / 0x10000)
  [lo32 x.cycles, hi32 x.cycles, x.coreCerr, x.cdcCerr].getD (off % 0x10000 / 4) 0

/-- The value of a set-up register of the physical function, 0 where an offset holds none (R422). -/
def readReg (s : State) (off : Nat) : Nat :=
  match headOff off, subOff off with
  | some (h, o), _ => headStatus s h o off
  | none, some (q, o) => subStatus s q o off
  | none, none =>
    if inMsix 0 off then msixWord s 0 (off - 0xF00000)
    else if inPba 0 off then pbaWord s 0 ((off - 0xF10000) / 4)
    else if (plainMask off).isSome && !between 0x040000 0x070000 off then rd s off
    else if off < 0x010000 then (if keptReg off then rd s off else hifStatus s off)
    else if off < 0x020000 then (if keptReg off then rd s off else feStatus s off)
    else if off < 0x030000 then memStatus s off
    else if off < 0x040000 then (if keptReg off then rd s off else clkStatus s off)
    else if off < 0x050000 then pwrStatus s off
    else if off < 0x060000 then fltStatus s off
    else if off < 0x070000 then secStatus s off
    else if between 0x080000 0x090000 off then mediaStatus s off
    else if between 0x090000 0x0A0000 off then netStatus s off
    else if between 0x0A0000 0x0B0000 off then oasStatus s off
    else if between 0x0B0000 0x0C0000 off then acctStatus s off
    else if between 0x100000 0x200000 off then rgnStatus s off
    else 0

/-- An aligned 32-bit read of BAR0 of a function: zeros from a block that does not answer. A virtual function's BAR0 holds VF_ID, VF_FUNC
and its MSI-X structures. -/
def readBar0 (s : State) (f off : Nat) : Nat :=
  if f = 0 then (if blockUp s off then readReg s off else 0)
  else if !blockUp s 0 || s.flt.safe then 0
  else if off = 0 then 0x08811F4C
  else if off = 4 then f
  else if inMsix f off then msixWord s f (off - msixBase f)
  else if inPba f off then pbaWord s f ((off - 0xC000) / 4)
  else 0

end Sys2Proof.Machine
end

