-- ==== Sys2Proof/Safety.lean ====
section
/-! DEFINITION. What counts as a well-kept state, and the words that the statements share. -/

namespace Sys2Proof.Machine

/-- Both memories are in canonical form. -/
def Memory.wf (s : State) : Bool := mwf s.hostMem 0 && mwf s.devMem 0

/-! ### Words of the statements -/

/-- The front end runs and serves descriptor `i` of queue `q`: it is released, and the word being served has this opcode. -/
abbrev Serves (s : State) (q i op : Nat) (x : Queue) (d : Desc) : Prop :=
  feRuns s = true ∧ s.queue? q = some x ∧ s.desc? q i = some d ∧ d.phase = .released ∧ dOpcode d.cur = op

/-- The twelve SPDM 1.2 requests of R392 with their codes, whether each begins a new transcript, and what it does to the session. -/
def spdmRequests : List ((List Byte → Instr) × Nat × Bool × Option Bool) :=
  [(.getVersion, 0x84, true, some false), (.getCapabilities, 0xE1, false, none), (.negotiateAlgorithms, 0xE3, false, none),
   (.getDigests, 0x81, false, none), (.getCertificate, 0x82, false, none), (.challenge, 0x83, false, none),
   (.getMeasurements, 0xE0, false, none), (.keyExchange, 0xE4, false, some true), (.finish, 0xE5, false, none),
   (.heartbeat, 0xE8, false, none), (.keyUpdate, 0xE9, false, none), (.endSession, 0xEC, false, some false)]

/-- A media descriptor is served: the front end serves it, its engine `e` runs, and its record `r` is read and in order. -/
abbrev MediaServes (s : State) (q i op : Nat) (bad : Nat → Bool) (x : Queue) (c : Ctx) (d : Desc) (e r : Nat) : Prop :=
  Serves s q i op x d ∧ engineGone s x d = false ∧ d.engine = some e ∧ engineUp s e = true ∧ s.ctx? x.ctx = some c ∧ dField d.cur 48 4 = 128 ∧ isLocal (dField d.cur 40 8) 128 = true
    ∧ mediaRecord s x q i d.cur = .ok r ∧ bad r = false ∧ stateBusy s q i x d (stateVa op r) = false

/-- A valid caravan record `r` of a kind is served from descriptor `i` of queue `q`. -/
abbrev CaravanServes (s : State) (q i kind : Nat) (x : Queue) (d : Desc) (r : Nat) : Prop :=
  Serves s q i 0x500 x d ∧ netRecord s x q i d.cur = .ok r ∧ caravanOk x (dField d.cur 48 4) r = true ∧ field r 0 8 = kind

/-- A valid RoCEv2 post `r` of an operation is next for its live QP `y`, and its local range translates. -/
abbrev PostServes (s : State) (q i op : Nat) (x : Queue) (d : Desc) (r : Nat) (y : Qp) : Prop :=
  Serves s q i 0x501 x d ∧ netRecord s x q i d.cur = .ok r ∧ dField d.cur 48 4 = 32 ∧ field r 40 24 = 0 ∧ field r 32 8 = op
    ∧ field r 64 32 ≤ 2 ^ 31 ∧ qp? s (field r 0 32) = some y ∧ y.ctx = x.ctx ∧ y.error = false
    ∧ (y.sends ++ y.recvs).any (fun p => p.q == q && p.i == i) = false
    ∧ (unposted s (field r 0 32) (op == 3)).any (fun p => postBefore p (d.stamp, q, i)) = false
    ∧ rangeCheck s x.ctx (field r 128 64) (field r 64 32) = none
    ∧ (localBytes s x.ctx (userDesc q i) (field r 128 64) (field r 64 32) (op == 2 || op == 3)).stop = none

/-- A packet of an UP node for this module, of a type, arrives on a sub-port that receives. -/
abbrev FromUpNode (s : State) (p : Nat) (k : QPacket) (t : Nat) (n : Node) : Prop :=
  canReceive s p = true ∧ saOk s p = true ∧ pkOk k = true ∧ pkType k = t ∧ pkSrc k ≠ myNode s ∧ pkDst k = myNode s ∧ node? s (pkSrc k) = some n ∧ n.st = .up

/-- Lane group `g` of core `c` can issue the well-formed word `w` of a row. -/
abbrev Issues (s : State) (c g cls op : Nat) (w : W128) : Prop := rowWord cls op none w = true ∧ canIssue s c g w = true

/-- A core row as a constructor of the command type. -/
abbrev CoreRow := Fin 512 → Fin 32 → W128 → Instr

/-- SCALAR rows: constructor, OP, and the 64-bit function of the word and the two sources (R103, R425). -/
def scalarRows : List (CoreRow × Nat × (W128 → BitVec 64 → BitVec 64 → BitVec 64)) :=
  [(.scalarSmov, 0x0, fun _ a _ => a), (.scalarSadd, 0x1, fun _ a b => a + b), (.scalarSsub, 0x2, fun _ a b => a - b),
   (.scalarSmul, 0x3, fun _ a b => a * b), (.scalarSand, 0x4, fun _ a b => a &&& b), (.scalarSor, 0x5, fun _ a b => a ||| b),
   (.scalarSxor, 0x6, fun _ a b => a ^^^ b), (.scalarSnot, 0x7, fun _ a _ => ~~~a), (.scalarSshl, 0x8, fun _ a b => a <<< (b.toNat % 64)),
   (.scalarSshr, 0x9, fun _ a b => a >>> (b.toNat % 64)), (.scalarSsar, 0xA, fun _ a b => a.sshiftRight (b.toNat % 64)),
   (.scalarScmp, 0xB, fun w a b => if condInt (wMod w) a.toInt b.toInt then 1#64 else 0#64),
   (.scalarSucmp, 0xC, fun w a b => if condInt (wMod w) (a.toNat : Int) (b.toNat : Int) then 1#64 else 0#64)]

/-- `y` is lane group `x` after a vector result: its counter has advanced, each active lane of `w` holds `f lane` in register `d`, and
every other lane, register and field is as it was. -/
def WroteLanes (x y : Lg) (w : W128) (d : Nat) (f : Nat → BitVec 32) : Prop :=
  y = { x with pc := x.pc + 1, v := y.v } ∧ ∀ r lane, lane < 32 →
    mget y.v 0 (32 * r + lane) = if r = d ∧ laneOn x w lane = true then f lane else mget x.v 0 (32 * r + lane)

/-- `y` is lane group `x` after a predicate result: bit `lane` of register `p` is `f lane` in each active lane, p7 reads all ones, and
everything else is as it was. -/
def WrotePred (x y : Lg) (w : W128) (p : Nat) (f : Nat → Bool) : Prop :=
  y = { x with pc := x.pc + 1, p := y.p } ∧ ∀ r lane, lane < 32 →
    (lgP y r).getLsbD lane = if r = 7 then true else if r = p ∧ laneOn x w lane = true then f lane else (lgP x r).getLsbD lane

/-- A 32-bit source of a lane. -/
def src32 (x : Lg) (w : W128) (code lane : Nat) : BitVec 32 := BitVec.ofNat 32 (vsrc x w code lane)

/-- INT32 and movement rows of VALU: constructor, OP, and the function of the three sources (R89, R103, R425). -/
def intRows : List (CoreRow × Nat × (BitVec 32 → BitVec 32 → BitVec 32 → BitVec 32)) :=
  [(.valuIadd, 0x20, fun a b _ => a + b), (.valuIsub, 0x21, fun a b _ => a - b), (.valuImul, 0x22, fun a b _ => a * b),
   (.valuImulhi, 0x23, fun a b _ => BitVec.ofInt 32 (a.toInt * b.toInt / 4294967296)),
   (.valuImulhu, 0x24, fun a b _ => BitVec.ofNat 32 (a.toNat * b.toNat / 4294967296)),
   (.valuIadds, 0x25, fun a b _ => BitVec.ofInt 32 (max (-2147483648) (min 2147483647 (a.toInt + b.toInt)))),
   (.valuIsubs, 0x26, fun a b _ => BitVec.ofInt 32 (max (-2147483648) (min 2147483647 (a.toInt - b.toInt)))),
   (.valuShl, 0x27, fun a b _ => a <<< (b.toNat % 32)), (.valuShr, 0x28, fun a b _ => a >>> (b.toNat % 32)),
   (.valuSar, 0x29, fun a b _ => a.sshiftRight (b.toNat % 32)), (.valuAnd, 0x2A, fun a b _ => a &&& b), (.valuOr, 0x2B, fun a b _ => a ||| b),
   (.valuXor, 0x2C, fun a b _ => a ^^^ b), (.valuNot, 0x2D, fun a _ _ => ~~~a),
   (.valuIdot4, 0x34, fun a b d => BitVec.ofNat 32 (dot4 a.toNat b.toNat d.toNat)), (.valuMov, 0x40, fun a _ _ => a)]

/-- Packed INT8 rows: constructor, OP, and the result of each byte lane (R103). -/
def byteRows : List (CoreRow × Nat × (BitVec 8 → BitVec 8 → BitVec 8)) :=
  [(.valuIadd4, 0x30, fun a b => a + b), (.valuIsub4, 0x31, fun a b => a - b),
   (.valuIadds4, 0x32, fun a b => BitVec.ofInt 8 (max (-128) (min 127 (a.toInt + b.toInt)))),
   (.valuIsubs4, 0x33, fun a b => BitVec.ofInt 8 (max (-128) (min 127 (a.toInt - b.toInt))))]

/-- Floating rows of VALU and the vector functions: constructor, class, OP, and the result with its flags (R89, R104, R425). -/
def floatRows : List (CoreRow × Nat × Nat × (Nat → Nat → Nat → Nat × AFlags)) :=
  let one : (Nat → Nat) → (Int → Int → Bool) → (Int → Int → Bool) → Nat → Nat → Nat → Nat × AFlags :=
    fun f pole root a _ _ => (f a, vfuncFlags pole root a (f a))
  [(.valuFadd, 2, 0x00, fun a b _ => fp32Op2 fvAdd a b), (.valuFsub, 2, 0x01, fun a b _ => fp32Op2 (fun x y => fvAdd x (fvNeg y)) a b),
   (.valuFmul, 2, 0x02, fun a b _ => fp32Op2 fvMul a b),
   (.valuFfma, 2, 0x03, fun a b d => vecRound fp32 [decodeF fp32 a, decodeF fp32 b, decodeF fp32 d]
     (fvAdd (fvMul (decodeF fp32 a) (decodeF fp32 b)) (decodeF fp32 d))),
   (.valuFmin, 2, 0x04, fun a b _ => fp32Op2 fvMin a b), (.valuFmax, 2, 0x05, fun a b _ => fp32Op2 fvMax a b),
   (.valuFabs, 2, 0x06, fun a _ _ => vecRound fp32 [decodeF fp32 a] (fvAbs (decodeF fp32 a))),
   (.valuFneg, 2, 0x07, fun a _ _ => vecRound fp32 [decodeF fp32 a] (fvNeg (decodeF fp32 a))),
   (.valuHadd2, 2, 0x10, packed2 (halfOp (fun x y _ => fvAdd x y) false)), (.valuHmul2, 2, 0x11, packed2 (halfOp (fun x y _ => fvMul x y) false)),
   (.valuHfma2, 2, 0x12, packed2 (halfOp (fun x y z => fvAdd (fvMul x y) z) true)),
   (.valuBadd2, 2, 0x13, packed2 (brainOp (fun x y _ => fvAdd x y) false)), (.valuBmul2, 2, 0x14, packed2 (brainOp (fun x y _ => fvMul x y) false)),
   (.valuBfma2, 2, 0x15, packed2 (brainOp (fun x y z => fvAdd (fvMul x y) z) true)),
   (.valuHmin2, 2, 0x16, packed2 (halfOp (fun x y _ => fvMin x y) false)), (.valuHmax2, 2, 0x17, packed2 (halfOp (fun x y _ => fvMax x y) false)),
   (.vfuncRcp, 3, 0x0, one rcp isZero nowhere), (.vfuncSqrt, 3, 0x1, one fsqrt nowhere isZero), (.vfuncRsq, 3, 0x2, one rsq isZero nowhere),
   (.vfuncExp2, 3, 0x3, one exp2 nowhere nowhere), (.vfuncLog2, 3, 0x4, one log2 isZero isOne), (.vfuncSinpi, 3, 0x5, one sinpi nowhere isInt),
   (.vfuncCospi, 3, 0x6, one cospi nowhere isHalf), (.vfuncTanh, 3, 0x7, one tanh nowhere isZero), (.vfuncSigm, 3, 0x8, one sigm nowhere nowhere)]

/-- Rows that write a predicate: constructor, OP, and the condition with its flags (R89, R425). -/
def predRows : List (CoreRow × Nat × (W128 → Nat → Nat → Bool × AFlags)) :=
  [(.valuFcmp, 0x08, fun w a b => (condF (wMod w) (decodeF fp32 a) (decodeF fp32 b), seenFlags [decodeF fp32 a, decodeF fp32 b])),
   (.valuIcmp, 0x2E, fun w a b => (condInt (wMod w) (signed 32 a) (signed 32 b), 0)),
   (.valuUcmp, 0x2F, fun w a b => (condInt (wMod w) (a : Int) (b : Int), 0))]

/-- An unplanned row can make its accesses: it issues, nothing of its lane group is pending, no address of its lanes ends the launch, and
every one translates, to the homes `hs`, in memory that runs (R115 to R117, R159, R170, R197, R345). -/
abbrev UnpIssues (s : State) (c g op : Nat) (atom : Option Nat) (atomic write sized : Bool) (w : W128) (l : Nat) (x : Launch) (hs : List Nat) :
    Prop :=
  rowWord 9 op atom w = true ∧ canIssue s c g w = true ∧ coreLaunch s c = some (l, x) ∧ unpPending s c g = false
    ∧ unpCheck (x.lc && !x.asBe) atomic sized (unpSize w) ((unpLanes (getLg s c g) w).map (unpVa (getLg s c g) w)) = none
    ∧ unpHomes s l x write ((unpLanes (getLg s c g) w).map (unpVa (getLg s c g) w)) = .ok hs
    ∧ piecesRun s (lineUses s (c / 4) op ((unpLanes (getLg s c g) w).map (unpVa (getLg s c g) w)) hs) = true

/-- Atomic rows: constructor, code, and the new value from the number of bits, the old value and the two operands (R116, R117). -/
def atomRows : List (CoreRow × Nat × (Nat → Nat → Nat → Nat → Nat)) :=
  [(.unpAtomAdd, 0, fun _ o b _ => o + b), (.unpAtomFadd, 1, fun _ o b _ => fadd o b),
   (.unpAtomSmin, 2, fun n o b _ => if signed n b < signed n o then b else o), (.unpAtomSmax, 3, fun n o b _ => if signed n o < signed n b then b else o),
   (.unpAtomUmin, 4, fun _ o b _ => min o b), (.unpAtomUmax, 5, fun _ o b _ => max o b), (.unpAtomAnd, 6, fun _ o b _ => o &&& b),
   (.unpAtomOr, 7, fun _ o b _ => o ||| b), (.unpAtomXor, 8, fun _ o b _ => o ^^^ b), (.unpAtomExch, 9, fun _ _ b _ => b),
   (.unpAtomCas, 10, fun _ o b d => if o = d then b else o)]

/-- A graphics row of one kind of item issues for its item. -/
abbrev ItemIssues (s : State) (c g op kind : Nat) (w : W128) (it : GItem) : Prop :=
  Issues s c g 0xB op w ∧ (getLg s c g).item = some it ∧ it.kind = kind

/-- The two sample rows: constructor, OP, and whether the sample is a planned one (R425). -/
def sampleRows : List (CoreRow × Nat × Bool) := [(.gfxSample, 5, true), (.gfxUsample, 6, false)]

/-- Coordinates of a lane's sample: interpolated attributes of a planned one, registers of an unplanned one (R140, R142). -/
def sampleUv (plan : Bool) (s : State) (c : Nat) (w : W128) (it : GItem) (y : Lg) (m : Sampler) (lane : Nat) : Nat × Nat :=
  if plan then (attrAt (itemPass s c it) it m.uvAttr lane, attrAt (itemPass s c it) it (m.uvAttr + 1) lane)
  else (lgV y (wA w) lane, lgV y (wA w + 1) lane)

/-- Level of detail of a lane's sample before its bias: from the lane's quad, or explicit (R140, R146). -/
def sampleLod (plan : Bool) (w : W128) (y : Lg) (m : Sampler) (uv : Nat → Nat × Nat) (lane : Nat) : Int :=
  if plan || wB w == 0xFF then quadLodOf m uv lane else lodCode (vsrc y w (wB w) lane)

/-- A lane's sample reads no texel: a lane that a planned sample does not cover. -/
def sampleSkips (plan : Bool) (it : GItem) (lane : Nat) : Bool := plan && laneMask it lane == 0

/-- A coordinate of a lane's sample is a NaN. -/
def sampleNan (uv : Nat → Nat × Nat) (lane : Nat) : Bool := decodeF fp32 (uv lane).1 == .nan || decodeF fp32 (uv lane).2 == .nan

/-- The texels that one lane of a sample reads (R140 to R142). -/
def sampleReads (plan : Bool) (w : W128) (it : GItem) (y : Lg) (m : Sampler) (uv : Nat → Nat × Nat) (lane : Nat) : List Texel :=
  if sampleSkips plan it lane || sampleNan uv lane then []
  else laneTexels m (field (wImm w) 0 3) (uv lane).1 (uv lane).2 (lodOf m (sampleLod plan w y m uv lane))

/-- A sample with its texels' values gives its lanes their results. -/
def sampled (plan : Bool) (c g : Nat) (w : W128) (it : GItem) (y : Lg) (m : Sampler) (uv : Nat → Nat × Nat) (vals : List Nat) (s : State) : State :=
  sampleDone c g w m (activeLanes y w) (fun lane => sampleSkips plan it lane || sampleNan uv lane) (sampleReads plan w it y m uv) uv
    (sampleLod plan w y m uv) ((activeLanes y w).any (fun lane => !sampleSkips plan it lane && sampleNan uv lane)) vals s

/-- A sample row issues for a fragment item, with sampler `m` of its pass. -/
abbrev SampleIssues (s : State) (c g op : Nat) (w : W128) (it : GItem) (l : Nat) (x : Launch) (k : Ctx) (m : Sampler) : Prop :=
  ItemIssues s c g op 1 w it ∧ coreLaunch s c = some (l, x) ∧ s.ctx? x.ctx = some k ∧ (itemPass s c it).samplers[field (wImm w) 0 3]? = some m

/-- The rows of VALU, VFUNC, VCVT, SCALAR and CTRL.NOP, which act on their lane group and the flags word alone. -/
def laneGroupRows : List CoreRow :=
  [.ctrlNop, .valuSel, .valuShfl, .valuBcast, .vcvtCvt, .vcvtCvtmx] ++ scalarRows.map (·.1) ++ intRows.map (·.1) ++ byteRows.map (·.1)
    ++ floatRows.map (·.1) ++ predRows.map (·.1)

/-- The fuse ledger holds at most 160 entries (R386) and there are four seed slots (R389). -/
def FuseLedger (s : State) : Prop := s.sec.otp.ledger.length ≤ 160 ∧ s.sec.otp.seeds.length = 4

/-- The commands whose effect is, or holds, a module reset (R34, R270, R351, R357, R369, R405, R417). -/
def mayReset : Instr → Bool
  | .perstAssert | .hotReset | .linkDisable | .dlDown | .safeExit | .mainPowerLoss | .thermalTrip | .refclkTrip => true
  | .lockTrip pll => pll.val == 6
  | .iboReady => true
  | .registerWrite f off v => f.val == 0 && off == 0x050000 && bitOf v.toNat 16
  | _ => false

/-- A commit's fetch in bytes a frame (R325): its enabled layers, and writeback. -/
def fetchBytes (s : State) (h : Nat) (c : Commit) : ℚ :=
  ((layersOn c).map (fun l => (lBox c l 2 : ℚ) * lBox c l 3 * (fetch2 (lFmt c l) / 2))).sum
    + if wbEn c then (headHactive s h : ℚ) * headVactive s h * 4 else 0

end Sys2Proof.Machine
end

