-- ==== Sys2Proof/Certificates/Slice0/Obligations.lean ====
section
/-! DEFINITION. The statements for the provers. The words they share stand in Sys2Proof/Safety.lean. -/

open Sys2Proof Sys2Proof.Machine

/-- The step takes the command at the front of the queue and runs it on the rest (log entry 2). -/
def Obligations.StepRunsFront : Prop :=
  ∀ (c : Instr) (rest : List Instr) (s : State), s.pending = c :: rest → step s = exec c { s with pending := rest }

/-- Fence commands (R227, R228): FENCE_REGISTER of a record that names no entry takes a free entry with the producer and value given,
registers an entry of the context's own again, and is refused where the table or the context's share is full or another context holds the
entry; FENCE_RELEASE frees the entry and writes the record with REGISTERED 0, and is refused where the context has none; a re-evaluation
judges every wait on the entry; a timeout judges the head's wait on an unregistered fence. The model's choices here: log entries 19, 28. -/
def Obligations.FenceCommands : Prop :=
  (∀ s q i x d c bs idx, Serves s q i 1 x d → s.ctx? x.ctx = some c →
      readRecord s x.ctx (dField d.cur 40 8) (userDesc q i) = .ok bs → fenceFind s x.ctx (dField d.cur 40 8) = none →
      mfresh s.fe.fences (s.fe.fences.length + 1) 0 = some idx → s.fe.fences.length < 1048576 → ctxFences s x.ctx < c.fenceMax →
      exec (.fenceRegister q i) s =
        let f : Fence := { va := dField d.cur 40 8, ctx := x.ctx, queue := field (dField d.cur 56 1) 0 4
                           value := if bitOf (dField d.cur 56 1) 4 then dField d.cur 48 8 else ofLe (bs.take 8) }
        .next (done q i idx (mirrorFence (setFence s idx f) idx f true (dTag d.cur))))
  ∧ (∀ s q i x d idx f, Serves s q i 2 x d → fenceFind s x.ctx (dField d.cur 40 8) = some (idx, f) → f.ctx = x.ctx →
      exec (.fenceRelease q i) s =
        .next (done q i 0 (mirrorFence { s with fe := { s.fe with fences := mdel s.fe.fences idx } } idx f false (dTag d.cur))))
  ∧ (∀ s fence, feRuns s = true →
      exec (.waitReevaluation fence) s =
        .next (foldState (waitersOn s fence) (fun q a => evalWait q false (makeResident q a)) s))
  ∧ (∀ s q x, feRuns s = true → s.queue? q = some x → waitsUnregistered s x = true →
      exec (.waitTimeout q) s = .next (evalWait q true s))
  ∧ (∀ s q i x d bs idx f, Serves s q i 1 x d → readRecord s x.ctx (dField d.cur 40 8) (userDesc q i) = .ok bs →
      fenceFind s x.ctx (dField d.cur 40 8) = some (idx, f) → f.ctx = x.ctx →
      exec (.fenceRegister q i) s =
        let n : Fence := { va := dField d.cur 40 8, ctx := x.ctx, queue := field (dField d.cur 56 1) 0 4
                           value := if bitOf (dField d.cur 56 1) 4 then dField d.cur 48 8 else ofLe (bs.take 8) }
        .next (done q i idx (mirrorFence (setFence s idx n) idx n true (dTag d.cur))))
  ∧ (∀ s q i x d bs e, Serves s q i 1 x d → readRecord s x.ctx (dField d.cur 40 8) (userDesc q i) = .ok bs →
      fenceFind s x.ctx (dField d.cur 40 8) = some e → e.2.ctx ≠ x.ctx → exec (.fenceRegister q i) s = .next (failed q i 1 0x0806 s))
  ∧ (∀ s q i x d c bs, Serves s q i 1 x d → s.ctx? x.ctx = some c →
      readRecord s x.ctx (dField d.cur 40 8) (userDesc q i) = .ok bs → fenceFind s x.ctx (dField d.cur 40 8) = none →
      1048576 ≤ s.fe.fences.length ∨ c.fenceMax ≤ ctxFences s x.ctx →
      exec (.fenceRegister q i) s = .next (failed q i 1 0x0804 s))
  ∧ (∀ s q i x d, Serves s q i 2 x d → ((fenceFind s x.ctx (dField d.cur 40 8)).any (fun e => e.2.ctx == x.ctx)) = false →
      exec (.fenceRelease q i) s = .next (failed q i 1 0x0802 s))

/-- Object commands in their normal case (R195, R196, R238): the object's entry, its LTA entries and its frames. The model's choices here:
log entries 5, 19, 20. -/
def Obligations.ObjectCommands : Prop :=
  (∀ s q i x d c, Serves s q i 0x202 x d → s.ctx? x.ctx = some c → dField d.cur 40 4 + dField d.cur 44 4 ≤ c.ltaCount →
      s.fe.objs.any (fun e => e.1 / 2 ^ 23 == x.ctx && overlaps (e.1 % 2 ^ 23) e.2.count (dField d.cur 40 4) (dField d.cur 44 4)) = false →
      exec (.memAlloc q i) s =
        let p := dField d.cur 40 4
        let place := field (dField d.cur 48 1) 0 2
        let w := bitOf (dField d.cur 48 1) 2
        .next (done q i p (foldState (List.range (dField d.cur 44 4))
          (fun k a => ltaSet a (c.ltaBase + p + k) (b2n w * 2 ^ 24 + place * 2 ^ 29))
          (setObj s x.ctx p ⟨dField d.cur 44 4, place, w, chooseS0 s place⟩))))
  ∧ (∀ s q i x d c o, Serves s q i 0x203 x d → s.ctx? x.ctx = some c → objAt s x.ctx (dField d.cur 40 4) = some o →
      planHeld s x.ctx (dField d.cur 40 4) o.count = false → exportHeld s x.ctx (dField d.cur 40 4) o.count = false →
      exec (.memFree q i) s =
        let h := dField d.cur 40 4
        let t := foldState (List.range o.count)
          (fun k a => ltaSet (unmapPage c (h + k) a) (c.ltaBase + h + k) 0) (contextWalk x.ctx s)
        .next (done q i 0 (settleStacks { t with fe := { t.fe with objs := mdel t.fe.objs (2 ^ 23 * x.ctx + h) } })))
  ∧ (∀ s q i x d c o, Serves s q i 0x204 x d → s.ctx? x.ctx = some c → objAt s x.ctx (dField d.cur 40 4) = some o →
      pageRange d.cur ≠ [] →
      fnFrames s c.fn + (emptyPages s c (dField d.cur 40 4) (pageRange d.cur)).length ≤ quota s c.fn →
      (∀ st, st < 8 → needOn o (emptyPages s c (dField d.cur 40 4) (pageRange d.cur)) st ≤ if stackReady s st then freeIn s st else 0) →
      exec (.memMap q i) s =
        .next (done q i 0 (mapPages c (dField d.cur 40 4) o (emptyPages s c (dField d.cur 40 4) (pageRange d.cur)) (contextWalk x.ctx s))))
  ∧ (∀ s q i x d c o, Serves s q i 0x205 x d → s.ctx? x.ctx = some c → objAt s x.ctx (dField d.cur 40 4) = some o →
      pageRange d.cur ≠ [] →
      planHeld s x.ctx (dField d.cur 40 4 + dField d.cur 44 4) (dField d.cur 48 4) = false →
      exportHeld s x.ctx (dField d.cur 40 4 + dField d.cur 44 4) (dField d.cur 48 4) = false →
      exec (.memUnmap q i) s =
        .next (done q i 0 (settleStacks (foldState (pageRange d.cur) (fun k a => unmapPage c (dField d.cur 40 4 + k) a) (contextWalk x.ctx s)))))
  ∧ (∀ s q i x d c o, Serves s q i 0x206 x d → s.ctx? x.ctx = some c → objAt s x.ctx (dField d.cur 40 4) = some o →
      0 < dField d.cur 48 4 → hostBase ≤ dField d.cur 56 8 → (objDies o).all (memRuns s) = true →
      exec (.migrate q i) s = .next (settleStacks (migrateFrom x c o q i d.cur (dField d.cur 48 4) 0 (contextWalk x.ctx s))))
  ∧ (∀ s q i x d c o, Serves s q i 0x207 x d → s.ctx? x.ctx = some c → objAt s x.ctx (dField d.cur 40 4) = some o →
      pageRange d.cur ≠ [] →
      exec (.advise q i) s =
        .next (done q i 0 (foldState (pageRange d.cur) (fun k a =>
          advisePage c o (planHeld a x.ctx (dField d.cur 40 4 + k) 1) (dField d.cur 40 4 + k) (dField d.cur 52 1) a)
          (contextWalk x.ctx s))))

/-- NOP, CTX_QUERY, COPY and FILL (R219, R221, R222, R249): CTX_QUERY writes the context's figures and, with CLEAR, drops its fault, or
meets the host's bar; a COPY or FILL in the turn that its queue's PRIORITY and its release give it moves its bytes, does nothing where its
length is 0, and goes as packets where an end is a caravan peer. The model's choices here: log entries 7, 22, 56. -/
def Obligations.DataCommands : Prop :=
  (∀ s q i x d, Serves s q i 0 x d → exec (.nop q i) s = .next (done q i 0 s))
  ∧ (∀ s i x d c, Serves s adminQid i 3 x d → s.ctx? (dField d.cur 48 2) = some c →
      (hostBar s 0 (dField d.cur 40 8) = none → exec (.ctxQuery adminQid i) s =
        let t := writePhys s (hostBase + dField d.cur 40 8) (queryBytes s c)
        .next (done adminQid i 0 (if bitOf (dField d.cur 50 1) 0 then clearFault (dField d.cur 48 2) t else t)))
      ∧ (∀ e, hostBar s 0 (dField d.cur 40 8) = some e → exec (.ctxQuery adminQid i) s = .next (failed adminQid i 4 e s)))
  ∧ (∀ s q i x d c, q ≠ adminQid → Serves s q i 3 x d → s.ctx? x.ctx = some c →
      (walkVa s c (dTranslated d.cur) (userDesc q i) (dField d.cur 40 8) 64 true).stop = none →
      exec (.ctxQuery q i) s =
        let t := writePieces s (walkVa s c (dTranslated d.cur) (userDesc q i) (dField d.cur 40 8) 64 true).pieces (queryBytes s c)
        .next (done q i 0 (if bitOf (dField d.cur 50 1) 0 then clearFault x.ctx t else t)))
  ∧ (∀ s q i x d c, Serves s q i 0x200 x d → copyTurn s q i x d = true → s.ctx? x.ctx = some c → 0 < dField d.cur 56 4 →
      inCaravan (dField d.cur 40 8) = false → inCaravan (dField d.cur 48 8) = false →
      let len := dField d.cur 56 4
      let from_ := walkVa s c (dTranslated d.cur) (userDesc q i) (dField d.cur 40 8) len false
      let to_ := walkVa s c (dTranslated d.cur) (userDesc q i) (dField d.cur 48 8) len true
      from_.stop = none → to_.stop = none → piecesRun s (from_.pieces ++ to_.pieces) = true →
      exec (.copy q i) s = .next (done q i len (copyBytes len from_ to_ s)))
  ∧ (∀ s q i x d c, Serves s q i 0x201 x d → copyTurn s q i x d = true → s.ctx? x.ctx = some c → 0 < dField d.cur 56 4 → inCaravan (dField d.cur 40 8) = false →
      let len := dField d.cur 56 4
      let to_ := walkVa s c (dTranslated d.cur) (userDesc q i) (dField d.cur 40 8) len true
      to_.stop = none → piecesRun s to_.pieces = true →
      exec (.fill q i) s =
        .next (done q i len (countHub len (hubWrite s to_.pieces (fillBytes (dField d.cur 48 8) (dField d.cur 40 8) len)))))
  ∧ (∀ s (from_ to_ : Walk) len, piecesCross s from_.pieces = true → piecesCross s to_.pieces = true →
      (∀ p ∈ from_.pieces ++ to_.pieces, 0 < p.2) →
      (from_.pieces.map (·.2)).sum = len → (to_.pieces.map (·.2)).sum = len →
      copyBytes len from_ to_ s = countHub len (writePieces s to_.pieces (readPieces s from_.pieces)))
  ∧ (∀ s q i x d, Serves s q i 0x200 x d → copyTurn s q i x d = true → dField d.cur 56 4 = 0 → exec (.copy q i) s = .next (done q i 0 s))
  ∧ (∀ s q i x d, Serves s q i 0x200 x d → copyTurn s q i x d = true → 0 < dField d.cur 56 4 →
      (copyEnd s x q i (dField d.cur 40 8) (dField d.cur 56 4) d.cur false).1.stop = none →
      (copyEnd s x q i (dField d.cur 48 8) (dField d.cur 56 4) d.cur true).1.stop = none →
      piecesRun s ((copyEnd s x q i (dField d.cur 40 8) (dField d.cur 56 4) d.cur false).1.pieces ++
        (copyEnd s x q i (dField d.cur 48 8) (dField d.cur 56 4) d.cur true).1.pieces) = true →
      ((copyEnd s x q i (dField d.cur 40 8) (dField d.cur 56 4) d.cur false).2.isSome ||
        (copyEnd s x q i (dField d.cur 48 8) (dField d.cur 56 4) d.cur true).2.isSome) = true →
      exec (.copy q i) s =
        let len := dField d.cur 56 4
        let a := copyEnd s x q i (dField d.cur 40 8) len d.cur false
        let b := copyEnd s x q i (dField d.cur 48 8) len d.cur true
        .next (copyJob q i len a.1 b.1 a.2 b.2 none s))
  ∧ (∀ s q i x d, Serves s q i 0x201 x d → copyTurn s q i x d = true → dField d.cur 56 4 = 0 → exec (.fill q i) s = .next (done q i 0 s))
  ∧ (∀ s q i x d n e o, Serves s q i 0x201 x d → copyTurn s q i x d = true → 0 < dField d.cur 56 4 →
      (copyEnd s x q i (dField d.cur 40 8) (dField d.cur 56 4) d.cur true).1.stop = none →
      (copyEnd s x q i (dField d.cur 40 8) (dField d.cur 56 4) d.cur true).2 = some (n, e, o) →
      s.net.jobs.any (fun y => y.2.user == .copy q i) = false →
      exec (.fill q i) s = .next (peerWrite { node := n, user := .copy q i, write := true, export_ := e } n e o
        (fillBytes (dField d.cur 48 8) (dField d.cur 40 8) (dField d.cur 56 4)) s))

/-- Doorbells (R213, R214): a kick of a live queue of the function makes it resident, reads its doorbell word and evaluates its head's wait;
a sweep serves every resident queue and up to 1,024 of the others. Software's writes to host memory come first. The life of a descriptor in
its queue (R212, R217, R218, R224, R228): it is read, becomes its queue's head, is released and completes, with its signal first, which may
await a page of its fence's record, and its chain going on; a moderated interrupt is sent when its time runs out (R278). The model's choices
here: log entries 5, 27, 38, 71, 73. -/
def Obligations.QueueAndDescriptorCommands : Prop :=
  (∀ (s : State) (f : Fin 64) off v wr, feRuns (putCells s wr) = true → s.link.flrBusy = [] → off % 4 = 0 → off < 65536 →
      ¬(f.val = 0 ∧ off = 0xFFFC) → liveQueue (putCells s wr) (v.toNat % 2 ^ 20) f = true →
      exec (.kick f off 4 v wr) s =
        let q := v.toNat % 2 ^ 20
        .next (evalWait q true (readDoorbell q (makeResident q (putCells s wr)))))
  ∧ (∀ (s : State) (v : W32) wr x, feRuns (putCells s wr) = true → s.link.flrBusy = [] → s.queue? adminQid = some x → x.st = .active →
      exec (.kick 0 0xFFFC 4 v wr) s =
        .next (evalWait adminQid true (readDoorbell adminQid (makeResident adminQid (putCells s wr)))))
  ∧ (∀ s wr, feRuns (putCells s wr) = true →
      exec (.sweep wr) s =
        let s0 := putCells s wr
        let s1 := foldState (sweepTurn s0) readDoorbell (foldState (mkeys s0.fe.queues (fun k x => k == adminQid || x.resident)) sweepQueue s0)
        .next { s1 with fe := { s1.fe with sweepPos := match (sweepTurn s0).getLast? with
          | some k => k + 1
          | none => s1.fe.sweepPos } })
  ∧ (∀ s q x, s.queue? q = some x → mayRead s x = true →
      (qWalk s q x (x.ringVa + 64 * (x.consumer % 2 ^ x.sizeLog2)) 64 false).stop = none →
      exec (.descriptorRead q) s =
        let bs := readPieces s (qWalk s q x (x.ringVa + 64 * (x.consumer % 2 ^ x.sizeLog2)) 64 false).pieces
        let raw : W512 := BitVec.ofNat 512 (ofLe (crossed (feRatio s) s bs))
        .next (bindLaunch q x.consumer (writeStatus q (tickCross (feRatio s) 64 (s.setQueue q { x with
          descs := mins x.descs x.consumer { raw := raw, cur := raw }
          consumer := (x.consumer + 1) % 2 ^ 64
          idleSince := s.now })))))
  ∧ (∀ (s : State) bs, feRatio s = true → crossed (feRatio s) s bs = bs ∧ ∀ n, tickCross (feRatio s) n s = s)
  ∧ (∀ s q x i d, feRuns s = true → s.queue? q = some x → x.resident = true → headOf x = some (i, d) → d.phase = .read →
      launchReady s d = true → headCheck s q x d = none →
      exec (.descriptorHead q) s = .next (evalWait q true (readCommit q i (s.setDesc q i { d with phase := .head, headStamp := s.now }))))
  ∧ (∀ s q x i d, feRuns s = true → s.queue? q = some x → x.resident = true → headOf x = some (i, d) → d.phase = .read →
      dOpcode d.raw = 0x300 → headCheck s q x d = none →
      exec (.dispCommit q i) s = .next (evalWait q true (readCommit q i (s.setDesc q i { d with phase := .head, headStamp := s.now }))))
  ∧ (∀ s q x i d, feRuns s = true → s.queue? q = some x → headOf x = some (i, d) → s.desc? q i = some d → d.phase = .head →
      waitReached s q i x d = true → heldBack x i = false → descNeed s q i x d = some true → translatedBad s x d = none →
      dOpcode d.raw ≠ 0x100 → patchWaits s x d = false →
      releaseCheck s q x d.raw = none →
      exec (.descriptorRelease q) s =
        let t := dropWaits (s.setDesc q i { d with phase := .released, launch := none, stamp := s.now, hold := holdAt s q i d.raw }) (userDesc q i)
        .next (if dOpcode d.raw = 0x400 ∨ dOpcode d.raw = 0x401 then takeAll t else t))
  ∧ (∀ s q x i d, feRuns s = true → s.queue? q = some x → headOf x = some (i, d) → d.phase = .head → waitReached s q i x d = true →
      heldBack x i = false → descNeed s q i x d = some true → translatedBad s x d = none → dOpcode d.raw = 0x100 →
      exec (.descriptorRelease q) s = .next (releaseLaunch q i x d s))
  ∧ (∀ s q i x d, feRuns s = true → s.queue? q = some x → s.desc? q i = some d → d.phase = .done → lateBreach d s = none →
      dSignalEn d.cur = false → dChain d.cur = false →
      exec (.descriptorComplete q i) s =
        let stamp := if d.ran = true ∧ dOpcode d.cur ≠ 0x300 then s.now else d.stamp
        .next (takeAll (settleStacks (closeDesc q i d.status d.detail stamp
          ((countDesc q x d.cur d.result s).setDesc q i { d with stamp := stamp })))))
  ∧ (∀ s v m, mfind s.link.mods v = some m →
      exec (.irqModerationTimeout v) s = .next (fireVec { s with link := { s.link with mods := mdel s.link.mods v } } v))
  ∧ (∀ s q x i d page, feRuns s = true → s.queue? q = some x → s.desc? q i = some d → d.phase = .done → lateBreach d s = none →
      signalPage s x d.cur = some page →
      exec (.descriptorComplete q i) s = .next (takeAll (settleStacks (waitRecord s x.ctx page))))
  ∧ (∀ s q x i d, feRuns s = true → s.queue? q = some x → s.desc? q i = some d → d.phase = .done → lateBreach d s = none →
      signalPage s x d.cur = none → dChain d.cur = false →
      exec (.descriptorComplete q i) s =
        let sig := signalCur q x d d.status s
        let stamp := if d.ran = true ∧ dOpcode d.cur ≠ 0x300 then s.now else d.stamp
        .next (takeAll (settleStacks (closeDesc q i sig.2 d.detail stamp
          ((countDesc q x d.cur d.result sig.1).setDesc q i { d with status := sig.2, stamp := stamp })))))
  ∧ (∀ s q x i d w, feRuns s = true → s.queue? q = some x → s.desc? q i = some d → d.phase = .done → lateBreach d s = none →
      signalPage s x d.cur = none → dChain d.cur = true → chains (dOpcode d.cur) = true → d.chainLen < 16 →
      let sig := signalCur q x d d.status s
      let stamp := if d.ran = true ∧ dOpcode d.cur ≠ 0x300 then s.now else d.stamp
      let t := (countDesc q x d.cur d.result sig.1).setDesc q i { d with status := sig.2, stamp := stamp }
      sig.2 = 0 → chainWord t x d.cur = some w → chainOk t q x w = true →
      exec (.descriptorComplete q i) s = .next (takeAll (settleStacks (t.setDesc q i { d with
        status := 0, stamp := stamp, phase := .released, cur := w, chainLen := d.chainLen + 1, hold := holdAt t q i w }))))

/-- Plans (R239 to R241, R261): a launch is bound to a version when it is read, a bound version is made resident, and a slot is loaded,
patched and freed. The model's choices here: log entries 73, 74, 100, 110, 111, 112, 114, 115. -/
def Obligations.PlanCommands : Prop :=
  (∀ s q i x d v, s.queue? q = some x → s.desc? q i = some d → x.consumer ≠ i → d.bound = false → dOpcode d.raw = 0x100 → d.phase = .read →
      bindBlocked s x i d.raw = false → chooseVer s x.ctx d.raw = .ok v →
      exec (.launch q i) s = .next (s.setDesc q i { d with bound := true, ver := some v }))
  ∧ (∀ s q i d v, feRuns s = true → s.desc? q i = some d → d.ver = some v →
      (s.fe.resident.contains v = true ∨ (s.fe.resident.filter (· != v)).length < 48) →
      exec (.planResidency q i) s = .next { s with fe := { s.fe with resident := v :: s.fe.resident.filter (· != v) } })
  ∧ (∀ s q i d v old, feRuns s = true → s.desc? q i = some d → d.ver = some v → s.fe.resident.contains v = false →
      48 ≤ (s.fe.resident.filter (· != v)).length → (s.fe.resident.filter (· != v)).reverse.find? (fun w => !verHeld s w) = some old →
      exec (.planResidency q i) s =
        .next { s with fe := { s.fe with resident := v :: (s.fe.resident.filter (· != v)).filter (· != old) } })
  ∧ (∀ s q i x d, Serves s q i 0x101 x d → dField d.cur 48 2 < 4096 → currentVer s x.ctx (dField d.cur 48 2) = none →
      exec (.planLoad q i) s = .next (storePlan q i x d.cur 1 s))
  ∧ (∀ s q i x d v y, Serves s q i 0x102 x d → currentVer s x.ctx (dField d.cur 48 2) = some (v, y) →
      (slotVers s x.ctx (dField d.cur 48 2)).length < 8 →
      exec (.planPatch q i) s = .next (storePlan q i x d.cur (y.num + 1) s))
  ∧ (∀ s q i (x : Queue) (d : W512) num, (containerWalk s q i x.ctx (dField d 40 8) (roomAt s x.ctx (dField d 40 8))).stop = none →
      planFault (ofLe (readPieces s (containerWalk s q i x.ctx (dField d 40 8) (roomAt s x.ctx (dField d 40 8))).pieces))
        (roomAt s x.ctx (dField d 40 8)) (dField d 48 2) = 0 →
      storePlan q i x d num s =
        let va := dField d 40 8
        let p := withFigures (readPlan (ofLe (readPieces s (containerWalk s q i x.ctx va (roomAt s x.ctx va)).pieces)))
        let first := va / 65536
        let n := (va + p.totalBytes - 1) / 65536 - first + 1
        done q i num (holdPages x.ctx first n { s with fe := { s.fe with
          vers := mins s.fe.vers s.fe.nextVer ⟨x.ctx, dField d 48 2, num, p, first, n, true⟩, nextVer := s.fe.nextVer + 1 } }))
  ∧ (∀ s q i x d v y, Serves s q i 0x103 x d → currentVer s x.ctx (dField d.cur 48 2) = some (v, y) →
      exec (.planFree q i) s = .next (done q i 0 { s with fe := { s.fe with vers := s.fe.vers.map (fun e =>
        if e.2.ctx = x.ctx ∧ e.2.slot = dField d.cur 48 2 then (e.1, { e.2 with stored := false }) else e) } }))

/-- Starts and turns (R55, R247, R248, R250): the earliest-deadline launch of a group starts once nothing is in its way, and until then what
is in its way is asked to yield; the BE list is walked in order; a slice that is over lets equal priority displace. Points of a launch
(R118, R119, R252, R253, R260, R303): slip points, saves, restores, step ends, the wait for peers, model loads. The model's choices here:
log entries 11, 52, 61, 76, 101, 104, 105, 106, 108, 123. -/
def Obligations.LaunchTurnsAndPoints : Prop :=
  (∀ s (r : Fin 16) l x t, edfHead s (groupOf s r) = some (l, x) → s.flt.safe = false → waits x = true → inTheWay s (groupOf s r) l x = [] →
      placeLaunch s l x.regions = some t → exec (.lcStart r) s = .next t)
  ∧ (∀ s (r : Fin 16) l x, edfHead s (groupOf s r) = some (l, x) → s.flt.safe = false → waits x = true → inTheWay s (groupOf s r) l x ≠ [] →
      exec (.lcStart r) s = .next (foldState (inTheWay s (groupOf s r) l x) askYield s))
  ∧ (∀ s, s.flt.safe = false →
      exec .beStart s =
        let s1 := foldState (beList s) (fun p a => tryBe p.1 a) s
        .next (foldState (beList s1) (fun p a => tryDisplace p.1 a) s1))
  ∧ (∀ s l x, s.launch? l = some x → s.flt.safe = false → rd s 0x010600 % 2 ^ 24 ≠ 0 → isBeRun x = true → x.phase = .running →
      exec (.beSliceExpiry l) s =
        let s1 := s.setLaunch l { x with sliceOver := true }
        .next (foldState (beList s1) (fun p a => tryDisplace p.1 a) s1))
  ∧ (∀ s (r : Fin 16) l x p j, launchAt s r = some (l, x) → s.planOf x.ver = some p → regionSlip s r = some j → s.flt.safe = false →
      slipReached s p x r j = true → (s.rgn r).held = none → x.phase = .running → x.stop = none → semsZero s r = true →
      rgnRuns s r = true → exec (.slipPoint r) s = .next (slipRegion p l x j r false s))
  ∧ (∀ s (r : Fin 16) l x p j, launchAt s r = some (l, x) → s.planOf x.ver = some p → regionSlip s r = some j → s.flt.safe = false →
      slipReached s p x r j = true → (s.rgn r).held = none → x.phase = .yielding → x.stop = none → semsZero s r = true → x.regions = [r.val] →
      rgnRuns s r = true → exec (.slipPoint r) s = .next (slipRegion p l x j r true s))
  ∧ (∀ s l x p, s.launch? l = some x → s.planOf x.ver = some p → s.flt.safe = false → x.phase = .yielding →
      x.regions.all (readyToSave s p x) = true → x.lostUnits = 0 → x.regions.all (rgnRuns s) = true → poolRuns s = true →
      exec (.saveComplete l) s =
        let saved := x.regions.flatMap (saveRegion s p x)
        let gs := if x.point == .graphics then x.regions.map (gfxOf s) else []
        let s1 := foldState x.regions (fun r a =>
          freeRegion x.ctx r (wipeRegion r (countRgnBytes r (savedBytes (saved.filter (fun e => e.rel == (s.rgn r).rel))) a))) s
        let s2 := tickCross (x.regions.all (fun r => coreRatio s (r / 8))) (savedBytes saved)
          (foldState x.regions (fun r a => a.setRgn r { a.rgn r with clear := true }) s1)
        .next (settleDraining (s2.setLaunch l { x with
          phase := .displaced, saved := saved, savedOn := stripeStacks x.unitsAt (savedBytes saved), gsaved := gs
          marks := x.regions.map (markOf s), leftAt := s.now })))
  ∧ (∀ s l x p, s.launch? l = some x → s.planOf x.ver = some p → s.flt.safe = false → x.phase = .restoring →
      x.regions.all (rgnRuns s) = true → poolRuns s = true →
      exec (.restore l) s =
        .next (resumeLaunch l x p (putSaved x (foldState x.regions.zipIdx (fun e a =>
          countRgnBytes e.1 (savedBytes (x.saved.filter (fun k => k.rel == e.2))) a) s))))
  ∧ (∀ s l x p, s.launch? l = some x → s.planOf x.ver = some p → s.flt.safe = false → x.phase = .running ∨ x.phase = .yielding →
      x.regions.all (fun r => (s.rgn r).held == none && rgnRuns s r && regionFinished s x r) = true → x.stop = none →
      x.regions.all (semsZero s) = true →
      exec (.stepEnd l) s =
        let s1 := foldState x.regions reportStep (settleFrames (foldState x.regions rgnFlush s))
        .next (if p.steps.length ≤ x.step + 1 then completeLaunch l x s1
          else if x.phase = .yielding then
            (foldState x.regions (fun r a => a.setRgn r { a.rgn r with held := some 0 }) s1).setLaunch l
              { x with step := x.step + 1, point := .boundary }
          else beginStep l (s1.setLaunch l { x with step := x.step + 1, point := .boundary })))
  ∧ (∀ s l x p t, s.launch? l = some x → s.planOf x.ver = some p → s.flt.safe = false → x.phase = .peerWait → x.stop = none →
      (p.waits.filter (fun w => w.step == x.step)).foldl (takeWait x) (some s) = some t →
      exec (.crossModuleStepStart l) s =
        let late := s.now - x.stepStamp - feOf (listMax ((p.waits.filter (fun w => w.step == x.step)).map (·.budget)))
        .next (t.setLaunch l { x with phase := .running, excl := x.excl + late, breach := if late ≠ 0 ∧ x.breach = 0 then 6 else x.breach }))
  ∧ (∀ s l x c m y, s.launch? l = some x → s.flt.safe = false → x.phase = .loading → s.ctx? x.ctx = some c → modelsOf s x = [m] →
      resFind s x.ctx m x.regions = some y → y.loaded = false →
      exec (.modelLoadComplete l none) s =
        let s1 := loadNext l x c m none s
        .next (match s1.launch? l with
          | none => s1
          | some z => if z.phase != .loading || !modelsLoaded s1 z then s1
            else if z.started = 0 then beginStep l s1 else s1.setLaunch l { z with phase := .restoring }))

/-- Launches cut short (R61, R62, R193, R262): a step overrun ends the launch as a breach and takes its regions out as class F; a hard stop
ends a launch that was asked to stop, or one that waits on a page request while it is asked to yield. The model's choices here: log entries
63, 106. -/
def Obligations.LaunchesCutShort : Prop :=
  (∀ s l x p, s.launch? l = some x → s.planOf x.ver = some p → s.flt.safe = false → isAdmitted x = true → x.phase = .running → x.excused = false →
      x.excess = 0 → atBoundary s x = false →
      feOf (stepOf p x.step).wcet + (stepOf p x.step).unplanned * 1120 + 1600 + x.excl + flightExcess s x p < s.now - x.stepStamp →
      exec (.stepOverrun l) s =
        .next (foldState x.regions (fun r a => regionFail r (faultEvent a 2 3 r 2 0xFFFF 0 true)) (countBreach x 5 0x0B05 (endLaunch l 5 0x0B05 s))))
  ∧ (∀ s (r : Fin 16) l x st d, launchAt s r = some (l, x) → s.flt.safe = false → x.stop = some (st, d) →
      exec (.hardStop r) s = .next (endLaunch l st d s))
  ∧ (∀ s (r : Fin 16) l x, launchAt s r = some (l, x) → s.flt.safe = false → x.stop = none → x.phase = .yielding → isBeRun x = true →
      s.link.waits.any (fun w => w.user == userLaunch l) = true →
      exec (.hardStop r) s = .next (faultEvent (endLaunch l 5 0x0701 s) 0 7 0 2 x.ctx (x.tag * 2 ^ 32 + 5 * 65536 + 0x0701)))

/-- Regions leave and join (R61, R262, R356): DRAIN of a region IN_SERVICE, FORCE, RETURN of one that is OUT, the end of its power-up check,
and NAP. Software's commands need the FE block to answer (R375). The model's choices here: log entries 40, 69. -/
def Obligations.RegionCommands : Prop :=
  (∀ s (r : Fin 16), blockUp s 0x010610 = true → (s.rgn r).st = .inService →
      exec (.drainRegion r) s = .next (settleDraining (yieldBe r (setRgnState r .draining s))))
  ∧ (∀ s (r : Fin 16), blockUp s 0x010610 = true → (s.rgn r).st = .inService ∨ (s.rgn r).st = .draining →
      exec (.forceRegion r) s = .next (settleDraining (yieldBe r (setRgnState r .draining (forcedLoss r s)))))
  ∧ (∀ s (r : Fin 16), blockUp s 0x010614 = true → (s.rgn r).st = .out →
      exec (.returnRegion r) s =
        let t := setRgnState r .testing (resetRegion r s)
        .next (t.setRgn r { t.rgn r with returning := true }))
  ∧ (∀ s (r : Fin 16), s.flt.safe = false → (s.rgn r).st = .testing → s.pwr.dev = .starting ∨ s.pwr.dev = .up →
      exec (.regionSelfTestDone r 0 false) s = .next (barStarted r (setRgnState r .inService s)))
  ∧ (∀ s (r : Fin 16) (bad : BitVec 8), s.flt.safe = false → (s.rgn r).st = .testing → s.pwr.dev = .starting ∨ s.pwr.dev = .up → bad ≠ 0 →
      exec (.regionSelfTestDone r bad false) s =
        .next (regionFail r (foldState ((List.range 8).filter (fun k => bad.getLsbD k)) (fun k a => faultEvent a 2 2 (8 * r + k) 3 0xFFFF 0) s)))
  ∧ (∀ s (r : Fin 16), feRuns s = true → bitOf (rd s 0x040008) 0 = true → (s.rgn r).idleSince + 1024 * field (rd s 0x040008) 8 16 ≤ s.now →
      (s.rgn r).st = .inService → (s.rgn r).napping = false →
      (s.rgn r).launch = none → s.fe.launches.any (fun p => isAdmitted p.2 && p.2.regions.contains r.val) = false →
      exec (.regionNap r) s =
        let s2 := foldState (coresOf r) (fun c a => a.setCore c { ts := (a.core c).ts }) (rgnFlush r s)
        let s3 := foldState (cdcsOf r) (fun k a => a.setCdc k {}) s2
        .next (setMap (12 + r) 0 (s3.setRgn r { s.rgn r with napping := true, sems := [] })))
  ∧ (∀ s (r : Fin 16), s.flt.safe = false → (s.rgn r).napping = true → needsRegion s r = true →
      exec (.napExit r) s = .next (setMap (12 + r) 1 (s.setRgn r { s.rgn r with napping := false, idleSince := s.now })))

/-- Admin operations in their normal case (R184, R233, R235, R237, R242): a context takes the lowest free ID with its segment zeroed; a
queue is set up and its status block written, unless its number, or for a display queue its head, is taken; a context or a queue is
destroyed. The model's choices here: log entries 19, 29, 44, 77, 83. -/
def Obligations.AdminCommands : Prop :=
  (∀ s q i x d k, Serves s q i 0xF00 x d → s.link.flrBusy = [] → fnExists s (field (creationRecord s d.cur) 0 6) = true →
      segmentBad s (field (creationRecord s d.cur) 0 6) (field (creationRecord s d.cur) 64 23) (field (creationRecord s d.cur) 96 24) = false →
      mfresh s.fe.ctxs 65536 0 = some k → hostBar s 0 (dField d.cur 40 8) = none →
      exec (.ctxCreate q i) s =
        let w := creationRecord s d.cur
        let c : Ctx := {
          fn := field w 0 6, pasid := if bitOf w 8 then some (field w 32 20) else none, ltaBase := field w 64 23, ltaCount := field w 96 24
          peerVa := field w 128 64, peerCount := field w 192 17, fenceMax := field w 224 21 }
        let t := s.setCtx k c
        .next (done q i k (writeCtxEntry { t with mem := { t.mem with lta := zeroRange t.mem.lta c.ltaBase c.ltaCount } } k)))
  ∧ (∀ s q i x d c, Serves s q i 0xF01 x d → s.ctx? (dField d.cur 40 2) = some c →
      exec (.ctxDestroy q i) s = .next (done q i 0 (destroyCtx (dField d.cur 40 2) s)))
  ∧ (∀ s q i x d c, Serves s q i 0xF02 x d → s.ctx? (field (creationRecord s d.cur) 0 16) = some c → s.link.flrBusy = [] → c.st = .live →
      hostBar s 0 (dField d.cur 40 8) = none →
      let w := creationRecord s d.cur
      let k := field w 0 16 * 16 + field w 16 4
      let taken := (s.queue? k).isSome || (field w 24 3 == 2 &&
        s.fe.queues.any (fun e => e.2.typ == 2 && e.2.typeArg == field w 384 8 && e.1 != adminQid))
      (taken = false → exec (.queueCreate q i) s = .next (done q i k (writeStatus k (s.setQueue k (newQueue s w)))))
      ∧ (taken = true → exec (.queueCreate q i) s = .next (failed q i 1 0x0804 s)))
  ∧ (∀ s q i x d y t, Serves s q i 0xF03 x d → s.queue? (dField d.cur 40 4 % 2 ^ 20) = some y →
      foldState (y.descs.map (·.1)) (endReleased (dField d.cur 40 4 % 2 ^ 20)) (dropQueueWork (dField d.cur 40 4 % 2 ^ 20)
        (dropUnreleased (dField d.cur 40 4 % 2 ^ 20) (s.setQueue (dField d.cur 40 4 % 2 ^ 20) { y with st := .destroyed }))) = t →
      (∀ z, t.queue? (dField d.cur 40 4 % 2 ^ 20) = some z → z.descs = []) →
      exec (.queueDestroy q i) s =
        let k := dField d.cur 40 4 % 2 ^ 20
        .next (done q i 0 (settleDraining (removeQueue k (abandonProducer y.ctx (k % 16) t)))))

/-- Front-end settings (R55, R57, R63, R67, R244, R265, R346, R377): FE_REGION_GROUPS, LC_ENABLE, RES_CTRL and PWR_CAP take their writable
fields where their rules let them, and a write that they do not let is logged (KIND 0x02) and changes nothing; the admin queue starts and
stops with ENABLE, whose other writes change nothing while it runs and which a size out of range leaves clear; a new address of the ready
map's copy has it written. Clock settings (R346, R353): the domains whose source changes are switched to sources that run, or the write is
refused whole, with REFUSED set; CORE_MAX under 2,200 MHz, the fabric PLLs and FE_DIV change while no LC launch is admitted and LC work is
disabled, and otherwise the write is logged and discarded. The model's choices here: log entries 83, 98. -/
def Obligations.FrontEndAndClockSettings : Prop :=
  (∀ s v, blockUp s 0x010404 = true → lcIdle s = true →
      exec (.regionGroupsWrite v) s =
        let t := wr s 0x010404 (setField (field v.toNat 0 16) 0 1 1)
        .next { t with fe := { t.fe with lostGroups := [] } })
  ∧ (∀ s v, blockUp s 0x010404 = true → lcIdle s = false → exec (.regionGroupsWrite v) s = .next (logViol s 2 0 0 0x010404 v.toNat))
  ∧ (∀ s v, blockUp s 0x010400 = true → bitOf v.toNat 0 = false ∨ clocksShort s = false →
      exec (.lcEnableWrite v) s = .next (wr s 0x010400 (v.toNat &&& 0xFF01)))
  ∧ (∀ s v, blockUp s 0x010400 = true → bitOf v.toNat 0 = true → clocksShort s = true →
      exec (.lcEnableWrite v) s = .next (logViol s 2 0 0 0x010400 v.toNat))
  ∧ (∀ s v, blockUp s 0x010604 = true → residencyFree s = true →
      exec (.resCtrlWrite v) s = .next (zeroArea (wr s 0x010604 (field v.toNat 0 7))))
  ∧ (∀ s c, (zeroArea s).core c = { s.core c with ts := (s.core c).ts.filter (fun e => decide (e.1 < usableTop s)) })
  ∧ (∀ s v, blockUp s 0x010604 = true → residencyFree s = false → exec (.resCtrlWrite v) s = .next (logViol s 2 0 0 0x010604 v.toNat))
  ∧ (∀ s v, blockUp s 0x040000 = true →
      exec (.capWrite v) s =
        let t := wr s 0x040000 (field v.toNat 0 10)
        .next (capWatch { t with fe := { t.fe with heldCap := drawLimit s } }))
  ∧ (∀ s v, blockUp s 0x118 = true → bitOf (rd s 0x118) 0 = false → 4 ≤ field v.toNat 8 5 → field v.toNat 8 5 ≤ 20 →
      exec (.adminCtrlWrite v) s = .next (startAdmin (wr s 0x118 (v.toNat &&& 0x07FF1F01))))
  ∧ (∀ s v, blockUp s 0x118 = true → bitOf (rd s 0x118) 0 = true → bitOf v.toNat 0 = false →
      exec (.adminCtrlWrite v) s = .next (stopAdmin (wr s 0x118 (setField (rd s 0x118) 0 1 0))))
  ∧ (∀ s v, blockUp s 0x30 = true → exec (.readyCopyWrite false v) s = .next (copyReady (wr s 0x30 (v.toNat / 32 * 32))))
  ∧ (∀ s v, blockUp s 0x34 = true → exec (.readyCopyWrite true v) s = .next (copyReady (wr s 0x34 v.toNat)))
  ∧ (∀ s (die : Fin 2) v, blockUp s (0x030010 + 4 * die) = true → 2200 ≤ 25 * clampN 16 104 (field v.toNat 0 7) ∨ lcIdle s = true →
      exec (.coreCtrlWrite die v) s = .next (retarget die (wr s (0x030010 + 4 * die) (v.toNat &&& 0x7F7F))))
  ∧ (∀ s (die : Fin 2) v, blockUp s (0x030010 + 4 * die) = true → 25 * clampN 16 104 (field v.toNat 0 7) < 2200 → lcIdle s = false →
      exec (.coreCtrlWrite die v) s = .next (logViol s 2 0 0 (0x030010 + 4 * die) v.toNat))
  ∧ (∀ s v, blockUp s 0x030020 = true → lcIdle s = true →
      exec (.fabCtrlWrite v) s = .next (wr s 0x030020 (v.toNat &&& 0x7F7F)))
  ∧ (∀ s v, blockUp s 0x030020 = true → lcIdle s = false → exec (.fabCtrlWrite v) s = .next (logViol s 2 0 0 0x030020 v.toNat))
  ∧ (∀ s v, blockUp s 0x030024 = true → lcIdle s = true → v.toNat % 4 ≠ 3 →
      exec (.feCtrlWrite v) s = .next (wr s 0x030024 (v.toNat % 4)))
  ∧ (∀ s v, blockUp s 0x030024 = true → lcIdle s = false ∨ v.toNat % 4 = 3 →
      exec (.feCtrlWrite v) s = .next (logViol s 2 0 0 0x030024 v.toNat))
  ∧ (∀ s (v : W32), blockUp s 0x030000 = true → s.clk.switching = true ∨ field v.toNat 16 2 = 2
        ∨ (∃ k, k < 11 ∧ (field v.toNat (2 * k) 2 = 3 ∨ (field v.toNat (2 * k) 2 ≠ clkCur s k ∧ sourceOk s k (field v.toNat (2 * k) 2) = false))) →
      exec (.clockSwitch v) s = .next (logViol { s with clk := { s.clk with mon := setField s.clk.mon 5 1 1 } } 2 0 0 0x030000 v.toNat))
  ∧ (∀ s (v : W32), blockUp s 0x030000 = true → s.clk.switching = false → field v.toNat 16 2 ≠ 2 →
      (∀ k, k < 11 → field v.toNat (2 * k) 2 ≠ 3 ∧
        (field v.toNat (2 * k) 2 ≠ clkCur s k ∨ s.clk.stopped.contains k = true → sourceOk s k (field v.toNat (2 * k) 2) = true)) →
      exec (.clockSwitch v) s =
        let ks := (List.range 11).filter (fun k => field v.toNat (2 * k) 2 != clkCur s k || s.clk.stopped.contains k)
        let t := foldState ks (fun k a => setSrc (field v.toNat (2 * k) 2) k a) { s with clk := { s.clk with sel := field v.toNat 0 22 } }
        .next (if xtalSet.any (fun k => clkCur t k == 1 || t.clk.stopped.contains k) then t else endEmergency 3 t))
  ∧ (∀ s v, blockUp s 0x118 = true → bitOf (rd s 0x118) 0 = true → bitOf v.toNat 0 = true → exec (.adminCtrlWrite v) s = .next s)
  ∧ (∀ s v, blockUp s 0x118 = true → bitOf (rd s 0x118) 0 = false → field v.toNat 8 5 < 4 ∨ 20 < field v.toNat 8 5 →
      exec (.adminCtrlWrite v) s = .next (startAdmin (wr s 0x118 (setField (v.toNat &&& 0x07FF1F01) 0 1 0))))

/-- Fault collector and accounting (R401 to R405, R408, R409): a record leaves handling; FLT_ACK moves forward to a record that exists and
is refused otherwise; the accounting mode is set, mode 0 refused, and the measured counters are zeroed, and the energy of a microsecond is
added outside SERVICE. The model's choices here: log entries 78, 81, 98. -/
def Obligations.CollectorCommands : Prop :=
  (∀ s seq r, mfind s.flt.hist (seq % 32) = some r → r.seq = seq →
      exec (.faultHandlingEnd seq) s =
        .next { s with flt := { s.flt with hist := mins s.flt.hist (seq % 32) { r with handling := false } } })
  ∧ (∀ s intact, s.flt.safe = false →
      exec (.collectorSelfFault intact) s =
        let t := if intact then faultEvent s 3 0xD 0 1 0xFFFF 0 else signalFault (enterSafe s) 3 0xFFFF
        .next { t with flt := { t.flt with self := true } })
  ∧ (∀ s (v : W32), blockUp s 0x05000C = true → 0 ≤ diff32 v.toNat s.flt.ack → diff32 v.toNat s.flt.seq ≤ 0 →
      exec (.fltAckWrite v) s = .next { s with flt := { s.flt with ack := v.toNat } })
  ∧ (∀ s (v : W32), blockUp s 0x0B0000 = true → v.toNat % 4 ≠ 0 →
      exec (.acctModeWrite v) s = .next { s with acct := { s.acct with mode := v.toNat % 4 } })
  ∧ (∀ s, blockUp s 0x0B0004 = true →
      exec .acctClear s = .next { s with acct := { s.acct with energy := 0, hubBytes := 0, rgnCycles := [], rgnBytes := [] } })
  ∧ (∀ s (watts : BitVec 10),
      exec (.energySample watts) s =
        let t := capWatch { s with pwr := { s.pwr with inputW := watts.toNat } }
        .next (if s.acct.mode = 1 then t else { t with acct := { t.acct with energy := (t.acct.energy + watts.toNat) % 2 ^ 64 } }))
  ∧ (∀ s (v : W32), blockUp s 0x05000C = true → diff32 v.toNat s.flt.ack < 0 ∨ 0 < diff32 v.toNat s.flt.seq →
      exec (.fltAckWrite v) s = .next (logViol s 2 0 0 0x05000C v.toNat))
  ∧ (∀ s (v : W32), blockUp s 0x0B0000 = true → v.toNat % 4 = 0 → exec (.acctModeWrite v) s = .next (logViol s 2 0 0 0x0B0000 v.toNat))
  ∧ (∀ s seq, (∀ r, mfind s.flt.hist (seq % 32) = some r → r.seq ≠ seq) → exec (.faultHandlingEnd seq) s = .next s)

/-- Clock monitor trips (R350, R351, R354): each trip latches, records and answers as its monitor's row gives, while its reference runs; IBO
starts, or times out into the safe state. PLLs and references that come back (R318, R351, R352, R427). The model's choices here: log entries
35, 43. -/
def Obligations.ClockTripsAndReturns : Prop :=
  (∀ s, bar0Up s = true → s.clk.xtalOk = true → s.clk.iboReady = true →
      exec .xtalTrip s = .next (trip 0 ⟨0, true, .xtal⟩ (loseXtal s)))
  ∧ (∀ s, bar0Up s = true → s.clk.xtalGone = false → s.clk.iboReady = false →
      exec .xtalLpoTrip s = .next (trip 1 ⟨1, true, .xtal⟩ (loseXtal s)))
  ∧ (∀ s, bar0Up s = true → s.clk.refclkOk = true → s.clk.xtalOk = true →
      exec .refclkTrip s = .next (trip 2 ⟨2, true, .pcie⟩ { s with clk := { s.clk with refclkOk := false } }))
  ∧ (∀ s, bar0Up s = true → s.clk.iboReady = true →
      exec .iboTrip s =
        let t := sendTripIrq (tripRecord 3 false (tripLatch 3 s))
        .next { t with clk := { t.clk with iboReady := false, iboFault := t.clk.iboTrips != 0, iboTrips := t.clk.iboTrips + 1 } })
  ∧ (∀ s, bar0Up s = true →
      (s.clk.iboReady = false → exec .xtalTrip s = .next s ∧ exec .iboTrip s = .next s)
      ∧ (s.clk.iboReady = true → exec .xtalLpoTrip s = .next s) ∧ (s.clk.xtalOk = false → exec .refclkTrip s = .next s))
  ∧ (∀ s (pll : Fin 15), bar0Up s = true → bitOf s.clk.locks pll = true →
      exec (.lockTrip pll) s = .next (
        let t := setLock pll false s
        if pll.val = 6 then trip 4 ⟨10, false, .pcie⟩ t
        else if pll.val ≤ 8 then trip 4 ⟨4 + pll, false, .xtalSet⟩ t
        else if pll.val ≤ 10 then stopPort (pll - 9) (faultEvent t 0 8 (4 + pll) 1 0xFFFF 0)
        else stopHead (pll - 11) (if s.clk.xtalOk then .training else .linkFailed) (faultEvent t 0 8 (4 + pll) 1 0xFFFF 0)))
  ∧ (∀ s, bar0Up s = true → s.clk.iboReady = false → s.clk.iboFault = false →
      exec .iboReady s = .next (sendTripIrq (enterOwed (foldState s.clk.answers answerTrip (foldState s.clk.stopped (setSrc 1)
        { s with clk := { s.clk with iboReady := true, answers := [] } })))))
  ∧ (∀ s, s.clk.stopped ≠ [] → s.clk.iboReady = false → s.flt.safe = false → exec .iboStartTimeout s = .next (oasisSafe s))
  ∧ (∀ s (pll : Fin 15), bar0Up s = true → (if pll.val = 6 then s.clk.refclkOk else s.clk.xtalOk) = true →
      exec (.pllRelock pll) s = .next (if 11 ≤ pll.val then restartHead (pll - 11) (setLock pll true s) else setLock pll true s))
  ∧ (∀ s (pll : Fin 15), bar0Up s = true → s.clk.xtalOk = true → bitOf s.clk.locks pll = false → s.flt.safe = false →
      (9 ≤ pll.val ∧ pll.val ≤ 10 → isReady s (36 + (pll.val - 9)) = true) → (11 ≤ pll.val → (head s (pll.val - 11)).st ≠ .off) → 9 ≤ pll.val →
      exec (.pllRelockTimeout pll) s = .next (
        if 11 ≤ pll.val then failHead (pll - 11) (faultEvent s 2 0xA (pll - 11) 2 0xFFFF (head s (pll.val - 11)).frame)
        else failPort (pll - 9) (faultEvent s 2 9 (pll - 9) 1 0xFFFF 0)))
  ∧ (∀ s, s.clk.xtalGone = true → bar0Up s = true →
      exec .xtal25Restart s =
        let s1 := foldState [0, 1, 2, 3, 4, 5, 7, 8] (fun p a => setLock p true a) { s with clk := { s.clk with xtalGone := false, xtalOk := true } }
        let s2 := foldState [0, 1] (fun b a => if isReady a (36 + b) then setLock (9 + b) true a else a) s1
        .next (foldState (List.range 4) (fun h a => if (head a h).st == .off then a else restartHead h (setLock (11 + h) true a)) s2))
  ∧ (∀ s, blockUp s 0x0A005C = true →
      exec .clkTripClear s = .next { s with oas := { s.oas with clkTrip := false, iboStarting := false } })

/-- Heat and the brake (R348, R415, R417, R418): a die that reports the limit reached stalls BE issue and 3 °C above it slows down, and a
report below the limit changes nothing; below the limit BE issue goes on, and 3 °C above it a die that has cooled is let go up to the clock
its limits give; an emergency ends when its condition says so; the brake lowers both dies and begins its emergency, once, and releasing it
ends that; the thermal trip is a loss of main power; a stalled blower sets STALLED where there is a blower. The model's choices here: log
entries 45, 46, 98. -/
def Obligations.HeatAndBrake : Prop :=
  (∀ s (die : Fin 2) (temp : Byte) mhz, bar0Up s = true → limitC s + 3 ≤ temp.toNat →
      exec (.thermalLimitReached die temp mhz) s =
        let t := setBlower (heatStall (setJunction die temp.toNat s))
        .next (watchHeat (lowerDie mhz die { t with pwr := { t.pwr with
          hot := if t.pwr.hot.contains die.val then t.pwr.hot else t.pwr.hot ++ [die.val] } })))
  ∧ (∀ s (die : Fin 2) (temp : Byte) mhz, bar0Up s = true → limitC s ≤ temp.toNat → temp.toNat < limitC s + 3 →
      exec (.thermalLimitReached die temp mhz) s = .next (setBlower (heatStall (setJunction die temp.toNat s))))
  ∧ (∀ s (die : Fin 2) (temp : Byte) mhz, temp.toNat < limitC s → exec (.thermalLimitReached die temp mhz) s = .next s)
  ∧ (∀ s (die : Fin 2) (temp : Byte) mhz t, bar0Up s = true → limitC s ≤ temp.toNat →
      exec (.thermalLimitReached die temp mhz) s = .next t →
      beStalled t = true ∧ ∀ d < 2, coreMhz t d ≤ coreMhz s d ∧ (d ≠ die.val ∨ temp.toNat < limitC s + 3 → coreMhz t d = coreMhz s d))
  ∧ (∀ s (die : Fin 2) (temp : Byte), limitC s + 3 ≤ temp.toNat → exec (.thermalLimitCleared die temp) s = .next s)
  ∧ (∀ s (die : Fin 2) (temp : Byte), bar0Up s = true → temp.toNat < limitC s + 3 →
      exec (.thermalLimitCleared die temp) s =
        let t := heatStall (setJunction die temp.toNat s)
        .next (setBlower (retarget die { t with pwr := { t.pwr with hot := t.pwr.hot.filter (· != die.val) } })))
  ∧ (∀ s, exec .thermalEmergencyEnd s = .next (endEmergency 1 s))
  ∧ (∀ s mhz, bar0Up s = true → s.pwr.brake = false →
      exec (.pwrbrkNLow mhz) s = .next (foldState [0, 1] (lowerDie mhz) (beginEmergency 2 (fun _ => true)
          { s with pwr := { s.pwr with brake := true, brakeCause := 0, brakeCount := min 255 (s.pwr.brakeCount + 1) } }))
      ∧ exec (.inputOvercurrent mhz) s = .next (foldState [0, 1] (lowerDie mhz) (beginEmergency 2 (fun _ => true)
          { s with pwr := { s.pwr with brake := true, brakeCause := 1, brakeCount := min 255 (s.pwr.brakeCount + 1) } })))
  ∧ (∀ s mhz, s.pwr.brake = true → exec (.pwrbrkNLow mhz) s = .next s ∧ exec (.inputOvercurrent mhz) s = .next s)
  ∧ (∀ s, s.pwr.brake = true →
      exec .brakeRelease s = .next (foldState [0, 1] retarget (endEmergency 2 { s with pwr := { s.pwr with brake := false } })))
  ∧ (∀ s, s.pwr.brake = false → exec .brakeRelease s = .next s)
  ∧ (∀ s, s.pwr.mainPower = true → s.pwr.dev ≠ .oasis →
      exec .thermalTrip s = .next (enterOasis { s with pwr := { s.pwr with mainPower := false } }))
  ∧ (∀ s (rpm : BitVec 16), bar0Up s = true →
      exec (.blowerStall rpm) s =
        .next (if Config.strapVariant = 0#2 then { s with pwr := { s.pwr with stalled := true, rpm := rpm.toNat } } else s))

/-- The Oasis domain (R364 to R368, R372): its power, its counter's calibration, compare channels, comparators, which may wake the device,
and pads. The model's choices here: log entries 47, 55. -/
def Obligations.OasisCommands : Prop :=
  (∀ s, s.oas.powered = false → exec .auxPowerUp s = .next { s with oas := {} })
  ∧ (∀ s (cal : BitVec 20), s.oas.powered = true → s.clk.xtalGone = false → s.pwr.dev ≠ .oasis →
      exec (.lpoCalUpdate cal) s = .next { s with oas := { s.oas with lpoCal := cal.toNat } })
  ∧ (∀ s (n : Fin 4) (hi : W32), blockUp s (0x0A0014 + 16 * n) = true →
      exec (.cmpArm n hi) s = .next (checkCmp n (setCmp n { cmp s n with
        hi := BitVec.ofNat 32 (hi.toNat % 65536), armed := some (cmpPair { cmp s n with hi := BitVec.ofNat 32 (hi.toNat % 65536) }) } s)))
  ∧ (∀ s (n : Fin 4) v, s.oas.powered = true → (cmp s n).armed = some v → (cmp s n).en = true →
      ((s.oas.count + 2 ^ 48 - v.toNat) % 2 ^ 48 < 2 ^ 47 → exec (.compareFire n) s = .next (fireCmp n s))
      ∧ (2 ^ 47 ≤ (s.oas.count + 2 ^ 48 - v.toNat) % 2 ^ 48 → exec (.compareFire n) s = .next s))
  ∧ (∀ s (t : Fin 2) (now : Byte), s.oas.powered = true → tempTrips { tempCmp s t with now := now } = false →
      exec (.temperatureMeasurement t now) s =
        let u := setTemp t { tempCmp s t with now := now } s
        .next { u with sec := { s.sec with tripping := setField s.sec.tripping 1 1 (b2n (tempTrips (tempCmp s (1 - t.val)))) } })
  ∧ (∀ s (t : Fin 2) (now : Byte), s.oas.powered = true → tempTrips { tempCmp s t with now := now } = true →
      exec (.temperatureMeasurement t now) s =
        let u := setTemp t { tempCmp s t with now := now, trip := true } s
        let v := if (tempCmp s t).wake then wakeAction u else u
        .next (if latchesAlarms v then raiseAlarm 1 v else v))
  ∧ (∀ s mv, s.oas.powered = true → mv < s.oas.thresh → 2700 ≤ mv → bar0Up s = true →
      exec (.auxBelowThreshold mv) s = .next (faultEvent { s with oas := { s.oas with below := true } } 0 0xC 0 5 0xFFFF 0))
  ∧ (∀ s, blockUp s 0x0A0064 = true → s.oas.latched = true →
      exec .padRelease s = .next (setBlower { s with oas := { s.oas with latched := false, padRelease := true } }))
  ∧ (∀ s, wakeAction s = match s.pwr.dev with
      | .dormant => s.send { kind := .pme }
      | .oasis => { s.send { kind := .wake } with oas := { s.oas with wakePin := true } }
      | _ => s)

/-- Flash commands (R380, R381): a GO starts the operation unless one is going or its bytes are barred, when it is refused and logged, and
its end gives the bytes read, programs the page or leaves 0xFF over 64 KiB. Fuse changes (R382, R383, R385 to R387): ARM keeps its setting
until the next write; a GO that nothing refuses burns with a ledger entry at COMPLETE 0, and a refused one leaves its STATUS and is logged;
the end leaves the value the verified fuses give and completes the entry. The model's choices here: log entries 8, 36, 84. -/
def Obligations.FlashAndFuseCommands : Prop :=
  (∀ s (v : W32), blockUp s 0x060044 = true → s.sec.flashOp = none →
      exec (.flashRead v) s =
        let t := wr (disarm s) 0x060044 0
        .next { t with sec := { t.sec with flashStatus := 1, flashOp := some ⟨0, field (rd s 0x060040) 0 26, none⟩ } })
  ∧ (∀ s (v : W32), blockUp s 0x060044 = true → s.sec.flashOp = none → flashBarred s (field (rd s 0x060040) 0 26 / 256 * 256) = false →
      exec (.flashProgram v) s =
        let t := wr (disarm s) 0x060044 1
        .next { t with sec := { t.sec with flashStatus := 1, flashOp := some ⟨1, field (rd s 0x060040) 0 26 / 256 * 256, none⟩ } })
  ∧ (∀ s (v : W32), blockUp s 0x060044 = true → s.sec.flashOp = none → flashBarred s (field (rd s 0x060040) 0 26 / 65536 * 65536) = false →
      exec (.flashErase v) s =
        let t := wr (disarm s) 0x060044 2
        .next { t with sec := { t.sec with flashStatus := 1, flashOp := some ⟨2, field (rd s 0x060040) 0 26 / 65536 * 65536, none⟩ } })
  ∧ (∀ s (v : W32), blockUp s 0x060044 = true →
      let refused := fun (op : Nat) => regRefused { wr (disarm s) 0x060044 op with sec := { (disarm s).sec with flashStatus := 3 } } 0 0x060044
        (setField (setField v.toNat 0 2 op) 8 1 1)
      (s.sec.flashOp ≠ none → exec (.flashRead v) s = .next (refused 0))
      ∧ (s.sec.flashOp ≠ none ∨ flashBarred s (field (rd s 0x060040) 0 26 / 256 * 256) = true → exec (.flashProgram v) s = .next (refused 1))
      ∧ (s.sec.flashOp ≠ none ∨ flashBarred s (field (rd s 0x060040) 0 26 / 65536 * 65536) = true →
        exec (.flashErase v) s = .next (refused 2)))
  ∧ (∀ s f, s.sec.flashOp = some f →
      exec .flashOpDone s =
        let t := { s with sec := { s.sec with flashOp := none, flashStatus := 2 } }
        .next (if f.op = 0 then { t with sec := { t.sec with page := (flashBytes s f.addr 256).zipIdx.foldl (fun m e => mset m 0 e.2 e.1) [] } }
          else if f.op = 1 then setFlash f.addr (f.data.getD (pageBytes s)) t
          else setFlash f.addr (List.replicate 65536 0xFF#8) t))
  ∧ (∀ s (v : W32), blockUp s 0x060010 = true → isReady s 2 = true →
      exec (.otpArm v) s =
        let t := wr s 0x060010 (v.toNat % 16)
        .next { t with sec := { t.sec with armed := some (v.toNat % 16) } })
  ∧ (∀ s (v : W32), blockUp s 0x060010 = true → isReady s 2 = true → otpRefusal s (v.toNat % 16) (rd s 0x060014) = 0 →
      exec (.otpGo v) s =
        let code := v.toNat % 16
        let goal := otpGoal s.sec.otp code (rd s 0x060014)
        let t := addLedger ⟨code, false, otpValue s.sec.otp code, goal, s.sec.fw, otpValue s.sec.otp code⟩ (wr (disarm s) 0x060010 code)
        .next { t with sec := { t.sec with
          status := 1
          change := some ⟨code, otpValue s.sec.otp code, goal⟩
          otp := { t.sec.otp with
            nodeSteps := s.sec.otp.nodeSteps + (if code = 5 then 1 else 0)
            ceilingSteps := s.sec.otp.ceilingSteps + (if code = 6 then 1 else 0) } } })
  ∧ (∀ s (v : W32), blockUp s 0x060010 = true → isReady s 2 = true → otpRefusal s (v.toNat % 16) (rd s 0x060014) ≠ 0 →
      exec (.otpGo v) s =
        let t := wr (disarm s) 0x060010 (v.toNat % 16)
        let st := otpRefusal s (v.toNat % 16) (rd s 0x060014)
        .next (logViol (if s.sec.change.isSome then t else { t with sec := { t.sec with status := st } }) 3 0 0 (v.toNat % 16) st))
  ∧ (∀ s c, s.sec.change = some c →
      exec (.otpChangeDone c.goal) s =
        let t := ledgerComplete c.setting c.goal (setOtp c.setting c.goal s)
        .next { t with sec := { t.sec with change := none, status := 2 } })
  ∧ (∀ s c v, s.sec.change = some c → otpReachable c v = true → v ≠ c.goal →
      exec (.otpChangeDone v) s =
        let t := ledgerFail c.setting v (setOtp c.setting v s)
        .next (faultEvent { t with sec := { t.sec with change := none, status := 6 } } 0 0xC 0 3 0xFFFF 0))

/-- Alarms and start of the firmware (R374, R379, R380, R384, R393 to R395): a source that trips latches its alarm and runs the policy's
action unless it is latched already, and nothing latches outside start-up, UP and DORMANT; clearing one whose source still trips leaves it
set; Haboob ends with the seed destroyed and the device in the safe state; the boot ROM keeps the results of both banks; the console answers
at DEBUG_LEVEL 0 and 1. The model's choices here: log entries 9, 36, 48. -/
def Obligations.AlarmCommands : Prop :=
  (∀ s, latchesAlarms s = true → bitOf s.sec.alarms 0 = false →
      exec .voltageGlitch s = .next (runAction 0 { s with sec := { s.sec with
        tripping := setField s.sec.tripping 0 1 1, alarms := setField s.sec.alarms 0 1 1 } }))
  ∧ (∀ s, latchesAlarms s = true → bitOf s.sec.alarms 3 = false →
      exec .tamper s = .next (runAction 3 { s with sec := { s.sec with
        tripping := setField s.sec.tripping 3 1 1, alarms := setField s.sec.alarms 3 1 1 } }))
  ∧ (∀ s v tripping, blockUp s 0x060030 = true → ∃ t, exec (.alarmClear v tripping) s = .next t ∧ t.sec.tripping = tripping.toNat ∧
      (∀ k, k < 4 →
        bitOf t.sec.alarms k = (bitOf s.sec.alarms k && !(bitOf v.toNat k && !bitOf tripping.toNat k))))
  ∧ (∀ s, s.sec.haboob = true →
      exec .haboobSeedBurned s =
        let t := ledgerComplete 0x10 0 (destroySeed s)
        .next (faultEvent { t with sec := { t.sec with haboob := false } } 3 0xC 0 2 0xFFFF 0))
  ∧ (∀ s ea eb, s.pwr.dev = .starting → s.sec.imageLoaded = false → isFailed s 1 = false → s.flt.safe = false →
      let r := tryBanks s (fun b => if b = 0 then ea else eb) (bootOrder s)
        (headerCode s.sec.otp (headerOf s 0), headerCode s.sec.otp (headerOf s 1))
      ∃ t, exec (.bootImageLoaded ea eb) s = .next t ∧ t.sec.resA = r.1.1 ∧ t.sec.resB = r.1.2 ∧
        match r.2 with
        | none => t.sec.imageLoaded = false ∧ isFailed t 1 = true ∧ isFailed t 2 = true
        | some b => t.sec.imageLoaded = true ∧ t.sec.bank = b ∧ t.sec.svn = hField (headerOf s b) 12 4 ∧
            t.sec.fw = hField (headerOf s b) 8 4 ∧ t.sec.fallback = ((bootOrder s).head? != some b))
  ∧ (∀ s m, s.sec.otp.debug < 2 → s.oas.latched = false → s.pwr.dev = .up →
      exec (.uartConsoleInput m) s =
        .next (s.send { kind := .uart, bytes := Config.protocolReply (if s.sec.otp.debug = 0 then 0x103 else 0x102) m (bytesKey (consoleView s)) }))
  ∧ (∀ s m, 2 ≤ s.sec.otp.debug → exec (.uartConsoleInput m) s = .next s)
  ∧ (∀ s, latchesAlarms s = true → bitOf s.sec.alarms 3 = true →
      exec .tamper s = .next { s with sec := { s.sec with tripping := setField s.sec.tripping 3 1 1 } })
  ∧ (∀ s, latchesAlarms s = true → bitOf s.sec.alarms 0 = true →
      exec .voltageGlitch s = .next { s with sec := { s.sec with tripping := setField s.sec.tripping 0 1 1 } })
  ∧ (∀ s, latchesAlarms s = false → exec .voltageGlitch s = .next s
      ∧ exec .tamper s = .next { s with sec := { s.sec with tripping := setField s.sec.tripping 3 1 1 } })

/-- Reset and power (R34, R355, R357, R366, R369, R373, R405, R417): a module reset holds the device with PERST# low and starts it at once
otherwise; loss of main power and the thermal trip leave OASIS; D3hot leaves DORMANT; each wake leaves its cause. The model's choices here:
log entries 1, 5, 10, 30, 34, 39, 40, 41, 79, 95, 97, 120. -/
def Obligations.ResetAndPower : Prop :=
  (∀ s, s.oas.powered = true → s.pwr.dev ≠ .oasis → s.pwr.dev ≠ .dormant →
      exec .perstAssert s = .next (moduleReset false { s with pwr := { s.pwr with perst := true } }))
  ∧ (∀ s, s.oas.powered = true → s.pwr.dev = .dormant →
      exec .perstAssert s = .next (enterOasis { s with pwr := { s.pwr with perst := true } }))
  ∧ (∀ s a b u, s.pwr.perst = true → s.pwr.mainPower = true → s.oas.powered = true → s.pwr.dev = .held →
      exec (.perstDeassert ⟨a, b⟩ u) s = .next (startUp (cisternUpset u (setConns a b
        { s with pwr := { s.pwr with perst := false }, oas := { s.oas with wakePin := false } }))))
  ∧ (∀ s a b u, s.pwr.perst = true → s.pwr.mainPower = true → s.oas.powered = true → s.pwr.dev = .oasis →
      exec (.perstDeassert ⟨a, b⟩ u) s = .next (startUp (cisternUpset u (setConns a b
        { s with pwr := { s.pwr with perst := false }, oas := { s.oas with wakePin := false, wakeCause := 2 } }))))
  ∧ (∀ s a b u, s.pwr.mainPower = false → s.pwr.perst = false → s.oas.powered = true → s.pwr.dev = .oasis →
      exec (.mainPowerUp ⟨a, b⟩ u) s = .next (startUp (cisternUpset u (setConns a b
        { s with pwr := { s.pwr with mainPower := true }, clk := { s.clk with xtalGone := false }, oas := { s.oas with wakeCause := 0 } }))))
  ∧ (∀ s, s.pwr.dev ≠ .oasis →
      exec .mainPowerLoss s = .next (enterOasis { s with pwr := { s.pwr with mainPower := false } })
      ∧ (s.pwr.mainPower = true → exec .thermalTrip s = .next (enterOasis { s with pwr := { s.pwr with mainPower := false } })))
  ∧ (∀ s, linkUp s = true → ∀ c ∈ [Instr.hotReset, .linkDisable, .dlDown], exec c s = .next (startUp (moduleReset false s)))
  ∧ (∀ s, blockUp s 0x050000 = true → s.flt.safe = true → exec .safeExit s = .next (startUp (moduleReset false s)))
  ∧ (∀ s, feRuns s = true → ∃ t, exec .d3hotEntry s = .next t ∧ t.pwr.dev = .dormant ∧ t.link.d3hot = true ∧ t.oas.latched = true)
  ∧ (∀ s (cause : Fin 5) u, s.pwr.dev = .dormant → s.clk.xtalGone = false → wakeSource s cause = true →
      exec (.dormantExit ⟨cause, u⟩) s =
        let t := { s with
          link := { s.link with d3hot := false }, clk := { s.clk with mon := 0 }, pwr := { s.pwr with dev := .up }
          oas := { s.oas with wakeCause := cause.val } }
        .next (sendTripIrq (foldState (List.range 64) resumeFn ((setBlower (restoreFailed (foldState [0, 1] retarget
          (cisternRestore (cisternUpset u (reloadLta (wakeClocks (resetPage t)))))))).send { kind := .frs }))))

/-- Reports of start-up (R178, R266, R267, R358, R374, R376, R377, R397, R398, R411): each unit's report sets its READY or FAILED bit, and
one that fails is recorded; a provisioning start draws a seed first, and a module above 16 W leaves its port FAILED. The model's choices
here: log entries 6, 35, 36, 37, 43, 60, 95. -/
def Obligations.StartUpReports : Prop :=
  (∀ s (speed : Fin 7) (width : Fin 17) flit cfg, bar0Up s = true → s.link.dlUp = false → speed ≠ 0 → width.val ∈ [1, 2, 4, 8, 16] →
      (speed = 6 → flit = true) →
      exec (.linkTrained speed width flit cfg) s =
        .next (sendTripIrq (setMap 0 1
          (applyCfg cfg { s with link := { s.link with speed := speed, width := width, flit := flit, dlUp := true } }))))
  ∧ (∀ s, s.pwr.dev = .starting → s.sec.imageLoaded = true → s.flt.safe = false →
      exec .feReady s =
        let t := if s.sec.provisioning then drawSeed s else s
        .next (sendTripIrq (startAdmin (setMap 1 1 (setMap 2 1 { t with
          pwr := { t.pwr with dev := .up }
          sec := { t.sec with
            attest := attestKey t
            chain := identityCopy t
            attestCert := match identityKey t.sec.otp, attestKey t with
              | some k, some a => Config.signCert k a
              | _, _ => [] } })))))
  ∧ (∀ s (k : Fin 8) ok, bar0Up s = true → s.flt.safe = false → s.boot.reported.contains k.val = false → s.mem.ltaImage = false →
      exec (.stackTrainingDone k ok) s =
        let t := { s with boot := { s.boot with reported := k.val :: s.boot.reported } }
        .next (placeReserved (if ok then setMap (4 + k) 1 (setStack t k { stackAt t k with st := .ready })
          else setMap (4 + k) 2 (setStack (faultEvent t 2 4 k 3 0xFFFF 0) k { stackAt t k with st := .failed }))))
  ∧ (∀ s (k : Fin 8), s.pwr.dev = .up → s.flt.safe = false → s.mem.ltaImage = true → (stackAt s k).st = .training →
      exec (.stackReady k true) s =
        let t := setMap (4 + k) 1 (setStack s k { stackAt s k with st := .ready })
        .next { t with mem := { t.mem with ltaImage := (List.range 8).any (fun j => (stackAt t j).st == .training) } })
  ∧ (∀ s (k : Fin 8), s.pwr.dev = .up → s.flt.safe = false → s.mem.ltaImage = true → (stackAt s k).st = .training →
      exec (.stackReady k false) s =
        .next (faultEvent (setMap (4 + k) 2 (setStack s k { stackAt s k with st := .outOfService })) 3 4 k 4 0xFFFF 0))
  ∧ (∀ s u, bar0Up s = true → s.flt.safe = false → isReady s (unitBit u) = false → isFailed s (unitBit u) = false →
      exec (.unitReady u true) s = .next (match u with
        | .head h => headReports h s
        | .media e => setMap (32 + e) 1 (setEngine s e { engine s e with st := .ready })
        | .port b => portReports b s)
      ∧ exec (.unitReady u false) s = .next (match u with
        | .head h => failHead h (faultEvent s 2 0xA h 3 0xFFFF (head s h).frame)
        | .media e => failEngine e (faultEvent s 2 0xB e 1 0xFFFF 0)
        | .port b => failPort b (faultEvent s 2 9 b 2 0xFFFF 0)))
  ∧ (∀ s (b : Bool) plugged watts, exec (.osfpModuleInsertion b plugged watts) s =
        let p := mget s.net.ports {} (b2n b)
        let low := plugged && decide (16 < watts)
        let t := { s with net := { s.net with ports := mset s.net.ports {} (b2n b) { p with
          plugged := plugged, watts := if plugged then watts else 0, lowPower := low } } }
        .next (if p.failed = true ∨ (isReady s (36 + b2n b) || isFailed s (36 + b2n b)) = false ∨ bar0Up s = false then t
          else if low then setMap (36 + b2n b) 2 (foldState [2 * b2n b, 2 * b2n b + 1] (fun q a => setSub a q (linkDown (sub a q))) t)
          else setMap (36 + b2n b) 1 t))

/-- Functions, messages and resets (R273, R279, R280, R282, R283): an unmasked, enabled vector sends what was pending; a reset destroys the
function's contexts, then clears its state, then reports. The model's choices here: log entries 37, 39, 44. -/
def Obligations.FunctionCommands : Prop :=
  (∀ s (f : Fin 64), isReady s 0 = true → fnExists s f = true →
      (∀ mem bar,
        let sized : State := match bar with
          | some n => if (s.func 0).memSpace then s else { s with link := { s.link with bar4Log2 := 28 + n } }
          | none => s
        exec (.busMasterEnableSet ⟨f, mem, bar⟩) s = .next (resumeFn f (writeCommand f true mem sized))
        ∧ exec (.busMasterEnableClear ⟨f, mem, bar⟩) s = .next (writeCommand f false mem sized))
      ∧ ∀ mask, exec (.msixEnable ⟨f, mask⟩) s = .next (firePending f (s.setFunc f { s.func f with msixEnable := true, functionMask := mask })))
  ∧ (∀ s (f : Fin 64) bus mem, (writeCommand f bus mem s).func f =
      { s.func f with busMaster := bus, memSpace := if f.val = 0 then mem else (s.func f).memSpace })
  ∧ (∀ s (f : Fin 64) off (v : W64), fnExists s f = true → off < 16 * nVectors f →
      (if f.val = 0 then blockUp s 0xF00000 else blockUp s 0 && !s.flt.safe) = true →
      (off % 4 = 0 → exec (.msixTableWrite f off 4 v) s = .next (firePending f (putMsix f off (v.toNat % 2 ^ 32) s)))
      ∧ (off % 8 = 0 → exec (.msixTableWrite f off 8 v) s =
          .next (firePending f (putMsix f (off + 4) (v.toNat / 2 ^ 32) (putMsix f off (v.toNat % 2 ^ 32) s)))))
  ∧ (∀ s (f : Fin 64), f.val ≠ 0 → fnExists s f = true → feRuns s = true →
      exec (.vfFlr f) s = .next (flrDone f (resetFn f (resetFns (· == f.val) s))))
  ∧ (∀ s, s.link.vfEnable = true → feRuns s = true →
      exec .vfEnableClear s =
        let t := foldState ((List.range 63).map (· + 1)) resetFn (resetFns (· != 0) s)
        .next (flrDone 0 { t with link := { t.link with vfEnable := false, numVfs := 0 } }))
  ∧ (∀ s, isReady s 0 = true → feRuns s = true →
      exec .pfFlr s = .next (flrDone 0 (foldState (List.range 64) resetFn (resetFields (resetFns (fun _ => true) s)))))

/-- Accesses of the host (R6 to R8, R274, R275, R404, R421, R422): BAR4 reaches the window's pages, a write its enabled bytes; a BAR0 access
that R6 does not accept is logged, a write of that kind discarded and a read answered with zeros; a register write reaches its register once
its block answers, and is logged and discarded until then; of a virtual function's registers none is written. Errors on the link (R269,
R286, R288): each is reported and logged (KIND 0x0B, 0x0C); a write or completion is discarded, a request answered Unsupported, and the user
of a device read that got no data fails with HOST_FAULT; L1 is asked for when nothing is outstanding. The model's choices here: log entries
9, 37, 38, 49, 81, 122. -/
def Obligations.HostAccessesAndErrors : Prop :=
  (∀ s off n, inBar4 s off n = true →
      exec (.bar4Read off n) s = .next ((bar4Get (n / 65536 + 2) off n s).1.send
        { kind := .tlpAnswer, a := off, b := n, bytes := (bar4Get (n / 65536 + 2) off n s).2 }))
  ∧ (∀ s off (data : List (Option Byte)), inBar4 s off data.length = true →
      exec (.bar4Write off data) s = .next (bar4Put (data.length / 65536 + 2) off data s))
  ∧ (∀ s (f : Fin 64) off size, s.link.dlUp = true → fnExists s f = true → accessOk s f off size = false →
      exec (.unalignedBar0Access f off size true) s = .next (logViol s 1 f 0 off size)
      ∧ exec (.unalignedBar0Access f off size false) s =
          .next ((logViol s 1 f 0 off size).send { kind := .tlpAnswer, a := off, b := size, bytes := List.replicate size 0 }))
  ∧ (∀ s off v, off < 2 ^ 24 → off % 4 = 0 → inMsix 0 off = false → fnExists s 0 = true → blockUp s off = true →
      exec (.registerWrite 0 off v) s = .next (if inPba 0 off then s else writeReg off v.toNat s))
  ∧ (∀ s off v, off < 2 ^ 24 → off % 4 = 0 → inMsix 0 off = false → fnExists s 0 = true → s.link.dlUp = true → blockUp s off = false →
      exec (.registerWrite 0 off v) s = .next (logViol s 1 0 0 off 4))
  ∧ (∀ s (f : Fin 64) off v, f.val ≠ 0 → fnExists s f = true → off < 2 ^ 16 → off % 4 = 0 → inMsix f off = false → blockUp s 0 = true →
      s.flt.safe = false →
      exec (.registerWrite f off v) s = .next (if off < 8 ∨ inPba f off = true then s else logViol s 2 f 0 off v.toNat))
  ∧ (∀ s (req : BitVec 16) (hdr : List Byte), s.link.dlUp = true →
      let log := fun (bit : Nat) (severity : Byte) =>
        logViol (s.send { kind := .aer, a := req.toNat, b := bit, bytes := severity :: hdr }) 0x0B 0xFF 4 req.toNat bit
      exec (.malformedTlp ⟨req, hdr⟩) s = .next (log 18 2)
      ∧ exec (.poisonedWrite ⟨req, hdr⟩) s = .next (log 12 1)
      ∧ exec (.unexpectedCompletion ⟨req, hdr⟩) s = .next (log 16 1)
      ∧ ∀ atomic, exec (.unsupportedRequest ⟨req, hdr⟩ atomic) s = .next ((log 20 2).send { kind := .tlpAnswer, a := req.toNat, b := 1 }))
  ∧ (∀ s u (hdr : List Byte), feRuns s = true →
      let rid := ridOf s (userFn s u)
      exec (.poisonedCompletion ⟨u, hdr⟩) s =
        .next (failRead 0x0702 u (logViol (s.send { kind := .aer, a := rid, b := 12, bytes := 1 :: hdr }) 0x0B 0xFF 4 rid 12))
      ∧ exec (.errorCompletion u) s = .next (failRead 0x0702 u (logViol s 0x0B 0xFF 4 rid 0))
      ∧ (s.link.ctoOff = false → exec (.completionTimeout u) s =
        .next (failRead 0x0A01 u (logViol (s.send { kind := .aer, a := rid, b := 14, bytes := [1] }) 0x0B 0xFF 4 rid 14))))
  ∧ (∀ s (k : Fin 8) users (hdr : List Byte), s.link.dlUp = true → (ide s k).st = .secure →
      exec (.ideCheckFailed k ⟨users, hdr⟩) s =
        let t := logViol ((setIde k { ide s k with st := .insecure } s).send { kind := .aer, a := 0, b := 28, bytes := 2 :: hdr }) 0x0C 0xFF 4 k 0
        .next (if feRuns s then foldState users (failRead 0x0A03) t else t))
  ∧ (∀ s, s.link.dlUp = true → feRuns s = true → s.fe.queues.all (fun e => e.2.descs.isEmpty) = true → s.fe.launches = [] →
      s.link.waits = [] → s.mem.prgs = [] → s.link.held = [] → exec .aspmL1Entry s = .next (s.send { kind := .l1 }))

/-- Identity and management messages (R287, R288, R392, R419): a DOE request of at most 1,024 DW makes the mailbox Busy; a longer one sets DOE
Error, and one that finds the mailbox Busy is discarded; once SEC is ready each is served and answered: an SPDM request joins the transcript,
and in a session IDE keys move their stream; DOE Abort clears the mailbox; SMBus messages are answered. What a responder's answer says is
open. The model's choices here: log entry 9. -/
def Obligations.IdentityCommands : Prop :=
  (∀ s m, ∀ f ∈ (Instr.doeDiscovery, 0, DoeAct.none) :: spdmRequests.map (fun e => (e.1, e.2.1, DoeAct.spdm e.2.2.1 e.2.2.2)),
      (s.link.dlUp = true → s.link.doe.request = none → m.length ≤ 4096 →
        exec (f.1 m) s = .next { s with link := { s.link with doe := { s.link.doe with request := some ⟨f.2.1, m, f.2.2⟩, ready := false } } })
      ∧ (s.link.dlUp = true → s.link.doe.request = none → 4096 < m.length →
        exec (f.1 m) s = .next { s with link := { s.link with doe := { s.link.doe with error := true } } })
      ∧ (s.link.dlUp = false ∨ s.link.doe.request ≠ none → exec (f.1 m) s = .next s))
  ∧ (∀ s (k : Fin 8) kind m, s.link.dlUp = true → s.link.doe.request = none → m.length ≤ 4096 →
      exec (.ideKmMessage k ⟨kind, m⟩) s =
        .next { s with link := { s.link with doe := { s.link.doe with request := some ⟨0x200, m, .ide k kind⟩, ready := false } } })
  ∧ (∀ s, exec .doeAbort s = .next { s with link := { s.link with doe := {} } })
  ∧ (∀ s r, s.link.doe.request = some r → isReady s 2 = true →
      exec .doeResponseReady s =
        let t := doeAct r s
        let a := Config.protocolReply r.code r.bytes (responderState t)
        let u := ({ t with link := { t.link with doe := { t.link.doe with request := none, ready := true, response := a } } }).send
          { kind := .doe, bytes := a }
        .next (if s.link.doeIrq then raiseIrq u 0 0 else u))
  ∧ (∀ s, s.link.doe.request = none ∨ isReady s 2 = false → exec .doeResponseReady s = .next s)
  ∧ (∀ s m, ∀ e ∈ spdmRequests, doeAct ⟨e.2.1, m, .spdm e.2.2.1 e.2.2.2⟩ s = { s with sec := { s.sec with
      spdm := (BitVec.ofNat 8 e.2.1 :: m) :: (if e.2.2.1 then [] else s.sec.spdm), keys := e.2.2.2.getD s.sec.keys } })
  ∧ (∀ s (k : Fin 8) m,
      (∀ rid addrs, s.sec.keys = true → doeAct ⟨0x200, m, .ide k (.setKeys rid addrs)⟩ s =
        setIde k { st := .keyed, rid := rid.toNat, addrs := (addrs.take 4).map (fun p => (p.1.toNat, p.2.toNat)) } s)
      ∧ (s.sec.keys = true → (ide s k).st = .keyed → doeAct ⟨0x200, m, .ide k .go⟩ s =
        foldState (List.range 64) resumeFn (setIde k { ide s k with st := .secure } s))
      ∧ (s.sec.keys = true → doeAct ⟨0x200, m, .ide k .stop⟩ s = setIde k { ide s k with st := .insecure } s)
      ∧ ∀ kind, s.sec.keys = false → doeAct ⟨0x200, m, .ide k kind⟩ s = s)
  ∧ (∀ s m, latchesAlarms s = true →
      exec (.mctpControlMessage m) s = .next (s.send { kind := .smbus, bytes := Config.protocolReply 0x200 m 0 })
      ∧ exec (.pldmMonitoringRequest m) s = .next (s.send { kind := .smbus, a := 1, bytes := Config.protocolReply 0x201 m (sensorState s) }))

/-- Hardware faults of units (R33, R262, R397, R398, R427): each is recorded under its source and code, and the unit leaves service; a die's
fabric or PLL and the front end take the device to the safe state. Errors in cores and caches (R33, R96, R169, R398): a corrected one counts
and is recorded; an uncorrectable one in a launch's registers ends it with DATA_ERROR 0x0401, and one in a tile store that no launch has
writes the word with zero, evicts the residency entry that holds it and is its context's, or 0xFFFF's; a parity error in scratch ends the
launch with 0x0603, one in a clean line fills the line again, and a second one there, met by the same access, ends the launch with 0x0601.
The model's choices here: log entries 24, 26, 33, 78. -/
def Obligations.UnitAndCoreErrors : Prop :=
  (∀ s u, s.flt.safe = false → exec (.unitHardwareFault u) s = .next (match u with
    | .region r => regionFail r (faultEvent s 2 3 r 1 0xFFFF 0)
    | .clusterCheck cl => regionFail (cl / 8) (faultEvent s 2 2 cl 3 0xFFFF 0)
    | .dieFabric d => faultEvent s 3 6 d 1 0xFFFF 0
    | .diePll d => faultEvent s 3 6 d 2 0xFFFF 0
    | .frontEnd => faultEvent s 3 7 0 3 0xFFFF 0
    | .port b => failPort b (faultEvent s 2 9 b 2 0xFFFF 0)
    | .head h => failHead h (faultEvent s 2 0xA h 3 0xFFFF (head s h).frame)
    | .media e => failEngine e (faultEvent s 2 0xB e 1 0xFFFF 0)))
  ∧ (∀ s u, s.flt.safe = true → exec (.unitHardwareFault u) s = .next s)
  ∧ (∀ s (c : Fin 512) clearing ts, s.flt.safe = false →
      exec (.coreEccError c true ⟨clearing, ts⟩) s =
        let x := s.rgn (c / 32)
        .next (faultEvent (s.setRgn (c / 32) { x with coreCerr := satInc32 x.coreCerr }) 0 1 c 1 (rgnCtx s (c / 32)) 0))
  ∧ (∀ s (c : Fin 512) l x, s.flt.safe = false → coreLaunch s c = some (l, x) →
      exec (.coreEccError c false ⟨false, none⟩) s = .next (clusterError (c / 4) l
        (faultEvent (endLaunch l 0x10 0x0401 s) 1 1 c 2 x.ctx (x.tag * 2 ^ 32 + 0x10 * 65536 + 0x0401))))
  ∧ (∀ s (c : Fin 512) (a : Fin 524288) clearing, s.flt.safe = false → coreLaunch s c = none ∨ clearing = true →
      exec (.coreEccError c false ⟨clearing, some a⟩) s =
        let zero := s.setCore c { s.core c with ts := zeroRange (s.core c).ts (a / 8 * 8) 8 }
        .next (match entryAt s (c / 32) a with
          | some e => faultEvent (evictModels (· == e) zero) 1 1 c 2 e.ctx 0
          | none => faultEvent zero 1 1 c 2 0xFFFF 0))
  ∧ (∀ s (cl : Fin 128) (c : Fin 512) l x, s.flt.safe = false → coreLaunch s c = some (l, x) →
      exec (.cdcParityError cl c .scratch) s = .next (clusterError cl l
        (faultEvent (endLaunch l 0x10 0x0603 s) 1 2 cl 2 x.ctx (x.tag * 2 ^ 32 + 0x10 * 65536 + 0x0603))))
  ∧ (∀ s (cl : Fin 128) (c : Fin 512) w e lg y, s.flt.safe = false → mfind (s.cdc cl).lines (256 * w + e) = some y → y.dirty = false →
      (c.val, lg, y.line) ∉ (s.cdc cl).refetch → exec (.cdcParityError cl c (.cleanData w e lg)) s =
        let x := s.cdc cl
        let t := tickLine cl (s.setCdc cl { x with
          lines := mins x.lines (256 * w + e) { y with data := readLine cl s y.home }, refetch := x.refetch ++ [(c.val, lg, y.line)] })
        let g := t.rgn (cl / 8)
        .next (faultEvent (t.setRgn (cl / 8) { g with cdcCerr := satInc32 g.cdcCerr }) 0 2 cl 1 (rgnCtx s (cl / 8)) 0))
  ∧ (∀ s (cl : Fin 128) (c : Fin 512) w e lg y l x, s.flt.safe = false → mfind (s.cdc cl).lines (256 * w + e) = some y → y.dirty = false →
      (c.val, lg, y.line) ∈ (s.cdc cl).refetch → coreLaunch s c = some (l, x) → exec (.cdcParityError cl c (.cleanData w e lg)) s =
        let t := s.setCdc cl { s.cdc cl with lines := mdel (s.cdc cl).lines (256 * w + e) }
        .next (clusterError cl l
          (faultEvent (endLaunch l 0x10 0x0601 t) 1 2 cl 2 x.ctx (x.tag * 2 ^ 32 + 0x10 * 65536 + 0x0601))))

/-- Events of device memory (R33, R174 to R178, R180, R188, R408): a scrubbed frame is zero and FREE; errors count, are recorded, end the
user's work and mark the frame; a stack leaves service; mirrored items are rebuilt into free frames. The model's choices here: log entries
33, 94, 123. -/
def Obligations.MemoryEvents : Prop :=
  (∀ s (frame : Fin 4718592), s.flt.safe = false → frameAt s frame = .scrubbing → stackReady s (stackOf frame) = true →
      exec (.frameScrubbed frame) s = .next (settleStacks (countHub 65536
        (setFrame { s with devMem := zeroRange s.devMem (frame * 65536) 65536 } frame .free))))
  ∧ (∀ s (k : Fin 8), s.flt.safe = false →
      exec (.memCorrectedError k) s =
        .next (faultEvent (setStack s k { stackAt s k with cerr := satInc32 (stackAt s k).cerr }) 0 4 k 1 0xFFFF 0))
  ∧ (∀ s (frame : Fin 4718592) u, s.flt.safe = false → stackReady s (stackOf frame) = true →
      exec (.memUncorrectableError frame u) s =
        let k := stackOf frame
        let s1 := setStack s k { stackAt s k with uerr := satInc32 (stackAt s k).uerr }
        let s2 := { s1 with mem := { s1.mem with marked := if s1.mem.marked.contains frame then s1.mem.marked else frame :: s1.mem.marked } }
        let e := endMemUser u s2
        let s4 := if frameAt e.1 frame == .scrubbing || frameAt e.1 frame == .free then setFrame e.1 frame .retired else e.1
        .next (settleStacks (faultEvent s4 1 4 k 2 ((frameOwner s frame).getD 0xFFFF) e.2)))
  ∧ (∀ s (k : Fin 8), s.flt.safe = false → stackReady s k = true → exec (.stackFailure k) s = .next (failStack k s))
  ∧ (∀ s (die : Fin 2), s.flt.safe = false → s.mem.mirrorMissing.contains die.val = true →
      let free := mkeys s.mem.frames (fun f x => x == .free && !inReserved s f && stackOf f / 4 == die && stackReady s (stackOf f))
      mget s.mem.mirrorNeed 0 die ≤ free.length →
      ∃ t, exec (.mirrorRebuildDone die) s = .next t ∧ t.mem.mirrorMissing = s.mem.mirrorMissing.filter (· != die.val)
        ∧ t.mem.mirrorNeed = mdel s.mem.mirrorNeed die)
  ∧ (∀ s (die : Fin 2) entry,
      exec (.ltaError die entry true) s = .next (faultEvent s 3 5 die 2 0xFFFF 0)
      ∧ exec (.ltaError die entry false) s = .next (faultEvent s 0 5 die 1 0xFFFF 0))
  ∧ (∀ s (k : Fin 8) above, exec (.stackTemperature85c k above) s = .next (setStack s k { stackAt s k with hot := above }))

/-- Host translation (R190 to R192, R208): a translation enters the cache and releases what waits for it; a failed page request ends that
with HOST_FAULT; an invalidation drops its entries and is answered once no use is outstanding. The model's choices here: log entry 59. -/
def Obligations.HostTranslation : Prop :=
  (∀ s (f : Fin 64) (p : Option (BitVec 20)), tagBusy s f (p.map (·.toNat)) = false →
      exec (.atsInvalidate f p) s =
        let tag := p.map (·.toNat)
        let t := { s with mem := { s.mem with dtc := s.mem.dtc.filter (fun e => !sameTag e.fn e.pasid f tag) } }
        .next ((foldState (mkeys t.fe.ctxs (fun _ c => sameTag c.fn c.pasid f tag)) contextWalk t).send
          { kind := .invalidateCompletion, a := f, b := (tag.map (· + 1)).getD 0 }))
  ∧ (∀ s (f : Fin 64) (p : Option (BitVec 20)) page target w (n : Fin 19),
      s.link.waits.any (fun x => sameTag x.fn x.pasid f (p.map (·.toNat)) && x.page == page && x.fail == none) = true →
      prgOf s f (p.map (·.toNat)) page = none →
      exec (.atsTranslationCompletion f p page (.translated target w n)) s =
        let tag := p.map (·.toNat)
        let e : Dtc := {
          fn := f, pasid := tag, page := page / 2 ^ n.val * 2 ^ n.val, target := target / 2 ^ n.val * 2 ^ n.val, write := w, size := n }
        let keep := s.mem.dtc.filter (fun y => !(sameTag y.fn y.pasid f tag && overlaps y.page (2 ^ y.size) e.page (2 ^ n.val)))
        .next (retryRecords f (releaseWaits f tag page { s with mem := { s.mem with dtc := (e :: keep).take 8192 } })))
  ∧ (∀ s prg g, mfind s.mem.prgs prg = some g → g.dead = false → g.retried = false →
      exec (.pageRequestResponse prg .success) s = .next (if reqOpen s g.fn (4096 * g.page) then
        { s with mem := { s.mem with prgs := mins s.mem.prgs prg { g with retried := true } } }.send
          { kind := .atsRequest, a := g.fn, b := g.page, bytes := pasidBytes g.pasid }
        else dropPageWaits g.fn g.pasid g.page (dropPrg prg s))
      ∧ exec (.pageRequestResponse prg .invalid) s = .next (retryRecords g.fn (failWaits g.fn g.pasid g.page 0x0701 (dropPrg prg s)))
      ∧ exec (.pageRequestResponse prg .unsupported) s = .next (retryRecords g.fn (failWaits g.fn g.pasid g.page 0x0702 (dropPrg prg s))))
  ∧ (∀ s prg g, mfind s.mem.prgs prg = some g → g.dead = false → field (rd s 0x020014) 0 16 ≠ 0 →
      exec (.pageRequestTimeout prg) s = .next (retryRecords g.fn (failWaits g.fn g.pasid g.page 0x0703
        { s with mem := { s.mem with prgs := mins s.mem.prgs prg { g with dead := true } } })))
  ∧ (∀ s f, exec (.priEnableWrite f true) s = .next (s.setFunc f { s.func f with priEnable := true })
      ∧ ∃ t, exec (.priEnableWrite f false) s = .next t ∧ t.func f = { s.func f with priEnable := false }
        ∧ t.mem.stopped = s.mem.stopped.filter (· != f.val))

/-- Heads (R315, R317, R318, R331): a write of DISP_CTRL that sets ENABLE enables a head that is OFF, and is refused and logged on one that
has failed; one that clears ENABLE turns a head OFF at once; while a head is not OFF its BPC, DSC_EN and polarities stay, and a write that
would change them is logged; timing is written while a head is OFF, and a write at another time is logged; RETRAIN leaves LINK_FAILED;
training ends ACTIVE, fails after the third try; a status that is not OK trains again, a ninth time within 1 s fails; HPD low drops an
ACTIVE link to TRAINING; AUX requests are sent, answered and, after DEFER, tried up to 7 times more. The model's choices here: log entries
54, 65. -/
def Obligations.HeadCommands : Prop :=
  (∀ s (h : Fin 4) (v : W32), blockUp s (headBase h) = true → (head s h).st = .off → (head s h).failed = false →
      exec (.headEnable h v) s = .next (enableHead h (wr s (headBase h) (setField (setField (field v.toNat 0 14) 0 1 1) 1 1 0))))
  ∧ (∀ s (h : Fin 4) (v : W32), blockUp s (headBase h) = true → (head s h).failed = true →
      exec (.headEnable h v) s = .next (logViol s 2 0 0 (headBase h) (setField v.toNat 0 1 1)))
  ∧ (∀ s (h : Fin 4) (v : W32), blockUp s (headBase h) = true → (head s h).st ≠ .off → (head s h).failed = false →
      exec (.headEnable h v) s =
        let w := setField (setField (field v.toNat 0 14) 0 1 1) 1 1 0
        let kept := setField w 2 5 (field (dispCtrl s h) 2 5)
        let t := wr (if kept = w then s else logViol s 2 0 0 (headBase h) (setField v.toNat 0 1 1)) (headBase h) kept
        .next (if bitOf v.toNat 1 then retrainHead h t else t))
  ∧ (∀ s (h : Fin 4) (v : W32), blockUp s (headBase h) = true → (head s h).st ≠ .off →
      exec (.headDisable h v) s =
        let w := setField (setField (field v.toNat 0 14) 0 1 0) 1 1 0
        let kept := setField w 2 5 (field (dispCtrl s h) 2 5)
        .next (disableHead h (wr (if kept = w then s else logViol s 2 0 0 (headBase h) (setField v.toNat 0 1 0)) (headBase h) kept)))
  ∧ (∀ s (h : Fin 4) (v : W32), blockUp s (headBase h) = true → (head s h).st = .off →
      exec (.headDisable h v) s = .next (wr s (headBase h) (setField (setField (field v.toNat 0 14) 0 1 0) 1 1 0)))
  ∧ (∀ s (h : Fin 4) k v, k < 7 → blockUp s (headBase h + (4 + 4 * k)) = true →
      ((head s h).st = .off → exec (.timingWrite h (4 + 4 * k) v) s = .next (wr s (headBase h + (4 + 4 * k)) (timingMask (4 + 4 * k) v.toNat)))
      ∧ ((head s h).st ≠ .off → exec (.timingWrite h (4 + 4 * k) v) s = .next (logViol s 2 0 0 (headBase h + (4 + 4 * k)) v.toNat)))
  ∧ (∀ s (h : Fin 4), blockUp s (headBase h) = true → (head s h).st ≠ .off → (head s h).failed = false → bitOf (dispCtrl s h) 0 = true →
      exec (.retrain h) s =
        let t := wr s (headBase h) (setField (field (dispCtrl s h) 0 14) 1 1 0)
        .next (if (head s h).st = .linkFailed then setHead t h { head s h with st := .training, fails := 0, retrains := [] } else t))
  ∧ (∀ s (h : Fin 4), canTrain s h = true →
      exec (.linkTrainingComplete h true) s = .next (setHead s h { head s h with st := .active, fails := 0 })
      ∧ ((head s h).fails < 2 → exec (.linkTrainingComplete h false) s = .next (setHead s h { head s h with fails := (head s h).fails + 1 }))
      ∧ (2 ≤ (head s h).fails → exec (.linkTrainingComplete h false) s =
          .next (sinkEvent h 2 (setHead s h { head s h with st := .linkFailed, fails := 0 }))))
  ∧ (∀ s (h : Fin 4), timingRuns s h = true → (head s h).hpd = true → (head s h).st = .active →
      exec (.irqHpd h) s =
        let x := head s h
        let recent := (x.retrains.filter (fun t => decide (s.now < t + 1600000000))) ++ [s.now]
        .next (if 8 < recent.length then sinkEvent h 2 (setHead s h { x with st := .linkFailed, retrains := [] })
          else sinkEvent h 1 (setHead s h { x with st := .training, retrains := recent })))
  ∧ (∀ s (h : Fin 4), headUp s h = true → (head s h).hpd = true →
      exec (.hpdLow h) s = .next (hpdChange h { head s h with hpd := false, st := if (head s h).st == .active then .training else (head s h).st } s))
  ∧ (∀ s (h : Fin 4), headUp s h = true → (head s h).hpd = false → exec (.hpdRise h) s = .next (hpdChange h { head s h with hpd := true } s))
  ∧ (∀ s (h : Fin 4) (v : W32), blockUp s (headBase h + 0x080) = true →
      exec (.auxRequest h v) s =
        let t := wr s (headBase h + 0x080) (field v.toNat 0 28)
        .next (if bitOf v.toNat 31 = true ∧ (head s h).auxStatus ≠ 1 then auxSend h (setHead t h { head s h with auxStatus := 1, auxTries := 0 })
          else t))
  ∧ (∀ s (h : Fin 4) data, headUp s h = true → (head s h).auxStatus = 1 →
      exec (.auxComplete h .ack data) s = .next (setHead (putAuxData h 0 data s) h { head s h with auxStatus := 2 })
      ∧ exec (.auxComplete h .nak data) s = .next (sinkEvent h 3 (setHead s h { head s h with auxStatus := 3 }))
      ∧ exec (.auxComplete h .none data) s = .next (sinkEvent h 4 (setHead s h { head s h with auxStatus := 5 }))
      ∧ exec (.auxComplete h .defer data) s = .next (if (head s h).auxTries < 7
          then auxSend h (setHead s h { head s h with auxTries := (head s h).auxTries + 1 }) else setHead s h { head s h with auxStatus := 4 }))

/-- Frames (R316, R321, R326 to R330): a frame start advances the counter, fetches the layers and composes the frame; validation keeps the
oldest commit, or refuses it with the first check that fails; at a vertical blank the frame's writeback is on its way, what a lost context
left is disabled, and the oldest commit is applied and completes with RESULT F + 1 at that instant, or waits for its frame, or is counted as
a repeat whose first is a class C event; writeback lands row by row and signals the frame number; a signature is the CRC-32C of its rectangle
of the frame shown, and a compared one that differs sets its mismatch bit and may interrupt. The model's choices here: log entries 54, 64, 65. -/
def Obligations.FrameCommands : Prop :=
  (∀ s (h : Fin 4), timingRuns s h = true →
      exec (.frameStart h) s =
        let t := countFetch h (fetchLayers h (setHead s h { head s h with
          frame := ((head s h).frame + 1) % 2 ^ 64, startStamp := some s.now, line := 0, lineStamp := s.now }))
        .next (setHead t h { head t h with shown := composeFrame t h }))
  ∧ (∀ s (h : Fin 4) c, feRuns s = true → (head s h).failed = false → (waitingCommits s h).find? (fun c => !c.ok) = some c →
      let left := setHead s h { head s h with next := (waitingCommits s h).filter (· != c) }
      (∀ e, commitCheck s h c = some e → exec (.commitValidationDone h) s = .next (refuse c.q c.i 0x0E e left))
      ∧ (∀ va st e, commitCheck s h c = none → readCoefs s c (layersOn c) [] = .error (va, st, e) →
        exec (.commitValidationDone h) s = .next (refuseAt c.q c.i c.ctx va c.tag st e left))
      ∧ (∀ m, commitCheck s h c = none → readCoefs s c (layersOn c) [] = .ok m →
        exec (.commitValidationDone h) s = .next (setHead s h { head s h with
          next := (waitingCommits s h).map (fun y => if y = c then { c with ok := true, coefs := m } else y) })))
  ∧ (∀ s (h : Fin 4), timingRuns s h = true →
      let t := dropGone h (captureFrame h s)
      let x := { head t h with line := headVactive s h, lineStamp := s.now, next := waitingCommits t h }
      (waitingCommits t h = [] → exec (.vblankStart h) s = .next (setHead (setHead t h x) h { x with inRun := false }))
      ∧ ∀ c rest, waitingCommits t h = c :: rest → feRuns s = true →
        (bitOf (cField c 0 1) 2 = true → diff32 (x.frame + 1) (cField c 4 4) < 0 → exec (.vblankStart h) s = .next (setHead t h x))
        ∧ ∀ d, t.desc? c.q c.i = some d → bitOf (cField c 0 1) 2 = false ∨ 0 ≤ diff32 (x.frame + 1) (cField c 4 4) →
          (c.ok = true → d.phase = .released → d.stamp + 800 ≤ s.now →
            exec (.vblankStart h) s = .next (done c.q c.i ((x.frame + 1) % 2 ^ 64) (setHead (setHead t h x) h
              { x with active := some c, next := rest, dead := [], faulted := false, inRun := false })))
          ∧ (c.ok = false ∨ d.phase ≠ .released ∨ s.now < d.stamp + 800 →
            let u := setHead (setHead t h x) h { x with repeats := satInc32 x.repeats, inRun := true }
            exec (.vblankStart h) s = .next (if x.inRun then u else faultEvent u 0 0x0A h 1 c.ctx x.frame)))
  ∧ (∀ s (h : Fin 4) w c, (head s h).wb = some w → s.flt.safe = false → (head s h).failed = false → s.ctx? w.ctx = some c →
      recordPage s w.ctx w.fence = none →
      exec (.writebackDone h) s =
        let t := foldState w.rows.zipIdx (fun r a =>
          let k := walkVa a c false 0 (w.va + w.pitch * r.2) r.1.length true
          match k.stop with
          | none => countHub r.1.length (writePieces a k.pieces r.1)
          | some (.bad st d) => fillFault a w.ctx ⟨w.va + w.pitch * r.2, 0, st, d, 2, 255, w.tag, 0⟩
          | some _ => a) (setHead s h { head s h with wb := none })
        .next (applySignal t w.q w.ctx w.fence w.frame w.tag).1)
  ∧ (∀ s (h : Fin 4) (r : Fin 16) f, (head s h).shown = some f → timingRuns s h = true → s.flt.safe = false → r.val < sigCount f.commit →
      exec (.signatureLatch h r) s =
        let crc := crc32c ((List.range (sigField f.commit r 6 2)).flatMap (fun y => (List.range (sigField f.commit r 4 2)).flatMap
          (fun x => leBytes 4 (shownPixel (head s h) (sigField f.commit r 0 2 + x) (sigField f.commit r 2 2 + y)))))
        let bad := bitOf (sigField f.commit r 12 1) 0 && crc.toNat != sigField f.commit r 8 4
        let t := setHead s h { head s h with
          crc := mset (head s h).crc 0 r crc
          mismatch := if bad then setField (head s h).mismatch r 1 1 else (head s h).mismatch }
        .next (if bad && bitOf (dispCtrl s h) 7 then headIrq h t else t))

/-- Media descriptors (R332, R334 to R339): a flush gives the picture that waits; a picture that the codec table and the record allow goes to
the lowest slot that is neither held nor a reference, is counted, joins its stream and completes with its slot and the one output next, and
with DATA_ERROR where its bits break the codec's syntax; another picture, or one that finds no free slot, is refused; an encoded picture
within its level is written when it fits the output, and is otherwise refused; an idle engine then takes more work. What a codec makes of its
inputs, and the bytes of its state, are open. The model's choices here: log entries 15, 66, 107, 124. -/
def Obligations.MediaCommands : Prop :=
  (∀ s q i (x : DecodeReport) y c d e r, MediaServes s q i 0x400 decodeBad y c d e r → mediaRanges s y.ctx (decodeRanges r) = none →
      let old := decodeStream s y.ctx r
      let o := walkVa s c false (userDesc q i) (rField r 16 8) (2 ^ 18) true
      let keep := fun args (t : Stream) => setStream (writePieces s o.pieces (codecOut (2 :: args) (2 ^ 18))) t
      o.stop = none →
      (bitOf r 2 = true → exec (.mediaDecode q i x) s =
        let n := nextOut x old
        .next (takeAll (done q i (0xFF + 256 * n.1 + 2 ^ 32 * n.2.1) (keep (r :: old.history) n.2.2))))
      ∧ (∀ k ps rs, bitOf r 2 = false → pictureOk r x = true → freeSlot r (d.hold.getD (rField r 48 4)) (refSlots old x.refs) = some k →
        let refs := refSlots old x.refs
        let rows := fun j => slotRows r j x.width.toNat x.height.toNat
        let bits := walkVa s c false (userDesc q i) (rField r 8 8) (rField r 4 4) false
        bits.stop = none → rowWalks s c (userDesc q i) true (rows k) = .ok ps →
        rowWalks s c (userDesc q i) false ((nearestRef x refs).toList.flatMap rows) = .ok rs →
        exec (.mediaDecode q i x) s =
          let bs := readPieces s bits.pieces
          let args := decodeArgs s c r old refs bs
          let img := pictureBytes x (rField r 37 1) ((nearestRef x refs).map (fun _ => readPieces s rs)) args
          let n := nextOut x (decodedInto old k bs)
          let result := k + 256 * n.1 + 2 ^ 32 * n.2.1
          let t := countHub (bs.length + img.length) (countPicture e (writePieces (keep args n.2.2) ps img))
          .next (takeAll (if x.syntaxError then finishDesc t q i 0x10 0x0D01 result true else done q i result t))))
  ∧ (∀ s q i (x : DecodeReport) y c d e r, MediaServes s q i 0x400 decodeBad y c d e r → mediaRanges s y.ctx (decodeRanges r) = none →
      bitOf r 2 = false →
      (pictureOk r x = false → exec (.mediaDecode q i x) s = .next (takeAll (failed q i 2 0x0D02 s)))
      ∧ (pictureOk r x = true → freeSlot r (d.hold.getD (rField r 48 4)) (refSlots (decodeStream s y.ctx r) x.refs) = none →
        exec (.mediaDecode q i x) s = .next (takeAll (failed q i 1 0x0D03 s))))
  ∧ (∀ w (x : DecodeReport), pictureOk w x = true ↔ x.unsupported = false ∧ (x.depth = 8 ∨ x.depth = 10)
      ∧ (∃ row ∈ codecTable, row.codec = field w 0 2 ∧ x.profile ∈ row.profiles ∧ x.chroma ∈ row.chroma ∧ x.level ≤ row.decode)
      ∧ x.width.toNat ≤ rField w 40 2 ∧ x.height.toNat ≤ rField w 42 2 ∧ fitsFormat (rField w 37 1) x = true)
  ∧ (∀ s q i y c d e r ps, MediaServes s q i 0x401 encodeBad y c d e r → mediaRanges s y.ctx (encodeRanges r) = none →
      rowWalks s c (userDesc q i) false (sourceRows r) = .ok ps →
      let img := readPieces s ps
      let args := encodeArgs s y.ctx r img
      let old := encodeStream s y.ctx r
      let key := encodeKey s y.ctx r
      let bs := encodeBytes (field r 0 2) key args
      let o := walkVa s c false (userDesc q i) (rField r 48 8) bs.length true
      let v := walkVa s c false (userDesc q i) (rField r 40 8) (2 ^ 25) true
      (encodeSupported r = false → exec (.mediaEncode q i) s = .next (takeAll (failed q i 2 0x0D02 s)))
      ∧ (encodeSupported r = true → rField r 56 4 < bs.length → exec (.mediaEncode q i) s = .next (takeAll (failed q i 1 0x0D01 s)))
      ∧ (encodeSupported r = true → bs.length ≤ rField r 56 4 → o.stop = none → v.stop = none →
        exec (.mediaEncode q i) s =
          let t := setStream (writePieces s v.pieces (codecOut (2 :: args) (2 ^ 25)))
            { old with
              count := old.count + 1
              sinceKey := if key then 1 else old.sinceKey + 1
              history := old.history ++ [r, b2n key, bytesKey img] }
          .next (takeAll (done q i (bs.length + 2 ^ 32 * b2n key)
            (countHub (img.length + bs.length) (countPicture e (writePieces t o.pieces bs)))))))

/-- Caravan records (R294, R299, R310, R311): NODE_SET writes an entry DOWN with the record's fields, one that was UP leaving first, and is
refused where the CREDITS of its sub-port or the table have no room; NODE_CLEAR says BYE and removes one; NODE_QUERY answers the state with
the window, with WAIT once it differs from SEEN; EXPORT gives the next generation of a free identifier, and is refused for a range that is
not whole lines of one object or a full table; UNEXPORT withdraws; QP_CREATE takes the lowest free QPN, and QP_DESTROY flushes the QP and
removes it; a handle that names nothing, a record that is not valid and one that cannot be read are refused. The model's choices here: log
entries 19, 22, 67, 68. -/
def Obligations.CaravanRecords : Prop :=
  (∀ s q i x d r, CaravanServes s q i 1 x d r →
      (creditsOn s (field r 8 2) (field r 32 32) + field r 96 20 ≤ 262144 → node? s (field r 32 32) ≠ none ∨ s.net.nodes.length < 65536 →
        exec (.nodeSet q i) s =
          let t := match node? s (field r 32 32) with
            | some o => if o.st = .up then leaveNode (field r 32 32) s else s
            | none => s
          .next (done q i 0 (setNode t (field r 32 32) {
            st := .down, sub := field r 8 2, ipv6 := bitOf r 10, hops := field r 16 8, pcp := field r 24 3, switchNs := field r 64 32
            credits := field r 96 20, ip := leBytes 16 (field r 128 128), mac := leBytes 6 (field r 256 48), vlan := field r 304 12 })))
      ∧ (262144 < creditsOn s (field r 8 2) (field r 32 32) + field r 96 20
          ∨ (node? s (field r 32 32) = none ∧ 65536 ≤ s.net.nodes.length) →
        exec (.nodeSet q i) s = .next (failed q i 1 0x0B01 s)))
  ∧ (∀ s q i x d r n, CaravanServes s q i 2 x d r → node? s (field r 32 32) = some n →
      exec (.nodeClear q i) s =
        let s0 := if n.st = .lost then s else sendBye (field r 32 32) s
        let s1 := if n.st = .up then leaveNode (field r 32 32) s0 else s0
        .next (done q i 0 { s1 with net := { s1.net with nodes := mdel s1.net.nodes (field r 32 32) } }))
  ∧ (∀ s q i x d r n, CaravanServes s q i 3 x d r → node? s (field r 32 32) = some n →
      (bitOf r 8 = false ∨ nodeCode n ≠ field r 16 2 → exec (.nodeQuery q i) s = .next (done q i (nodeCode n + 2 ^ 32 * n.window) s))
      ∧ (bitOf r 8 = true → nodeCode n = field r 16 2 → exec (.nodeQuery q i) s = .next s))
  ∧ (∀ s q i x d r, CaravanServes s q i 4 x d r →
      (∀ k, field r 64 64 % 64 = 0 → field r 128 39 % 64 = 0 → inObject s x.ctx (field r 64 64) (field r 128 39) = true →
        freeExport s 65535 1 = some k →
        exec (.exportRange q i) s =
          let gen := ((exportEnt s k).gen + 1) % 65536
          .next (done q i (k + 65536 * gen) (setExport s k {
            live := true, gen := gen, ctx := x.ctx, va := field r 64 64, len := field r 128 39, writable := bitOf r 8
            readable := bitOf r 9, anyNode := bitOf r 10, roce := bitOf r 11, allow := field r 32 32, counters := [] })))
      ∧ (field r 64 64 % 64 ≠ 0 ∨ field r 128 39 % 64 ≠ 0 ∨ inObject s x.ctx (field r 64 64) (field r 128 39) = false →
        exec (.exportRange q i) s = .next (failed q i 1 0x0B03 s))
      ∧ (field r 64 64 % 64 = 0 → field r 128 39 % 64 = 0 → inObject s x.ctx (field r 64 64) (field r 128 39) = true →
        freeExport s 65535 1 = none → exec (.exportRange q i) s = .next (failed q i 1 0x0B01 s)))
  ∧ (∀ s q i x d r, CaravanServes s q i 5 x d r → (exportEnt s (field r 32 16)).live = true →
      (exportEnt s (field r 32 16)).gen = field r 48 16 → (exportEnt s (field r 32 16)).ctx = x.ctx →
      exec (.unexportRange q i) s = .next (done q i 0 (setExport s (field r 32 16) { gen := (exportEnt s (field r 32 16)).gen })))
  ∧ (∀ s q i x d r, CaravanServes s q i 6 x d r →
      (∀ n, s.net.qps.length < 4096 → mfresh s.net.qps 4096 0x100 = some n →
        exec (.qpCreate q i) s = .next (done q i n (setQp s n { ctx := x.ctx, raw := leBytes 64 r })))
      ∧ (4096 ≤ s.net.qps.length → exec (.qpCreate q i) s = .next (failed q i 1 0x0B01 s)))
  ∧ (∀ s q i x d r y, CaravanServes s q i 7 x d r → qp? s (field r 32 32) = some y → y.ctx = x.ctx →
      exec (.qpDestroy q i) s =
        let t := failQp (field r 32 32) s
        .next (done q i 0 { t with net := { t.net with qps := mdel t.net.qps (field r 32 32) } }))
  ∧ (∀ s q i x d r, CaravanServes s q i 2 x d r → node? s (field r 32 32) = none → exec (.nodeClear q i) s = .next (failed q i 1 0x0802 s))
  ∧ (∀ s q i x d r, CaravanServes s q i 3 x d r → node? s (field r 32 32) = none → exec (.nodeQuery q i) s = .next (failed q i 1 0x0802 s))
  ∧ (∀ s q i x d r, CaravanServes s q i 5 x d r → (exportEnt s (field r 32 16)).live = false ∨
      (exportEnt s (field r 32 16)).gen ≠ field r 48 16 ∨ (exportEnt s (field r 32 16)).ctx ≠ x.ctx →
      exec (.unexportRange q i) s = .next (failed q i 1 0x0802 s))
  ∧ (∀ s q i x d r, CaravanServes s q i 7 x d r → ((qp? s (field r 32 32)).any (fun y => y.ctx == x.ctx)) = false →
      exec (.qpDestroy q i) s = .next (failed q i 1 0x0802 s))
  ∧ (∀ s q i x d r, Serves s q i 0x500 x d → netRecord s x q i d.cur = .ok r → caravanOk x (dField d.cur 48 4) r = false →
      ∀ f ∈ [Instr.nodeSet, .nodeClear, .nodeQuery, .exportRange, .unexportRange, .qpCreate, .qpDestroy],
        exec (f q i) s = .next (failed q i 2 0x0B01 s))
  ∧ (∀ s q i x d e, Serves s q i 0x500 x d → netRecord s x q i d.cur = .error e →
      ∀ f ∈ [Instr.nodeSet, .nodeClear, .nodeQuery, .exportRange, .unexportRange, .qpCreate, .qpDestroy],
        exec (f q i) s = .next (stopDesc q i x d.cur (dField d.cur 40 8) 2 0 e 0 s))

/-- Qanat packets (R293, R296 to R301, R306, R307, R312): one in order is served and acknowledged or refused by its export, one beyond the
window, behind or ahead of its sequence is answered without; acknowledgements, responses and refusals move this module's own jobs; HELLO
keeps a node heard, restarts it with INIT, and is logged from a foreign source; BYE loses it; a packet for another node enters the transit
buffer of its sub-port with one hop less and leaves it when its own sub-port can send, or is discarded where the 4 MiB are full. The model's
choices here: log entries 67, 72, 85, 96, 119. -/
def Obligations.QanatPackets : Prop :=
  (∀ s (p : Fin 4) k n, FromUpNode s p k 0 n → pkLines k ≤ n.credits → pkPsn k = n.rxPsn →
      exec (.qanatData p k) s = .next (applyPacket p k (setNode s (pkSrc k) { n with heard := s.now })))
  ∧ (∀ s (p : Fin 4) k n, FromUpNode s p k 1 n → pkLines k ≤ n.credits → pkPsn k = n.rxPsn →
      exec (.qanatReadReq p k) s = .next (applyPacket p k (setNode s (pkSrc k) { n with heard := s.now })))
  ∧ (∀ s (p : Fin 4) k n, FromUpNode s p k 2 n →
      exec (.qanatReadResp p k) s = .next (readBack (pkSrc k) k (setNode s (pkSrc k) { n with heard := s.now })))
  ∧ (∀ s (p : Fin 4) k n, FromUpNode s p k 3 n →
      exec (.qanatAck p k) s = .next (ackReceived (pkSrc k) (pkPsn k) (setNode s (pkSrc k) { n with heard := s.now })))
  ∧ (∀ s (p : Fin 4) k n, FromUpNode s p k 4 n → pkCode k = 2 →
      exec (.qanatNak p k) s = .next (retransmit (pkSrc k) (acked (pkSrc k) (pkPsn k) (setNode s (pkSrc k) { n with heard := s.now }))))
  ∧ (∀ s (p : Fin 4) k n, FromUpNode s p k 4 n → pkCode k = 3 →
      exec (.qanatNak p k) s = .next (refusedBy (pkSrc k) (pkPsn k) 0x0B01 (setNode s (pkSrc k) { n with heard := s.now })))
  ∧ (∀ s (p : Fin 4) k n, FromUpNode s p k 5 n → fromEntry n k = true → bitOf (pkFlags k) 2 = false →
      exec (.qanatHello p k) s = .next (pumpAll (pkSrc k) (tryUp (pkSrc k)
        (setNode s (pkSrc k) { n with window := pkOff k, heard := s.now, helloGot := true }))))
  ∧ (∀ s (p : Fin 4) k n, FromUpNode s p k 6 n →
      exec (.qanatBye p k) s = .next (loseNode (pkSrc k) (setNode s (pkSrc k) { n with heard := s.now })))
  ∧ (∀ s (p : Fin 4) k n, canReceive s p = true → saOk s p = true → pkOk k = true → pkSrc k ≠ myNode s → pkDst k ≠ myNode s → subSwitched s p = false →
      node? s (pkDst k) = some n → 1 < pkHops k →
      exec (.qanatTransit p k) s =
        let e : Nat × OutMsg := (n.sub, {
          kind := .qanat, a := pkDst k, b := n.sub, bytes := leBytes 32 (k.hdr.toNat - 65536) ++ k.payload })
        let held := ((sub s p).transit.map (fun y => y.2.bytes.length)).sum
        .next (if 4194304 < held + e.2.bytes.length then s
          else drainTransit p (setSub s p { sub s p with transit := (sub s p).transit ++ [e] })))
  ∧ (∀ s (p : Fin 4) k n, ∀ f ∈ [(Instr.qanatData, 0), (Instr.qanatReadReq, 1)], FromUpNode s p k f.2 n →
      let t := setNode s (pkSrc k) { n with heard := s.now }
      (n.credits < pkLines k → exec (f.1 p k) s = .next (nakNode (pkSrc k) 1 (countDrop p (frameViol p (pkSrc k) 1 t))))
      ∧ (pkLines k ≤ n.credits → diff32 (pkPsn k) n.rxPsn < 0 → exec (f.1 p k) s = .next (ackNode (pkSrc k) t))
      ∧ (pkLines k ≤ n.credits → 0 < diff32 (pkPsn k) n.rxPsn →
        (∀ at_, n.nakAt = some at_ → s.now < at_ + netRto s → exec (f.1 p k) s = .next (countDrop p (frameViol p (pkSrc k) 0 t)))
        ∧ (n.nakAt = none → exec (f.1 p k) s =
          .next (nakNode (pkSrc k) 2 (setNode (countDrop p (frameViol p (pkSrc k) 2 t)) (pkSrc k)
            { n with heard := s.now, nakAt := some s.now })))))
  ∧ (∀ s (p : Fin 4) k n, FromUpNode s p k 4 n → pkCode k = 1 →
      exec (.qanatNak p k) s = .next (retransmit (pkSrc k)
        (logViol (acked (pkSrc k) (pkPsn k) (setNode s (pkSrc k) { n with heard := s.now })) 0x0E 0xFF 5 (pkSrc k) p)))
  ∧ (∀ s (p : Fin 4) k n, FromUpNode s p k 4 n → pkCode k = 4 →
      exec (.qanatNak p k) s = .next (refusedBy (pkSrc k) (pkPsn k) 0x0B02 (setNode s (pkSrc k) { n with heard := s.now })))
  ∧ (∀ s (p : Fin 4) k n, FromUpNode s p k 4 n → pkCode k ∉ [1, 2, 3, 4] →
      exec (.qanatNak p k) s = .next (dropFrame p k (setNode s (pkSrc k) { n with heard := s.now })))
  ∧ (∀ s (p : Fin 4) k n, FromUpNode s p k 5 n → fromEntry n k = true → bitOf (pkFlags k) 2 = true →
      exec (.qanatHello p k) s = .next (loseNode (pkSrc k) (setNode s (pkSrc k) { n with window := pkOff k, heard := s.now, helloGot := true })))
  ∧ (∀ s (p : Fin 4) k n, FromUpNode s p k 5 n → fromEntry n k = false → exec (.qanatHello p k) s = .next (frameViol p (pkSrc k) 0 s))

/-- RoCEv2 (R300, R309 to R311): a send, write or read joins its QP's posts and leaves; a receive waits; the oldest post completes with its
response; a timeout sends the posts again until its count runs out; an inbound message is served. The model's choices here: log entries 68,
108. -/
def Obligations.RoceCommands : Prop :=
  (∀ s q i x d r y op, op < 3 → PostServes s q i op x d r y →
      (op = 2 → (y.sends.filter (fun o => o.op == 2)).length < 16) →
      let p : Post := ⟨q, i, op, field r 64 32, field r 128 64, field r 192 64, field r 96 32,
        (localBytes s x.ctx (userDesc q i) (field r 128 64) (field r 64 32) (op == 2 || op == 3)).pieces⟩
      let t := sendPost (field r 0 32) p (setQp s (field r 0 32) { y with sends := y.sends ++ [p] })
      (op = 0 → exec (.roceSend q i) s = .next t) ∧ (op = 1 → exec (.roceWrite q i) s = .next t) ∧ (op = 2 → exec (.roceRead q i) s = .next t))
  ∧ (∀ s q i x d r y, PostServes s q i 3 x d r y →
      exec (.roceRecv q i) s = .next (setQp s (field r 0 32) { y with
        recvs := y.recvs ++ [⟨q, i, 3, field r 64 32, field r 128 64, field r 192 64, field r 96 32,
          (localBytes s x.ctx (userDesc q i) (field r 128 64) (field r 64 32) true).pieces⟩] }))
  ∧ (∀ s n y p ps, qp? s n = some y → y.sends = p :: ps → y.error = false → canReceive s (qpSub y) = true → saOk s (qpSub y) = true →
      (p.op ≠ 2 → exec (.roceResponseReceived n .ack) s = .next (postDone n y p s))
      ∧ exec (.roceResponseReceived n .nak) s = .next (failQp n s)
      ∧ exec (.roceResponseReceived n .rnr) s =
          .next (if qpRnr y ≤ y.rnrs then failQp n s else setQp s n { y with rnrs := y.rnrs + 1 })
      ∧ (∀ bs, p.op = 2 → bs.length = p.len → piecesRun s p.mem = true →
        exec (.roceResponseReceived n (.data bs)) s = .next (countHub p.len (postDone n y p (hubWrite s p.mem bs)))))
  ∧ (∀ s n y, qp? s n = some y → y.error = false → y.sends ≠ [] → s.flt.safe = false →
      exec (.roceRetryTimeout n true) s = .next (foldState y.sends (sendPost n) s)
      ∧ exec (.roceRetryTimeout n false) s = .next (if qpRetry y ≤ y.retries then failQp n s
        else foldState y.sends (sendPost n) (setQp s n { y with retries := y.retries + 1 })))
  ∧ (∀ s (p : Fin 4) x y, canReceive s p = true → saOk s p = true → x.icrcOk = true → x.ce = false → qp? s x.qpn = some y → y.error = false →
      exec (.roceRequestReceived p x) s = .next (roceInbound p x y s))
  ∧ (∀ s (p : Fin 4), saOk s p = true → exec (.cnpReceived p) s = .next s)

/-- Sub-ports, keys and timers (R291, R297, R298, R308, R309, R312, R313): ENABLE, with BREAKOUT fixed while a sub-port of the port is
enabled, its clear with BYE to every node UP there, a key's install for sending and for receiving, with what waits to leave sent, links up
and down, frames that are not valid, pauses, and the three timers. The model's choices here: log entries 67, 68, 85, 108. -/
def Obligations.PortCommands : Prop :=
  (∀ s (p : Fin 4) (v : W32), blockUp s (subBase p) = true → p.val % 2 = 1 →
      exec (.subportEnable p v) s =
        let t := wr s (subBase p) (setField (field (setField v.toNat 0 1 1) 0 9) 2 1 0)
        .next (drainAll (if bitOf v.toNat 5 then t else unpause p t)))
  ∧ (∀ s (p : Fin 4) (v : W32), blockUp s (subBase p) = true → p.val % 2 = 0 → subEnabled s p = false → subEnabled s (p + 1) = false →
      exec (.subportEnable p v) s =
        let t := wr s (subBase p) (field (setField v.toNat 0 1 1) 0 9)
        .next (drainAll (if bitOf v.toNat 5 then t else unpause p t)))
  ∧ (∀ s (p : Fin 4) (v : W32), blockUp s (subBase p) = true → subEnabled s p = true → exec (.subportDisable p v) s =
        let w := setField (field (setField v.toNat 0 1 0) 0 9) 2 1 (if p.val % 2 = 1 then 0 else field (netCtrl s p) 2 1)
        let t := foldState (keptOn s p) sendBye s
        .next (wr (setSub t p { sub t p with linkUp := false, paused := false, waiting := [] }) (subBase p) w))
  ∧ (∀ s (p : Fin 4) (v : W32), blockUp s (subBase p + 0x50) = true → bitOf v.toNat 4 = true → bitOf v.toNat 2 = true →
      ∃ t, exec (.sakInstall p v) s = .next (drainAll t) ∧ (sub t p).txAn = some (field v.toNat 0 2) ∧ (sub t p).pn = 0 ∧ (sub t p).pnLow = false
        ∧ mfind (sub t p).keys (field v.toNat 0 2) = some ((keyRegs p).map (fun o => BitVec.ofNat 32 (rd s o)))
        ∧ ∀ o ∈ keyRegs p, rd t o = 0)
  ∧ (∀ s (p : Fin 4), subEnabled s p = true → subExists s p = true → isReady s (36 + p / 2) = true → bitOf s.clk.locks (9 + p / 2) = true →
      s.clk.xtalOk = true → s.oas.latched = false → bar0Up s = true → s.flt.safe = false →
      exec (.subportLinkUp p) s = .next (drainAll (setSub s p { sub s p with linkUp := true, bad := [] })))
  ∧ (∀ s (p : Fin 4), exec (.subportLinkDown p) s = .next (setSub s p { sub s p with linkUp := false, paused := false, waiting := [] }))
  ∧ (∀ s (p : Fin 4), canReceive s p = true →
      exec (.invalidFrameReceived p .fec) s = .next (badFrame p s)
      ∧ exec (.invalidFrameReceived p .macsec) s = .next (if macsecOn s p then badFrame p s else s)
      ∧ ∀ src, exec (.invalidFrameReceived p (.header src)) s =
        .next (if saOk s p then logViol (countDrop p s) 0x0D 0xFF 0 src.toNat (p * 2 ^ 24) else badFrame p s))
  ∧ (∀ s (p : Fin 4) (pri : Fin 8), canReceive s p = true → bitOf (netCtrl s p) 5 = true → field (netCtrl s p) 6 3 = pri.val →
      exec (.pfcFrameReceived p ⟨pri, true⟩) s = .next (setSub s p { sub s p with paused := true })
      ∧ exec (.pfcFrameReceived p ⟨pri, false⟩) s = .next (drainAll (foldState (sub s p).waiting (fun e a => netSendN a p e.1 e.2)
          (setSub s p { sub s p with paused := false, waiting := [] }))))
  ∧ (∀ s (p : Fin 4) (pri : Fin 8) pause, bitOf (netCtrl s p) 5 = false ∨ field (netCtrl s p) 6 3 ≠ pri.val →
      exec (.pfcFrameReceived p ⟨pri, pause⟩) s = .next s)
  ∧ (∀ s, s.flt.safe = false → exec .helloTimer s = .next (foldState (s.net.nodes.map (·.1)) sendHello s))
  ∧ (∀ s (id : W32) n, node? s id.toNat = some n → n.st = .up → s.flt.safe = false →
      exec (.peerTimeout id) s = .next (loseNode id.toNat s)
      ∧ (n.unacked ≠ [] → netRetries s ≤ n.tries → exec (.retransmissionTimeout id) s = .next (loseNode id.toNat s))
      ∧ (n.unacked ≠ [] → n.tries < netRetries s → exec (.retransmissionTimeout id) s =
          .next (foldState n.unacked (fun p a => sendPkt a id.toNat p) (setNode s id.toNat { n with tries := n.tries + 1 }))))
  ∧ (∀ s (p : Fin 4) (v : W32), blockUp s (subBase p) = true → p.val % 2 = 0 → subEnabled s p = true ∨ subEnabled s (p + 1) = true →
      exec (.subportEnable p v) s =
        let t := wr s (subBase p) (setField (field (setField v.toNat 0 1 1) 0 9) 2 1 (field (netCtrl s p) 2 1))
        .next (drainAll (if bitOf v.toNat 5 then t else unpause p t)))
  ∧ (∀ s (p : Fin 4) (v : W32), blockUp s (subBase p) = true → subEnabled s p = false → exec (.subportDisable p v) s =
        let free := decide (p.val % 2 = 0) && !subEnabled s (p + 1)
        let w := setField (field (setField v.toNat 0 1 0) 0 9) 2 1
          (if p.val % 2 = 1 then 0 else if free then field v.toNat 2 1 else field (netCtrl s p) 2 1)
        let t := wr s (subBase p) w
        .next (if bitOf v.toNat 5 then t else unpause p t))
  ∧ (∀ s (p : Fin 4) (v : W32), blockUp s (subBase p + 0x50) = true → bitOf v.toNat 4 = false →
      exec (.sakInstall p v) s = .next (drainAll (wr s (subBase p + 0x50) (field v.toNat 0 4))))
  ∧ (∀ s (p : Fin 4) (v : W32), blockUp s (subBase p + 0x50) = true → bitOf v.toNat 4 = true → bitOf v.toNat 3 = true →
      ∃ t, exec (.sakInstall p v) s = .next (drainAll t) ∧ field v.toNat 0 2 ∈ (sub t p).rxAn
        ∧ (∀ a ∈ (sub s p).rxAn, a ∈ (sub t p).rxAn)
        ∧ (bitOf v.toNat 2 = false → (sub t p).txAn = (sub s p).txAn ∧ (sub t p).pn = (sub s p).pn ∧ (sub t p).pnLow = (sub s p).pnLow)
        ∧ mfind (sub t p).keys (16 + field v.toNat 0 2) = some ((keyRegs p).map (fun o => BitVec.ofNat 32 (rd s o)))
        ∧ ∀ o ∈ keyRegs p, rd t o = 0)

/-- CTRL rows (R97, R102, R103, R118, R425): NOP advances; a taken branch goes to its target, a backward one within its bound, and one above
it ends the launch; a backward branch not taken forgets its count; a barrier, a slip and an end stop their lane group, an end closes its item,
and the last arrival at a barrier lets all of them go on once the queues of the core are empty. SCALAR rows (R96, R98, R425): the
destination takes its 64-bit function of the two sources, and nothing else changes but the counter. The model's choices here: log entries
16, 52, 87. -/
def Obligations.ControlAndScalarRows : Prop :=
  (∀ s (c : Fin 512) (g : Fin 32) w, Issues s c g 0 0 w → exec (.ctrlNop c g w) s = .next (setLg (coreFlags s c 0) c g (stepPc (getLg s c g))))
  ∧ (∀ s (c : Fin 512) (g : Fin 32) w, Issues s c g 0 1 w → brTaken (getLg s c g) w = true → (getLg s c g).pc < field (wImm w) 0 32 →
      exec (.ctrlBr c g w) s = .next (setLg s c g { getLg s c g with pc := field (wImm w) 0 32 }))
  ∧ (∀ s (c : Fin 512) (g : Fin 32) w, Issues s c g 0 1 w → brTaken (getLg s c g) w = true → field (wImm w) 0 32 ≤ (getLg s c g).pc →
      mget (getLg s c g).loops 0 (getLg s c g).pc < field (wImm w) 32 32 →
      exec (.ctrlBr c g w) s =
        let x := getLg s c g
        .next (setLg s c g { x with loops := mset x.loops 0 x.pc (mget x.loops 0 x.pc + 1), pc := field (wImm w) 0 32 }))
  ∧ (∀ s (c : Fin 512) (g : Fin 32) w, Issues s c g 0 1 w → brTaken (getLg s c g) w = true → field (wImm w) 0 32 ≤ (getLg s c g).pc →
      field (wImm w) 32 32 ≤ mget (getLg s c g).loops 0 (getLg s c g).pc → exec (.ctrlBr c g w) s = .next (coreAbort s c 5 0x0404))
  ∧ (∀ s (c : Fin 512) (g : Fin 32) w, Issues s c g 0 1 w → brTaken (getLg s c g) w = false →
      exec (.ctrlBr c g w) s =
        let x := getLg s c g
        let loops := if field (wImm w) 0 32 ≤ x.pc then mdel x.loops x.pc else x.loops
        .next (setLg s c g { x with loops := loops, pc := x.pc + 1 }))
  ∧ (∀ s (c : Fin 512) (g : Fin 32) w, Issues s c g 0 2 w → unpPending s c g = false →
      exec (.ctrlBar c g w) s =
        let t := setLg s c g { stepPc (getLg s c g) with st := .atBar }
        .next (t.setCore c (barRelease (t.core c))))
  ∧ (∀ s (c : Fin 512) (g : Fin 32) w, Issues s c g 0 3 w →
      exec (.ctrlSlip c g w) s = .next (setLg s c g { getLg s c g with st := .atSlip (field (wImm w) 0 32) (field (wImm w) 32 32) }))
  ∧ (∀ s (c : Fin 512) (g : Fin 32) w, Issues s c g 0 4 w →
      exec (.ctrlEnd c g w) s =
        let x := getLg s c g
        let s1 := closeVertex s c x
        let t := setLg (s1.setCore c (closeItem (s1.core c) x)) c g { x with st := .ended, item := none }
        .next (t.setCore c (barRelease (t.core c))))
  ∧ (∀ s (c : Fin 512) (g : Fin 32) w, ∀ e ∈ scalarRows, Issues s c g 1 e.2.1 w →
    exec (e.1 c g w) s =
      let x := getLg s c g
      let a := BitVec.ofNat 64 (ssrc x w (wA w))
      let b := BitVec.ofNat 64 (ssrc x w (wB w))
      .next (setLg (coreFlags s c 0) c g { x with pc := x.pc + 1, s := mset x.s 0 (wDst w - 0x40) (e.2.2 w a b) }))

/-- INT32, packed INT8 and movement rows of VALU (R89, R98, R103, R425): in every active lane the destination takes the row's function of
its sources; inactive lanes, other registers and the flags stay. Compares (R89, R96, R425): each active lane's bit of the predicate takes
the condition; p7 is written by nothing. The model's choices here: log entry 16. -/
def Obligations.IntegerAndCompareRows : Prop :=
  (∀ s (c : Fin 512) (g : Fin 32) w, ∀ e ∈ intRows, Issues s c g 2 e.2.1 w →
      let x := getLg s c g
      ∃ y, exec (e.1 c g w) s = .next (setLg (coreFlags s c 0) c g y) ∧
        WroteLanes x y w (wDst w) (fun lane => e.2.2 (src32 x w (wA w) lane) (src32 x w (wB w) lane) (src32 x w (wC w) lane)))
  ∧ (∀ s (c : Fin 512) (g : Fin 32) w, ∀ e ∈ byteRows, Issues s c g 2 e.2.1 w →
      let x := getLg s c g
      ∃ y f, exec (e.1 c g w) s = .next (setLg (coreFlags s c 0) c g y) ∧ WroteLanes x y w (wDst w) f ∧ ∀ lane k, k < 4 →
        (f lane).extractLsb' (8 * k) 8 =
          e.2.2 ((src32 x w (wA w) lane).extractLsb' (8 * k) 8) ((src32 x w (wB w) lane).extractLsb' (8 * k) 8))
  ∧ (∀ s (c : Fin 512) (g : Fin 32) w, Issues s c g 2 0x41 w →
      let x := getLg s c g
      ∃ y, exec (.valuSel c g w) s = .next (setLg (coreFlags s c 0) c g y) ∧ WroteLanes x y w (wDst w)
        (fun lane => if (lgP x (wC w - 0x50)).getLsbD lane then src32 x w (wA w) lane else src32 x w (wB w) lane))
  ∧ (∀ s (c : Fin 512) (g : Fin 32) w, Issues s c g 2 0x42 w →
      let x := getLg s c g
      ∃ y, exec (.valuShfl c g w) s = .next (setLg (coreFlags s c 0) c g y) ∧ WroteLanes x y w (wDst w)
        (fun lane => src32 x w (wA w) (vsrc x w (wB w) lane % 32)))
  ∧ (∀ s (c : Fin 512) (g : Fin 32) w, Issues s c g 2 0x43 w →
      let x := getLg s c g
      ∃ y, exec (.valuBcast c g w) s = .next (setLg (coreFlags s c 0) c g y) ∧ WroteLanes x y w (wDst w)
        (fun _ => src32 x w (wA w) (wImm w % 32)))
  ∧ (∀ s (c : Fin 512) (g : Fin 32) w, ∀ e ∈ predRows, Issues s c g 2 e.2.1 w →
    let x := getLg s c g
    let r := fun lane => e.2.2 w (vsrc x w (wA w) lane) (vsrc x w (wB w) lane)
    ∃ y, exec (e.1 c g w) s = .next (setLg (coreFlags s c (laneFlags x w (fun lane => (r lane).2))) c g y) ∧
      WrotePred x y w (wDst w - 0x50) (fun lane => (r lane).1))

/-- Floating rows of VALU and the vector functions (R71, R75, R88, R89, R104, R425): in every active lane the destination takes the rounded
result, and the flags of the active lanes join the launch's flags word. Conversions (R83 to R87, R425): CVT converts each active lane; CVTMX
takes the 32 lanes as one block, its codes in the destination and its scale in the register after it. The model's choices here: log entries
13, 16, 17, 51, 86. -/
def Obligations.FloatAndConversionRows : Prop :=
  (∀ s (c : Fin 512) (g : Fin 32) w, ∀ e ∈ floatRows, Issues s c g e.2.1 e.2.2.1 w →
    let x := getLg s c g
    let r := fun lane => e.2.2.2 (vsrc x w (wA w) lane) (vsrc x w (wB w) lane) (vsrc x w (wC w) lane)
    ∃ y, exec (e.1 c g w) s = .next (setLg (coreFlags s c (laneFlags x w (fun lane => (r lane).2))) c g y) ∧
      WroteLanes x y w (wDst w) (fun lane => BitVec.ofNat 32 (r lane).1))
  ∧ (∀ s (c : Fin 512) (g : Fin 32) w, Issues s c g 4 0 w →
      let x := getLg s c g
      let r := fun lane =>
        let i := cvtIn (wMod w % 32) (vsrc x w (wA w) lane) (vsrc x w (wB w) lane)
        let o := encodeVal (wFmt w) (bitOf (wMod w) 5) .rne i.1
        (o.1, i.2 ||| seenFlags [i.1] ||| o.2)
      ∃ y, exec (.vcvtCvt c g w) s = .next (setLg (coreFlags s c (laneFlags x w (fun lane => (r lane).2))) c g y) ∧
        WroteLanes x y w (wDst w) (fun lane => BitVec.ofNat 32 (r lane).1))
  ∧ (∀ s (c : Fin 512) (g : Fin 32) w, Issues s c g 4 1 w →
      let x := getLg s c g
      let r := encodeMx (wFmt w) (cvtmxVals x w)
      ∃ y, exec (.vcvtCvtmx c g w) s = .next (setLg (coreFlags s c (r.2.2 ||| seenFlags ((cvtmxVals x w).map (·.1)))) c g y) ∧
        y = { x with pc := x.pc + 1, v := y.v } ∧ ∀ q lane, lane < 32 → mget y.v 0 (32 * q + lane) =
          if laneOn x w lane = false then mget x.v 0 (32 * q + lane)
          else if q = wDst w + 1 then BitVec.ofNat 32 r.2.1 else if q = wDst w then BitVec.ofNat 32 (r.1.getD lane 0)
          else mget x.v 0 (32 * q + lane))

/-- Tile-store rows (R15, R106, R107, R157): with no access that ends the launch, a load gives each active lane its bytes, and a store puts
them, the highest lane last; one that R107, R147 or R258 forbids ends the launch with that status; one to bytes that an earlier write-out of
its lane group still stores waits, and a store waits for the earlier matrix reads of its lane group too. The model's choices here: log
entries 88, 116. -/
def Obligations.TileStoreRows : Prop :=
  (∀ s (c : Fin 512) (g : Fin 32) w, Issues s c g 5 0 w → ownStoreWaits s c g w = false → tsCheck s c g w false = none →
      let x := getLg s c g
      let n := 2 ^ field (wMod w) 2 2
      let v := fun lane => ofLe (tsBytes s c (bitOf (wMod w) 4) (tsAddr x w lane) n)
      ∃ y, exec (.tsLd c g w) s = .next (setLg s c g y) ∧ y = { x with pc := x.pc + 1, v := y.v } ∧ ∀ q lane, lane < 32 →
        mget y.v 0 (32 * q + lane) =
          if laneOn x w lane = false then mget x.v 0 (32 * q + lane)
          else if n = 8 ∧ q = wDst w + 1 then BitVec.ofNat 32 (v lane / 2 ^ 32)
          else if q = wDst w then BitVec.ofNat 32 (v lane) else mget x.v 0 (32 * q + lane))
  ∧ (∀ s (c : Fin 512) (g : Fin 32) w, Issues s c g 5 1 w → storeBlocked s c g w = false → ownStoreWaits s c g w = false →
      tsCheck s c g w true = none →
      let x := getLg s c g
      let n := 2 ^ field (wMod w) 2 2
      let v := fun lane => if n = 8 then vsrc64 x w (wC w) lane else vsrc x w (wC w) lane
      let scratch := bitOf (wMod w) 4
      let old := if scratch then (s.cdc (c / 4)).scratch else (s.core c).ts
      ∃ new : Map Byte, exec (.tsSt c g w) s = .next (setLg
          (if scratch then s.setCdc (c / 4) { s.cdc (c / 4) with scratch := new } else s.setCore c { s.core c with ts := new }) c g (stepPc x)) ∧
        ∀ a, mget new 0 a =
          match ((activeLanes x w).filter (fun lane => decide (tsAddr x w lane ≤ a) && decide (a < tsAddr x w lane + n))).getLast? with
          | some lane => BitVec.ofNat 8 (v lane / 256 ^ (a - tsAddr x w lane))
          | none => mget old 0 a)
  ∧ (∀ s (c : Fin 512) (g : Fin 32) w e, Issues s c g 5 0 w → ownStoreWaits s c g w = false → tsCheck s c g w false = some e →
      exec (.tsLd c g w) s = .next (coreAbort s c e.1 e.2))
  ∧ (∀ s (c : Fin 512) (g : Fin 32) w e, Issues s c g 5 1 w → storeBlocked s c g w = false → ownStoreWaits s c g w = false →
      tsCheck s c g w true = some e → exec (.tsSt c g w) s = .next (coreAbort s c e.1 e.2))
  ∧ (∀ s (c : Fin 512) (g : Fin 32) w,
      (Issues s c g 5 0 w → ownStoreWaits s c g w = true → exec (.tsLd c g w) s = .next s)
      ∧ (Issues s c g 5 1 w → storeBlocked s c g w = true ∨ ownStoreWaits s c g w = true → exec (.tsSt c g w) s = .next s))

/-- Matrix rows and their engine (R108 to R111): MMA, CLEAR and LOAD join the matrix queue and ACC.STORE the write-out queue, each with its
scalar operands captured at issue, and a full queue holds the lane group; the engine's oldest operation, and the oldest write-out, is
performed when it completes, unless one issued before it on the other queue shares its tile or bytes; a barrier that waited may then open.
The model's choices here: log entries 53, 86, 87, 89, 90, 91. -/
def Obligations.MatrixRows : Prop :=
  (∀ s (c : Fin 512) (g : Fin 32) w, matFull (s.core c) = false →
      let t := s.setCore c { s.core c with matQ := (s.core c).matQ ++ [mkOp s c g w], nextOp := (s.core c).nextOp + 1 }
      (Issues s c g 6 0 w → exec (.matMma c g w) s = .next (setLg t c g (stepPc (getLg s c g))))
      ∧ (Issues s c g 7 0 w → exec (.accClear c g w) s = .next (setLg t c g (stepPc (getLg s c g))))
      ∧ (Issues s c g 7 1 w → exec (.accLoad c g w) s = .next (setLg t c g (stepPc (getLg s c g)))))
  ∧ (∀ s (c : Fin 512) (g : Fin 32) w, Issues s c g 7 2 w → woFull (s.core c) = false →
      exec (.accStore c g w) s =
        let o : MatOp := { mkOp s c g w with allowed := (woSpans (mkOp s c g w)).all (fun p => gfxWriteOk s c g p.1 p.2) }
        let t := s.setCore c { s.core c with woQ := (s.core c).woQ ++ [o], nextOp := (s.core c).nextOp + 1 }
        .next (setLg t c g (stepPc (getLg s c g))))
  ∧ (∀ s (c : Fin 512) (g : Fin 32) w,
      (matFull (s.core c) = true → Issues s c g 6 0 w → exec (.matMma c g w) s = .next s)
      ∧ (matFull (s.core c) = true → Issues s c g 7 0 w → exec (.accClear c g w) s = .next s)
      ∧ (matFull (s.core c) = true → Issues s c g 7 1 w → exec (.accLoad c g w) s = .next s)
      ∧ (woFull (s.core c) = true → Issues s c g 7 2 w → exec (.accStore c g w) s = .next s))
  ∧ (∀ s (c : Fin 512) l x o rest, s.flt.safe = false → coreLaunch s c = some (l, x) → x.phase = .running ∨ x.phase = .yielding →
      (s.core c).matQ = o :: rest → matReady (s.core c) = true →
      exec (.matrixOpComplete c false) s =
        let t := s.setCore c { s.core c with matQ := rest }
        .next (openBar c (if wCls o.w = 6 then runMma t c o else runAcc t c o)))
  ∧ (∀ s (c : Fin 512) l x o rest, s.flt.safe = false → coreLaunch s c = some (l, x) → x.phase = .running ∨ x.phase = .yielding →
      (s.core c).woQ = o :: rest → woReady (s.core c) = true →
      exec (.matrixOpComplete c true) s = .next (openBar c (runStore (s.setCore c { s.core c with woQ := rest }) c o)))

/-- Semaphores (R113, R159): SIG adds and serves the waiters in order, an overflow ends the launch; WAIT takes its count or waits; TRY takes
it or answers zeros, and never blocks. -/
def Obligations.SemaphoreRows : Prop :=
  (∀ s (c : Fin 512) (g : Fin 32) w, Issues s c g 8 0 w → unpPending s c g = false →
      mget (s.rgn (c / 32)).sems 0 (semId w) + semN w ≤ 65535 →
      exec (.semSig c g w) s =
        let x := s.rgn (c / 32)
        let t := s.setRgn (c / 32) { x with sems := mset x.sems 0 (semId w) (mget x.sems 0 (semId w) + semN w) }
        .next (serveSem (x.waiters.length + 1) (semId w) (c / 32) (setLg t c g (stepPc (getLg t c g)))))
  ∧ (∀ s (c : Fin 512) (g : Fin 32) w, Issues s c g 8 0 w → unpPending s c g = false →
      65535 < mget (s.rgn (c / 32)).sems 0 (semId w) + semN w → exec (.semSig c g w) s = .next (coreAbort s c 5 0x0403))
  ∧ (∀ s (c : Fin 512) (g : Fin 32) w, Issues s c g 8 1 w → semN w ≤ mget (s.rgn (c / 32)).sems 0 (semId w) →
      (s.rgn (c / 32)).waiters.any (fun y => y.sem == semId w) = false →
      exec (.semWait c g w) s =
        let x := s.rgn (c / 32)
        .next (setLg (s.setRgn (c / 32) { x with sems := mset x.sems 0 (semId w) (mget x.sems 0 (semId w) - semN w) }) c g
          (stepPc (getLg s c g))))
  ∧ (∀ s (c : Fin 512) (g : Fin 32) w, Issues s c g 8 1 w →
      mget (s.rgn (c / 32)).sems 0 (semId w) < semN w ∨ (s.rgn (c / 32)).waiters.any (fun y => y.sem == semId w) = true →
      exec (.semWait c g w) s =
        let x := s.rgn (c / 32)
        .next (setLg (s.setRgn (c / 32) { x with waiters := x.waiters ++ [⟨semId w, c, g, semN w⟩] }) c g
          { getLg s c g with st := .onSem }))
  ∧ (∀ s (c : Fin 512) (g : Fin 32) w, Issues s c g 8 2 w →
      exec (.semTry c g w) s =
        let x := s.rgn (c / 32)
        let n := mget x.sems 0 (semId w)
        let t := if semN w ≤ n then s.setRgn (c / 32) { x with sems := mset x.sems 0 (semId w) (n - semN w) } else s
        .next (setLg t c g (stepPc (lgSetP (getLg s c g) (wDst w - 0x50) (if semN w ≤ n then 0xFFFFFFFF#32 else 0#32)))))

/-- Planned transfers (R112, R187, R198, R202, R258, R297): START issues its entry, one that stands already in its stretch ends the launch
as a fault that its region detects; WAIT goes on once the entry is complete; an AUTO entry starts at its time; the head entry of the stream
engine completes once its memory and the far end allow it. The model's choices here: log entries 25, 53, 56, 61, 72. -/
def Obligations.TransferCommands : Prop :=
  (∀ s (c : Fin 512) (g : Fin 32) w l x, Issues s c g 0xA 0 w → coreLaunch s c = some (l, x) →
      (s.rgn (c / 32)).started.contains (field (wImm w) 0 32) = false →
      exec (.xferStart c g w) s =
        let t := issueEntry (c / 32) (field (wImm w) 0 32) s
        .next (if (t.core c).lgs = [] then t else setLg t c g (stepPc (getLg t c g))))
  ∧ (∀ s (c : Fin 512) (g : Fin 32) w l x, Issues s c g 0xA 0 w → coreLaunch s c = some (l, x) →
      (s.rgn (c / 32)).started.contains (field (wImm w) 0 32) = true →
      exec (.xferStart c g w) s = .next (abortLaunch l (c / 32) 5 0x0702 s))
  ∧ (∀ s (c : Fin 512) (g : Fin 32) w, Issues s c g 0xA 1 w → (s.rgn (c / 32)).done.contains (field (wImm w) 0 32) = true →
      exec (.xferWait c g w) s = .next (setLg s c g (stepPc (getLg s c g))))
  ∧ (∀ s (c : Fin 512) (g : Fin 32) w, Issues s c g 0xA 1 w → (s.rgn (c / 32)).done.contains (field (wImm w) 0 32) = false →
      exec (.xferWait c g w) s = .next s)
  ∧ (∀ s (r : Fin 16) n l x e, launchAt s r = some (l, x) → (stepTable s x).xfers[n]? = some e → s.flt.safe = false → e.auto = true →
      e.rel = (s.rgn r).rel → (s.rgn r).started.contains n = false → (s.rgn r).offset ≤ e.startAt → (s.rgn r).held = none →
      x.phase = .running ∨ x.phase = .yielding → exec (.autoTransferStart r n) s = .next (issueEntry r n s))
  ∧ (∀ s (r : Fin 16) l x st rest e, launchAt s r = some (l, x) → (s.rgn r).fifo = st :: rest → (stepTable s x).xfers[st.entry]? = some e →
      s.flt.safe = false →
      exec (.transferComplete r) s = .next (if entryReady s r st then completeEntry s r l e st else pumpJob 4096 st.job s))

/-- Unplanned loads, stores and maintenance (R115, R158, R159, R165 to R167): one that meets no error steps its lane group and makes its
accesses lane by lane, each served by a line that is present or queued as a miss; no byte of memory changes but those of a line that a lane
names and that the eviction buffer gives back; WB and INV act on the lines their lanes name. Atomics (R116, R117, R164): the lanes act in
ascending order on memory at their homes, each receives the value before its own update, and FADD's flags join the launch's. The model's
choices here: log entries 53, 56, 88, 92, 103, 117. -/
def Obligations.UnplannedAccesses : Prop :=
  (∀ s t (c : Fin 512) (g : Fin 32) w l x hs,
      (UnpIssues s c g 0 none false false true w l x hs ∧ exec (.unpLd c g w) s = .next t)
        ∨ (UnpIssues s c g 1 none false true true w l x hs ∧ exec (.unpSt c g w) s = .next t)
        ∨ (UnpIssues s c g 3 none false false false w l x hs ∧ exec (.unpLfill c g w) s = .next t) →
      let k := s.cdc (c / 4)
      let named := fun (e : CLine) => (unpLanes (getLg s c g) w).any (fun lane => unpVa (getLg s c g) w lane / 64 == e.line)
      (k.evict.any named = false → t.hostMem = s.hostMem ∧ t.devMem = s.devMem)
      ∧ ∀ a, (∀ e ∈ k.evict ++ k.lines.map (·.2), named e = true → a < e.home ∨ e.home + 64 ≤ a) → readPhys t a 1 = readPhys s a 1)
  ∧ (∀ s (c : Fin 512) (g : Fin 32) w l x hs, UnpIssues s c g 0 none false false true w l x hs →
      exec (.unpLd c g w) s =
        let y := getLg s c g
        .next (foldState ((unpLanes y w).zip hs) (fun p a => makeAcc (c / 4) ⟨c % 4, g, 0, unpVa y w p.1, p.2, unpSize w,
          if bitOf (wMod w) 2 then activeLanes y w else [p.1], wDst w, 0, 0, 0, false⟩ a) (setLg s c g (stepPc y))))
  ∧ (∀ s (c : Fin 512) (g : Fin 32) w l x hs, UnpIssues s c g 1 none false true true w l x hs →
      exec (.unpSt c g w) s =
        let y := getLg s c g
        let data := fun lane => if unpSize w = 8 then vsrc64 y w (wB w) lane else vsrc y w (wB w) lane
        .next (foldState ((unpLanes y w).zip hs) (fun p a => makeAcc (c / 4) ⟨c % 4, g, 1, unpVa y w p.1, p.2, unpSize w, [p.1], 0,
          BitVec.ofNat 64 (data p.1), 0, 0, false⟩ a) (setLg s c g (stepPc y))))
  ∧ (∀ s (c : Fin 512) (g : Fin 32) w l x hs, UnpIssues s c g 3 none false false false w l x hs →
      exec (.unpLfill c g w) s =
        let y := getLg s c g
        .next (foldState ((unpLanes y w).zip hs) (fun p a => makeAcc (c / 4) ⟨c % 4, g, 2, unpVa y w p.1 - unpVa y w p.1 % 64, p.2, 64, [],
          0, 0, field (wImm w) 0 4, 0, false⟩ a) (setLg s c g (stepPc y))))
  ∧ (∀ s (c : Fin 512) (g : Fin 32) w l x hs,
      (UnpIssues s c g 4 none false false false w l x hs →
        exec (.unpWb c g w) s =
          let y := getLg s c g
          .next (foldState (unpLanes y w) (fun lane a => cleanLine (c / 4) (unpVa y w lane / 64) a) (setLg s c g (stepPc y))))
      ∧ (UnpIssues s c g 5 none false false false w l x hs →
        exec (.unpInv c g w) s =
          let y := getLg s c g
          .next (foldState (unpLanes y w) (fun lane a => invLine (c / 4) (unpVa y w lane / 64) a) (setLg s c g (stepPc y)))))
  ∧ (∀ s (c : Fin 512) (g : Fin 32) w l x hs, ∀ e ∈ atomRows, UnpIssues s c g 2 (some e.2.1) true true true w l x hs →
    exec (e.1 c g w) s =
      let y := getLg s c g
      let fl := fun (o b : Nat) => if e.2.1 = 1 then (fp32Op2 fvAdd o b).2 else 0
      .next (foldState ((unpLanes y w).zip hs) (fun p a => atomLane (e.2.2 (8 * unpSize w)) fl c g w y p.1 p.2
        (if bitOf (wMod w) 2 then activeLanes y w else [p.1]) a) (setLg s c g (stepPc y))))
  ∧ (∀ s t (c : Fin 512) (g : Fin 32) w l x hs, ∀ e ∈ atomRows, UnpIssues s c g 2 (some e.2.1) true true true w l x hs →
      (s.cdc (c / 4)).evict = [] → (∀ lane ∈ unpLanes (getLg s c g) w, findWay (s.cdc (c / 4)) (unpVa (getLg s c g) w lane / 64) = none) →
      exec (e.1 c g w) s = .next t →
      ∀ a, (∀ p ∈ (unpLanes (getLg s c g) w).zip hs, a < p.2 + unpVa (getLg s c g) w p.1 % 64 ∨
        p.2 + unpVa (getLg s c g) w p.1 % 64 + unpSize w ≤ a) → readPhys t a 1 = readPhys s a 1)

/-- The cluster data cache (R158, R161 to R163): a fill that completes installs its line, serves the accesses queued for it in order and
starts the next miss; an eviction entry's write-back leaves the buffer. The model's choices here: log entries 53, 56, 88, 92, 118. -/
def Obligations.CacheEvents : Prop :=
  (∀ s (k : Fin 128) line home, (s.cdc k).miss = some (line, home) →
      ((s.cdc k).queue.filter (fun a => a.va / 64 == line && a.home == home)).all (·.old) = false →
      (s.cdc k).queue.all (fun a => a.kind != 2) = true →
      findWay (s.cdc k) line = none → evictFull (s.cdc k) (victim (s.cdc k) line).1 line = false →
      piecesRun s [(home, 64)] = true → rgnRuns s (k / 8) = true →
      exec (.cdcMissComplete k) s =
        let x := s.cdc k
        let joins := fun (a : UAcc) => a.va / 64 == line && a.home == home
        let f := fetchLine (s.setCdc k { x with queue := x.queue.filter (fun a => !joins a), miss := none }) k line home
        let t := foldState (x.queue.filter joins) (fun a b => serveAcc b k a)
          (f.2.setCdc k (installLine { f.2.cdc k with lfsr := (victim x line).2 } (victim x line).1 f.1))
        .next (settleStacks (settleFrames (t.setCdc k (startMiss (t.cdc k))))))
  ∧ (∀ s (k : Fin 128) e rest, (s.cdc k).evict = e :: rest → piecesRun s [(e.home, 64)] = true → rgnRuns s (k / 8) = true →
      exec (.evictionWriteComplete k) s = .next ((writeBack k s e).setCdc k { s.cdc k with evict := rest }))

/-- Graphics rows (R102, R132, R140 to R147, R149): NEXT closes its item and gives the next; VOUT and FOUT keep the outputs of the active
lanes, KILL their mask; ATTR and the samples write the active lanes; TWAIT waits for blending; a row for another kind of item ends the
launch with 0x0502. The model's choices here: log entries 14, 31, 82, 93, 116. -/
def Obligations.GraphicsRows : Prop :=
  (∀ s (c : Fin 512) (g : Fin 32) w l x pl k, Issues s c g 0xB 0 w → gfxEnv s (c / 32) = some (l, x, pl, k) →
      exec (.gfxNext c g w) s = .next (giveItem c g (settleTile l pl c (closeLg s c g))))
  ∧ (∀ s (c : Fin 512) (g : Fin 32) w it, ItemIssues s c g 1 0 w it → (itemPass s c it).vout ≤ 256 →
      let y := getLg s c g
      ∃ vout, exec (.gfxVout c g w) s = .next (setLg (setGeo s (c / 32) { (s.rgn (c / 32)).geo with vout := vout }) c g (stepPc y)) ∧
        ∀ lane j, lane < 32 → j < 64 → mget vout 0 (64 * (it.num + lane) + j) =
          if laneOn y w lane = true ∧ (it.verts.getD lane none).isSome = true ∧ j < (itemPass s c it).vout / 4 then
            BitVec.ofNat 32 (if j < 4 then lgV y (wA w + j) lane else lgV y (wB w + (j - 4)) lane)
          else mget (s.rgn (c / 32)).geo.vout 0 (64 * (it.num + lane) + j))
  ∧ (∀ s (c : Fin 512) (g : Fin 32) w it, ItemIssues s c g 2 1 w it →
      ∃ y, exec (.gfxAttr c g w) s = .next (setLg s c g y) ∧ WroteLanes (getLg s c g) y w (wDst w)
        (fun lane => BitVec.ofNat 32 (attrAt (itemPass s c it) it (field (wImm w) 0 6) lane)))
  ∧ (∀ s (c : Fin 512) (g : Fin 32) w it, ItemIssues s c g 3 1 w it →
      let y := getLg s c g
      let a := field (wImm w) 0 3
      ∃ outs wrote, exec (.gfxFout c g w) s =
          .next (setLg s c g (stepPc { y with item := some { it with outs := outs, wrote := wrote } })) ∧
        (∀ lane k, lane < 32 → k < 4 → laneOn y w lane = true →
          mget outs 0 (lane * 64 + 4 * a + k) = BitVec.ofNat 32 (lgV y (wA w + k) lane)) ∧
        ∀ n, n < 8 → mget wrote 0 n =
          if n = a then mget it.wrote 0 n ||| laneMaskOf (fun j => (activeLanes y w).contains j) else mget it.wrote 0 n)
  ∧ (∀ s (c : Fin 512) (g : Fin 32) w it, ItemIssues s c g 4 1 w it →
      let y := getLg s c g
      exec (.gfxKill c g w) s =
        .next (setLg s c g (stepPc { y with item := some { it with killed := it.killed ||| laneMaskOf (fun n => laneOn y w n) } })))
  ∧ (∀ s (c : Fin 512) (g : Fin 32) w it l x k m, ∀ e ∈ sampleRows, SampleIssues s c g e.2.1 w it l x k m →
      let y := getLg s c g
      let uv := sampleUv e.2.2 s c w it y m
      let txs := (activeLanes y w).flatMap (sampleReads e.2.2 w it y m uv)
      let vals := txs.map (fun t => if e.2.2 && m.planned then stagedTexel s c (itemPass s c it) m t else none)
      (∀ vs, y.smp = some vs → vs.all (·.isSome) = true →
        exec (e.1 c g w) s = .next (sampled e.2.2 c g w it y m uv (vs.map (·.getD 0)) s))
      ∧ (y.smp = none → rangeBad s k (txs.map (fun e => (texelVa x m e, layoutBytes m.layout, false))) = none →
        (e.2.2 = true → m.planned = true → (∀ e ∈ txs, (stagedTexel s c (itemPass s c it) m e).isSome = true) →
          exec (e.1 c g w) s = .next (sampled true c g w it y m uv (txs.map (fun e => (stagedTexel s c (itemPass s c it) m e).getD 0))
            (setLg s c g { y with smp := some (txs.map (stagedTexel s c (itemPass s c it) m)) })))
        ∧ (vals.any (·.isNone) = true → unpPending s c g = true → exec (e.1 c g w) s = .next s)
        ∧ (vals.any (·.isNone) = false ∨ unpPending s c g = false →
          let t := foldState ((txs.zip vals).zipIdx.filter (fun e => e.1.2.isNone)) (fun e a => cdcTexel c g k x m e.1.1 e.2 a)
            (setLg s c g { y with smp := some vals })
          exec (e.1 c g w) s = .next (match (getLg t c g).smp with
            | some vs => if vs.all (·.isSome) then sampled e.2.2 c g w it y m uv (vs.map (·.getD 0)) t else t
            | none => t)))
      ∧ (∀ b, y.smp = none → rangeBad s k (txs.map (fun e => (texelVa x m e, layoutBytes m.layout, false))) = some b →
        exec (e.1 c g w) s = .next (launchFault s l (c / 32) b.1 3 b.2 1 0 0)))
  ∧ (∀ s (c : Fin 512) (g : Fin 32) w y m lanes zero reads uv lod nan vals, y = getLg s c g → wDst w ≤ 60 →
      ∃ z, sampleDone c g w m lanes zero reads uv lod nan vals s = setLg (coreFlags s c (if nan then flNan else 0)) c g z
        ∧ z = { y with pc := y.pc + 1, v := z.v, smp := none }
        ∧ (∀ r lane, lane < 32 → (lanes.contains lane = false ∨ r < wDst w ∨ wDst w + 4 ≤ r) →
          mget z.v 0 (32 * r + lane) = mget y.v 0 (32 * r + lane)))
  ∧ (∀ s (c : Fin 512) (g : Fin 32) w it, ItemIssues s c g 7 1 w it → it.wrote = [] → (gfxOn s c).active = [] →
      (s.core c).lgs = [(g.val, getLg s c g)] →
      exec (.gfxTwait c g w) s =
        .next (setLg s c g (stepPc { getLg s c g with item := some { it with atWait := false, twaited := true } })))
  ∧ (∀ s (c : Fin 512) (g : Fin 32) w it, ItemIssues s c g 7 1 w it → it.wrote ≠ [] → mfind (s.core c).lgs g = some (getLg s c g) →
      exec (.gfxTwait c g w) s = .next (setLg s c g { getLg s c g with item := some { it with atWait := true } }))
  ∧ (∀ s (c : Fin 512) (g : Fin 32) w, (getLg s c g).item = none →
      (Issues s c g 0xB 1 w → exec (.gfxVout c g w) s = .next (coreAbort s c 5 0x0502))
      ∧ (Issues s c g 0xB 2 w → exec (.gfxAttr c g w) s = .next (coreAbort s c 5 0x0502))
      ∧ (Issues s c g 0xB 3 w → exec (.gfxFout c g w) s = .next (coreAbort s c 5 0x0502))
      ∧ (Issues s c g 0xB 4 w → exec (.gfxKill c g w) s = .next (coreAbort s c 5 0x0502)))

/-- Events of tile rendering (R125, R127, R132 to R136, R141, R143, R149, R153): geometry and passes start, batches are binned and full
pools call for a round, tiles are staged, blended and written out. The model's choices here: log entries 14, 31, 32, 93, 113. -/
def Obligations.RenderingEvents : Prop :=
  (∀ s (c : Fin 512) l x pl k i rest g, gfxEnv s (c / 32) = some (l, x, pl, k) → (s.rgn (c / 32)).geo.passes = i :: rest →
      let p := passAt pl i
      let r := c.val / 32
      let emptied := if p.binned && p.submitMax != 0 then
        foldState (List.range (passTiles p)) (fun t a => pokeOver (r / 8) k (headerVa x p (s.rgn r).rel t) emptyHeader a) s else s
      let first : Geo := { (s.rgn r).geo with
        batch := (s.rgn r).rel, chunks := 0, prims := 0, entries := 0, full := false, extra := [], round := false }
      (s.rgn r).geo.active = false → (s.rgn r).geo.wait = false → passArgsLocal x p = true →
      rangeBad s k (if p.submitMax = 0 then [] else (argAt x p.argDraws, 32 + 32 * drawCount s k (argAt x p.argDraws), false)
        :: (if p.binned then [(binBase x p (s.rgn r).rel, passTiles p * 160, true)] else [])) = none →
      ((drawsOf s k x p).map (·.prims)).sum ≤ p.submitMax →
      gatherBatch emptied k x p i first = .ok g →
      exec (.passStart c) s = .next (startPass c (setGeo (countRgnBytes r (gatherBytes emptied k x p first) emptied) r g)))
  ∧ (∀ s (c : Fin 512) l x pl k i, gfxEnv s (c / 32) = some (l, x, pl, k) → (s.rgn (c / 32)).geo.passes = [] → pausing x = false →
      curPass (gfxOn s c) = some (i, false) → (gfxOn s c).started = false → passArgsLocal x (passAt pl i) = true →
      geoReady s x i (passAt pl i) = true →
      let p := passAt pl i
      let foot := if p.binned then [] else staticBlocks p
      rangeBad s k (foot.map (fun b => (footVa x p b, 1024, false))) = none →
      exec (.passStart c) s = .next (leavePass c (setGfx (countRgnBytes (c / 32) (1024 * foot.length) (stageBlocks s k x p c 0 foot)) c
        { gfxOn s c with
          started := true, tiles := tilesOf p pl.regionCount (coreRel s c) (c % 32), count := 0, foot := foot, footBuf := 0 })))
  ∧ (∀ s (r : Fin 16) l x y pl k i rest b t, gfxEnv s r = some (l, x, pl, k) → (s.rgn r).geo.passes = i :: rest →
      (s.rgn r).geo.active = true → (s.rgn r).geo.items = [] → (s.rgn r).geo.outstanding = 0 →
      (passAt pl i).binned = false ∨ lowerBatch s x i r (s.rgn r).geo.batch = false →
      (batchesOf (drawsOf s k x (passAt pl i)))[(s.rgn r).geo.batch]? = some b →
      binBatch l pl k i r ((drawsOf s k x (passAt pl i)).getD b.1 ⟨0, 0, false, false, 0, 0⟩) b b.2.2.1 0 s = (t, false) →
      t.launch? l = some y →
      exec (.batchBinned r) s = .next (finishBatch l y pl k i r b.1 (batchesOf (drawsOf s k x (passAt pl i))) t))
  ∧ (∀ s (r : Fin 16) l x pl k i rest, gfxEnv s r = some (l, x, pl, k) → (s.rgn r).geo.passes = i :: rest → (s.rgn r).geo.full = true →
      (s.rgn r).geo.wait = true →
      (∀ n ∈ x.regions, (s.rgn n).geo.passes.head? = some i → (s.rgn n).geo.round = false ∧ (s.rgn n).geo.begun = false) →
      exec (.binPoolFull r) s = .next (foldState (x.regions.flatMap coresOf) (fun c a =>
        let g := gfxOn a c
        setGfx a c { g with passes := if g.started then g.passes.take 1 ++ (256 + i) :: g.passes.drop 1 else (256 + i) :: g.passes })
        (setGeo s r { (s.rgn r).geo with round := true })))
  ∧ (∀ s (c : Fin 512) l x pl k i b t rest, gfxEnv s (c / 32) = some (l, x, pl, k) → curPass (gfxOn s c) = some (i, b) →
      (gfxOn s c).tiles = t :: rest → (gfxOn s c).started = true → (gfxOn s c).next = none →
      let p := passAt pl i
      let ins := p.attach.zipIdx.filter (fun a => loads a.1 (x.rounded.contains i))
      let rels := if p.binned && p.submitMax != 0 then List.range pl.regionCount else []
      let foot := tileFoot s k x pl i t
      let n : Staged := if p.binned then ⟨t, (gfxOn s c).count % 2, (gfxOn s c).count % 2, foot, tilePrims s k x pl i t⟩
        else ⟨t, (gfxOn s c).count, 0, (gfxOn s c).foot, tilePrims s k x pl i t⟩
      (p.binned = true → (gfxOn s c).writing = none ∧ pausing x = false) →
      let ranges := rels.flatMap (fun rel => tileRanges s k x pl p rel t)
        ++ ins.flatMap (fun a => surfRanges p a.1 (argAt x a.1.argSurface) (passSamples p) (extentPixels p t) false)
      let moved := (ranges.map (·.2.1)).sum + (if p.binned then 1024 * foot.length else 0)
      rangeBad s k ranges = none →
      rangeBad s k (foot.map (fun b => (footVa x p b, 1024, false))) = none →
      foot.length ≤ p.footBlocks → (tilePrims s k x pl i t).length ≤ p.tileEntries → stageTop p n.slot n.buf ≤ usableTop s →
      exec (.tileStagingDone c) s = .next (settleTile l pl c (setGfx (countRgnBytes (c / 32) moved
        (foldState ins (loadAttach k x p c n.slot t) (if p.binned then stageBlocks s k x p c n.buf foot else s))) c
        { gfxOn s c with tiles := rest, count := (gfxOn s c).count + 1, next := some n })))
  ∧ (∀ s (c : Fin 512) l x pl k i b it, gfxEnv s (c / 32) = some (l, x, pl, k) → curPass (gfxOn s c) = some (i, b) →
      nextBlend s c (gfxOn s c).active = some (it, none) → it.blended = false →
      exec (.fragmentBlended c) s =
        let t := blendItem c (passAt pl i) (gfxOn s c).slot it (countOverdraw l pl c (passAt pl i) it s)
        .next (gfxPoint (c / 32) (settleTile l pl c (setGfx t c { gfxOn t c with
          active := (gfxOn t c).active.filter (fun e => e.num != it.num) }))))
  ∧ (∀ s (c : Fin 512) l x pl k i b t, gfxEnv s (c / 32) = some (l, x, pl, k) → curPass (gfxOn s c) = some (i, b) →
      (gfxOn s c).writing = some t → rangeBad s k ((passAt pl i).attach.flatMap (storeRanges x (passAt pl i) b t)) = none →
      exec (.tileWriteOutDone c) s =
        let p := passAt pl i
        let u := foldState p.attach.zipIdx (storeAttach k x p b c (gfxOn s c).wslot t) s
        let n := ((p.attach.flatMap (storeRanges x p b t)).map (·.2.1)).sum
        .next (gfxPoint (c / 32) (leavePass c (settleTile l pl c (countRgnBytes (c / 32) n (setGfx u c { gfxOn s c with writing := none }))))))

/-- On an empty queue a step lets one FE cycle pass: only the clock and the counts of time move (DESIGN CHOICE, log entry 12). -/
def Obligations.IdleStepIsATick : Prop :=
  ∀ s, s.pending = [] → ∃ t, step s = .next t ∧ t = { s with now := t.now, rgns := t.rgns, acct := t.acct, oas := t.oas }
    ∧ (0 < feStep s → t.now = (s.now + feStep s) % 2 ^ 64) ∧ (feStep s = 0 → t.now = s.now)

/-- Every well-formed command answers a next state, and a core row whose word is not a well-formed word of that row is refused; a core row
that cannot issue changes nothing (R98, R99, R122, R425). The model's choices here: log entries 38, 102. -/
def Obligations.WellFormedCommandsRun : Prop :=
  (∀ i s, i.wf = true → ∃ t, exec i s = .next t)
  ∧ (∀ i s, i.wf = false → exec i s = .refused .reservedWord)
  ∧ (∀ s (c : Fin 512) (g : Fin 32) w, ∀ e ∈ laneGroupRows, (e c g w).wf = true → canIssue s c g w = false → exec (e c g w) s = .next s)

/-- No command touches the queue of waiting commands: its effect is on everything else. -/
def Obligations.CommandsLeaveTheQueue : Prop :=
  ∀ i s t, exec i s = .next t → t.pending = s.pending

/-- Every step keeps both memories in canonical form: addresses strictly rising, and no byte listed that reads as an unlisted one. -/
def Obligations.MemoryStaysCanonical : Prop :=
  ∀ s t, Memory.wf s = true → step s = .next t → Memory.wf t = true

/-- Every step keeps the fuse ledger within its 160 entries with four seed slots, never shortens it, and leaves a destroyed seed destroyed
(R386, R389, R394). -/
def Obligations.LedgerAndSeedsHold : Prop :=
  ∀ s t, FuseLedger s → step s = .next t →
    FuseLedger t ∧ s.sec.otp.ledger.length ≤ t.sec.otp.ledger.length ∧
      ∀ k, k < 4 → s.sec.otp.seeds.getD k .empty = .destroyed → t.sec.otp.seeds.getD k .empty = .destroyed

/-- The device leaves the safe state through a module reset alone (R405): no other command clears it. The model's choices here: log entry
34. -/
def Obligations.SafeStateHolds : Prop :=
  ∀ i s t, s.flt.safe = true → mayReset i = false → exec i s = .next t → t.flt.safe = true

/-- The invariants hold at reset: the memories are canonical, the ledger and its seeds are in form, nothing waits, and the device is not in
the safe state. The model's choices here: log entries 1, 2, 5. -/
def Obligations.ResetIsInForm : Prop :=
  Memory.wf State.reset = true ∧ FuseLedger State.reset ∧ State.reset.pending = [] ∧ State.reset.flt.safe = false

/-- The frame of the rows that act on a lane group (R96, R98, R159): memory, the caches, the regions, every other core, the tile stores and
every other lane group stay; of the launches only the flags word may change. The model's choices here: log entry 16. -/
def Obligations.LaneGroupRowFrames : Prop :=
  ∀ s t (c : Fin 512) (g : Fin 32) w, ∀ e ∈ laneGroupRows, exec (e c g w) s = .next t →
    t = { s with cores := t.cores, fe := { s.fe with launches := t.fe.launches } }
    ∧ (∀ k, k ≠ c.val → t.core k = s.core k)
    ∧ t.core c = { s.core c with lgs := (t.core c).lgs }
    ∧ (∀ k, k ≠ g.val → mfind (t.core c).lgs k = mfind (s.core c).lgs k)
    ∧ ∀ l, t.launch? l = (s.launch? l).map (fun x => { x with flags := ((t.launch? l).map (·.flags)).getD x.flags })

/-- Physical memory (R171, R182): a write is read back, every byte outside it reads as before, in either memory, and both memories keep
their form. The model's choices here: log entry 5. -/
def Obligations.PhysicalMemory : Prop :=
  ∀ s pa bs, (pa < hostBase → pa + bs.length ≤ hostBase) →
    readPhys (writePhys s pa bs) pa bs.length = bs
    ∧ (∀ a, a < pa ∨ pa + bs.length ≤ a → readPhys (writePhys s pa bs) a 1 = readPhys s a 1)
    ∧ (Memory.wf s = true → Memory.wf (writePhys s pa bs) = true)

/-- What a module reset leaves (R34, R357, R364, R373, R382, R389): every unit of the package back at its start, with Oasis, flash, OTP and
the ledger kept where nothing was being changed, and device memory, with the FREE frames among it, kept only where its stack was in self-
refresh. The model's choices here: log entries 5, 30, 99. -/
def Obligations.ModuleResetLeaves : Prop :=
  (∀ s lost, let t := moduleReset lost s
      t.fe = {} ∧ t.regs = [] ∧ t.flt = {} ∧ t.cores = [] ∧ t.rgns = [] ∧ t.cdcs = [] ∧ t.engines = [] ∧ t.streams = [] ∧ t.link = {}
        ∧ t.acct = {} ∧ t.boot = {} ∧ t.now = 0 ∧ t.pwr.dev = .held ∧ t.sec.alarms = 0 ∧ t.sec.armed = none ∧ t.sec.imageLoaded = false)
  ∧ (∀ s lost, let t := moduleReset lost s
      t.oas = s.oas ∧ t.hostMem = s.hostMem ∧ (s.sec.flashOp = none → t.sec.flash = s.sec.flash)
        ∧ (s.sec.change = none → s.sec.haboob = false → t.sec.otp = s.sec.otp))
  ∧ (∀ s lost, ∀ e ∈ (moduleReset lost s).mem.frames, e ∈ s.mem.frames ∧ e.2 = .free ∧ lost = false
      ∧ (s.pwr.dev = .dormant ∨ clkCur s (4 + stackOf e.1 / 4) ≠ 0))
  ∧ (∀ s, (moduleReset true s).devMem = [] ∧ (s.pwr.dev = .dormant → (moduleReset false s).devMem = s.devMem)
      ∧ (s.pwr.dev ≠ .dormant → (∀ k, k < 2 → clkCur s (4 + k) = 0) → (∀ e ∈ s.devMem, stackOf (e.1 / 65536) < 8) →
        (moduleReset false s).devMem = []))

/-- Reset values of registers (R8, R34): after a module reset each register listed here reads the value its table gives for reset. -/
def Obligations.RegisterResetValues : Prop :=
  ∀ s lost, ∀ p ∈ [(0x118, 0x00010400), (0x010400, 0x0200), (0x010404, 0x0101), (0x010500, 256), (0x010504, 0), (0x010600, 15625),
      (0x010604, 0), (0x020014, 153), (0x020104, 8388608), (0x02010C, 0), (0x020300, 4718592), (0x030000, 0x28AAAA), (0x030004, 0x28AAAA),
      (0x030008, 0), (0x030010, 0x4068), (0x030014, 0x4068), (0x030018, 25), (0x03001C, 25), (0x030020, 0x4040), (0x040000, 700),
      (0x040008, 0x061B01), (0x050000, 0xEC), (0x060014, 0), (0x071000, 8), (0x090004, 0xB7EE), (0x090008, 0x61B19071), (0x090100, 0xD8)],
    readReg (moduleReset lost s) p.1 = p.2

/-- R270: a DL_Down that the host did not request answers, while the link is up, what a hot reset answers: the module reset and the start-up
that follows. -/
def Obligations.DlDownIsAHotReset : Prop :=
  ∀ s, linkUp s = true → exec .dlDown s = exec .hotReset s ∧ exec .dlDown s = .next (startUp (moduleReset false s))

/-- R325: a commit passes the check of the fetch budget exactly when its bytes per second, the bytes of a frame times the frames of a
second, are at most 96 x 10^9, on a head whose line and frame lengths are not 0. -/
def Obligations.FetchBudgetOfAHead : Prop :=
  ∀ s h c, 0 < headHtotal s h → 0 < headVtotal s h →
    (check0C06 s h c = true ↔ fetchBytes s h c * ((headRate s h : ℚ) * 1000 / (headHtotal s h * headVtotal s h)) ≤ 96 * 10 ^ 9)

/-- R387: a change whose verified fuses do not give the value asked for ends with STATUS 6 and a class C event; the setting holds the value
that the verified fuses give, and TO of its entry, whose COMPLETE stays 0 (R386), records it. -/
def Obligations.FuseVerificationFailure : Prop :=
  ∀ s c v, s.sec.change = some c → 1 ≤ c.setting → c.setting ≤ 6 → otpReachable c v = true → v ≠ c.goal → v < 2 ^ 32 →
    ∃ t, exec (.otpChangeDone v) s = .next (faultEvent t 0 0xC 0 3 0xFFFF 0) ∧ t.sec.status = 6 ∧ t.sec.change = none
      ∧ otpValue t.sec.otp c.setting = v
      ∧ ∀ (i : Nat) e, s.sec.otp.ledger[i]? = some e → e.complete = false → e.setting = c.setting →
          (∀ (j : Nat) e', i < j → s.sec.otp.ledger[j]? = some e' → e'.setting = c.setting → e'.complete = true) →
          t.sec.otp.ledger[i]? = some { e with to_ := v, reached := v }

/-- R368: under THRESH the comparator sets BELOW, and logs a class C event when the hub is powered; below 2.70 V Oasis is reset, whatever
THRESH is; at or above both nothing happens. -/
def Obligations.AuxComparator : Prop :=
  (∀ s mv, s.oas.powered = true → mv < s.oas.thresh → 2700 ≤ mv →
      ∃ t, exec (.auxBelowThreshold mv) s = .next t ∧ t.oas = { s.oas with below := true }
        ∧ (bar0Up s = true → t = faultEvent { s with oas := { s.oas with below := true } } 0 0xC 0 5 0xFFFF 0)
        ∧ (bar0Up s = false → t = { s with oas := { s.oas with below := true } }))
  ∧ (∀ s mv, s.oas.powered = true → mv < s.oas.thresh → mv < 2700 →
      ∃ t, exec (.auxBelowThreshold mv) s = .next t ∧ t.oas = { powered := false } ∧ t.sec = s.sec
        ∧ (bar0Up s = true → t.flt = (faultEvent { s with oas := { s.oas with below := true } } 0 0xC 0 5 0xFFFF 0).flt))
  ∧ (∀ s mv, s.oas.thresh ≤ mv → 2700 ≤ mv → exec (.auxBelowThreshold mv) s = .next s)
  ∧ (∀ s mv, s.oas.powered = true → s.oas.thresh ≤ mv → mv < 2700 →
      exec (.auxBelowThreshold mv) s = .next { s with oas := { powered := false } })

/-- R400: a class C event joins the newest record of the same SOURCE, UNIT and CODE that is not acknowledged, whose COUNT it increments, and
else opens a new record; it never enters the safe state. -/
def Obligations.ClassCEventsFold : Prop :=
  (∀ s source unit code ctx info k r, s.flt.safe = false → mfind s.flt.hist k = some r → k = r.seq % 32 → r.source = source → r.unit = unit →
      r.code = code → unacked s.flt r = true →
      (∀ p ∈ s.flt.hist, p.2.source = source → p.2.unit = unit → p.2.code = code → unacked s.flt p.2 = true →
        p.2 = r ∨ 0 < diff32 r.seq p.2.seq) →
      let t := faultEvent s 0 source unit code ctx info
      t.flt.seq = s.flt.seq ∧ t.flt.safe = false ∧ mfind t.flt.hist k = some { r with count := satInc32 r.count }
        ∧ ∀ j, j ≠ k → mfind t.flt.hist j = mfind s.flt.hist j)
  ∧ (∀ s source unit code ctx info, s.flt.safe = false →
      (∀ p ∈ s.flt.hist, ¬ (p.2.source = source ∧ p.2.unit = unit ∧ p.2.code = code ∧ unacked s.flt p.2 = true)) →
      let t := faultEvent s 0 source unit code ctx info
      let n := (s.flt.seq + 1) % 2 ^ 32
      t.flt.seq = n ∧ t.flt.safe = false
        ∧ mfind t.flt.hist (n % 32) = some ⟨n, 0, false, source, unit, code, ctx, 0, s.now, info, true⟩)
end

