-- ==== Sys2Proof/Laws/Map.lean ====
section
/-! SUPPORT. Reads after writes of the sparse tables, and that every operation on them keeps the canonical form. -/

namespace Sys2Proof.Machine

variable {α : Type}

theorem mget_mins (m : Map α) (d : α) (k j : Nat) (v : α) : mget (mins m k v) d j = if j = k then v else mget m d j := by
  induction m with
  | nil =>
    by_cases h : k = j
    · subst h; simp [mins, mget]
    · simp [mins, mget, h, Ne.symm h]
  | cons e r ih =>
    obtain ⟨a, b⟩ := e
    by_cases h1 : k < a
    · by_cases h : k = j
      · subst h; simp [mins, h1, mget]
      · simp [mins, h1, mget, h, Ne.symm h]
    · by_cases h2 : a = k
      · subst h2
        by_cases h : a = j
        · subst h; simp [mins, mget]
        · simp [mins, mget, h, Ne.symm h]
      · by_cases h : k = j
        · subst h; simp [mins, h1, h2, mget, ih]
        · simp [mins, h1, h2, mget, ih, Ne.symm h]

theorem mget_mdel (m : Map α) (d : α) (k j : Nat) : mget (mdel m k) d j = if j = k then d else mget m d j := by
  induction m with
  | nil => simp [mdel, mget]
  | cons e r ih =>
    obtain ⟨a, b⟩ := e
    unfold mdel
    split_ifs with h1 h2 h2
    · rw [ih, if_pos h2]
    · rw [ih, if_neg h2, mget, if_neg (by omega)]
    · rw [mget, if_neg (by omega), ih, if_pos h2]
    · simp only [mget, ih, if_neg h2]

theorem mget_mset [DecidableEq α] (m : Map α) (d : α) (k j : Nat) (v : α) :
    mget (mset m d k v) d j = if j = k then v else mget m d j := by
  unfold mset
  split_ifs with h1 h2 h2
  · rw [mget_mdel, if_pos h2, h1]
  · rw [mget_mdel, if_neg h2]
  · rw [mget_mins, if_pos h2]
  · rw [mget_mins, if_neg h2]

@[simp] theorem mget_mset_same [DecidableEq α] (m : Map α) (d : α) (k : Nat) (v : α) : mget (mset m d k v) d k = v := by
  rw [mget_mset, if_pos rfl]

theorem mfind_mins (m : Map α) (k j : Nat) (v : α) : mfind (mins m k v) j = if j = k then some v else mfind m j := by
  induction m with
  | nil =>
    by_cases h : k = j
    · subst h; simp [mins, mfind]
    · simp [mins, mfind, h, Ne.symm h]
  | cons e r ih =>
    obtain ⟨a, b⟩ := e
    by_cases h1 : k < a
    · by_cases h : k = j
      · subst h; simp [mins, h1, mfind]
      · simp [mins, h1, mfind, h, Ne.symm h]
    · by_cases h2 : a = k
      · subst h2
        by_cases h : a = j
        · subst h; simp [mins, mfind]
        · simp [mins, mfind, h, Ne.symm h]
      · by_cases h : k = j
        · subst h; simp [mins, h1, h2, mfind, ih]
        · simp [mins, h1, h2, mfind, ih, Ne.symm h]

@[simp] theorem mfind_mins_same (m : Map α) (k : Nat) (v : α) : mfind (mins m k v) k = some v := by
  rw [mfind_mins, if_pos rfl]

theorem mfind_mdel (m : Map α) (k j : Nat) : mfind (mdel m k) j = if j = k then none else mfind m j := by
  induction m with
  | nil => simp [mdel, mfind]
  | cons e r ih =>
    obtain ⟨a, b⟩ := e
    unfold mdel
    split_ifs with h1 h2 h2
    · rw [ih, if_pos h2]
    · rw [ih, if_neg h2, mfind, if_neg (by omega)]
    · rw [mfind, if_neg (by omega), ih, if_pos h2]
    · simp only [mfind, ih, if_neg h2]

theorem mget_eq_mfind (m : Map α) (d : α) (k : Nat) : mget m d k = (mfind m k).getD d := by
  induction m with
  | nil => rfl
  | cons e r ih =>
    obtain ⟨a, b⟩ := e
    unfold mget mfind
    split_ifs
    · rfl
    · exact ih

theorem mfind_mmap (m : Map α) (f : Nat → α → α) (k : Nat) : mfind (mmap m f) k = (mfind m k).map (f k) := by
  induction m with
  | nil => rfl
  | cons e r ih =>
    obtain ⟨a, b⟩ := e
    show (if a = k then some (f a b) else mfind (mmap r f) k) = (if a = k then some b else mfind r k).map (f k)
    split_ifs with h
    · subst h; rfl
    · exact ih

/-! ### The canonical form -/

/-- Rising keys as the library's sorted lists. -/
theorem mrising_iff (m : Map α) : mrising m = true ↔ m.Pairwise (fun a b => a.1 < b.1) := by
  induction m with
  | nil => simp [mrising]
  | cons e r ih =>
    cases r with
    | nil => simp [mrising]
    | cons f r =>
      obtain ⟨a, x⟩ := e
      obtain ⟨b, y⟩ := f
      rw [mrising, Bool.and_eq_true, ih, decide_eq_true_eq, List.pairwise_cons (a := (a, x))]
      constructor
      · rintro ⟨h, p⟩
        refine ⟨fun z hz => ?_, p⟩
        rcases List.mem_cons.mp hz with rfl | hz
        · exact h
        · exact lt_trans h ((List.pairwise_cons.mp p).1 z hz)
      · rintro ⟨h, p⟩
        exact ⟨h _ List.mem_cons_self, p⟩

theorem mwf_iff [DecidableEq α] (m : Map α) (d : α) :
    mwf m d = true ↔ m.Pairwise (fun a b => a.1 < b.1) ∧ ∀ e ∈ m, e.2 ≠ d := by
  simp [mwf, mrising_iff, List.all_eq_true]

theorem mem_mins {m : Map α} {k : Nat} {v : α} {e : Nat × α} (h : e ∈ mins m k v) : e = (k, v) ∨ e ∈ m := by
  induction m with
  | nil => simpa [mins] using h
  | cons f r ih =>
    obtain ⟨a, b⟩ := f
    unfold mins at h
    split_ifs at h with h1 h2
    · simpa using h
    · rcases List.mem_cons.mp h with h | h
      · exact .inl h
      · exact .inr (List.mem_cons_of_mem _ h)
    · rcases List.mem_cons.mp h with h | h
      · exact .inr (h ▸ List.mem_cons_self)
      · exact (ih h).imp id (List.mem_cons_of_mem _)

theorem mins_rising {m : Map α} (k : Nat) (v : α) (h : m.Pairwise (fun a b => a.1 < b.1)) :
    (mins m k v).Pairwise (fun a b => a.1 < b.1) := by
  induction m with
  | nil => simp [mins]
  | cons e r ih =>
    obtain ⟨a, b⟩ := e
    obtain ⟨h1, h2⟩ := List.pairwise_cons.mp h
    unfold mins
    split_ifs with h3 h4
    · refine List.pairwise_cons.mpr ⟨fun z hz => ?_, h⟩
      rcases List.mem_cons.mp hz with rfl | hz
      · exact h3
      · exact lt_trans h3 (h1 z hz)
    · subst h4
      exact List.pairwise_cons.mpr ⟨h1, h2⟩
    · refine List.pairwise_cons.mpr ⟨fun z hz => ?_, ih h2⟩
      rcases mem_mins hz with rfl | hz
      · exact lt_of_le_of_ne (not_lt.mp h3) h4
      · exact h1 z hz

theorem mdel_eq_filter (m : Map α) (k : Nat) : mdel m k = m.filter (fun e => !(decide (e.1 = k))) := by
  induction m with
  | nil => rfl
  | cons e r ih =>
    obtain ⟨a, b⟩ := e
    unfold mdel
    by_cases h : a = k <;> simp [h, ih]

/-- Dropping entries keeps the canonical form. -/
theorem filter_wf [DecidableEq α] {m : Map α} {d : α} (p : Nat × α → Bool) (h : mwf m d = true) : mwf (m.filter p) d = true := by
  rw [mwf_iff] at h ⊢
  exact ⟨h.1.filter p, fun e he => h.2 e (List.mem_filter.mp he).1⟩

theorem mset_wf [DecidableEq α] {m : Map α} {d : α} (k : Nat) (v : α) (h : mwf m d = true) : mwf (mset m d k v) d = true := by
  unfold mset
  split_ifs with hv
  · rw [mdel_eq_filter]
    exact filter_wf _ h
  · rw [mwf_iff] at h ⊢
    refine ⟨mins_rising k v h.1, fun e he => ?_⟩
    rcases mem_mins he with rfl | he
    · exact hv
    · exact h.2 e he

theorem mdrop_wf [DecidableEq α] {m : Map α} {d : α} (p : Nat → α → Bool) (h : mwf m d = true) : mwf (mdrop m p) d = true :=
  filter_wf _ h

theorem zeroRange_wf [DecidableEq α] {m : Map α} {d : α} (a n : Nat) (h : mwf m d = true) : mwf (zeroRange m a n) d = true :=
  filter_wf _ h

theorem putBytes_wf {m : Map Byte} (a : Nat) (bs : List Byte) (h : mwf m 0 = true) : mwf (putBytes m a bs) 0 = true := by
  induction bs generalizing m a with
  | nil => exact h
  | cons b bs ih => exact ih _ (mset_wf a b h)

/-! ### Bytes -/

@[simp] theorem bytesAt_length (m : Map Byte) (n a : Nat) : (bytesAt m n a).length = n := by
  induction n generalizing a with
  | zero => rfl
  | succ n ih => simp [bytesAt, ih]

/-- What a byte reads as after bytes are written: one of them inside, and what it was outside. -/
theorem mget_putBytes (m : Map Byte) (a : Nat) (bs : List Byte) (j : Nat) :
    mget (putBytes m a bs) 0 j = if a ≤ j ∧ j < a + bs.length then bs.getD (j - a) 0 else mget m 0 j := by
  induction bs generalizing m a with
  | nil =>
    rw [if_neg (by rw [List.length_nil]; omega)]
    rfl
  | cons b bs ih =>
    rw [putBytes, ih, mget_mset]
    by_cases h : j = a
    · subst h
      simp
    · by_cases h2 : a + 1 ≤ j ∧ j < a + 1 + bs.length
      · rw [if_pos h2, if_pos (by rw [List.length_cons]; omega), show j - a = (j - (a + 1)) + 1 by omega, List.getD_cons_succ]
      · rw [if_neg h2, if_neg h, if_neg (by rw [List.length_cons]; omega)]

theorem mget_zeroRange (m : Map Byte) (a n j : Nat) : mget (zeroRange m a n) 0 j = if a ≤ j ∧ j < a + n then 0 else mget m 0 j := by
  induction m with
  | nil => simp [zeroRange, mget]
  | cons e r ih =>
    obtain ⟨k, b⟩ := e
    unfold zeroRange at ih ⊢
    rw [List.filter_cons]
    by_cases h : a ≤ k ∧ k < a + n
    · rw [if_neg (by simp [h.1, h.2]), ih]
      by_cases h2 : a ≤ j ∧ j < a + n
      · rw [if_pos h2, if_pos h2]
      · rw [if_neg h2, if_neg h2, mget, if_neg (by rintro rfl; exact h2 h)]
    · rw [if_pos (by simp; omega), mget, mget, ih]
      by_cases h3 : k = j
      · subst h3
        rw [if_pos rfl, if_pos rfl, if_neg h]
      · rw [if_neg h3, if_neg h3]

end Sys2Proof.Machine
end

