-- ==== Sys2Proof/Laws/Memory.lean ====
section
/-! SUPPORT. Memory (R171, R182, R188): every operation that writes a memory keeps both in canonical form and touches nothing else. -/

namespace Sys2Proof.Machine

theorem wf_iff (s : State) : Memory.wf s = true ↔ mwf s.hostMem 0 = true ∧ mwf s.devMem 0 = true := by simp [Memory.wf]

/-- Form depends on the two memories alone. -/
theorem wf_of_same {s t : State} (h : Memory.wf s = true) (hh : t.hostMem = s.hostMem) (hd : t.devMem = s.devMem) : Memory.wf t = true := by
  simpa [Memory.wf, hh, hd] using h

theorem reset_memory_wf : Memory.wf State.reset = true := by decide

/-- A physical write changes the two memories alone. -/
theorem writePhys_only (s : State) (pa : Nat) (bs : List Byte) :
    writePhys s pa bs = { s with devMem := (writePhys s pa bs).devMem, hostMem := (writePhys s pa bs).hostMem } := by
  unfold writePhys; split <;> rfl

/-- A write below the host window goes to device memory, one in it to host memory, and the other stays. -/
theorem writePhys_memories (s : State) (pa : Nat) (bs : List Byte) :
    (writePhys s pa bs).devMem = (if pa < hostBase then putBytes s.devMem pa bs else s.devMem)
      ∧ (writePhys s pa bs).hostMem = (if pa < hostBase then s.hostMem else putBytes s.hostMem (pa - hostBase) bs) := by
  unfold writePhys; split <;> exact ⟨rfl, rfl⟩

theorem writePhys_wf {s : State} (h : Memory.wf s = true) (pa : Nat) (bs : List Byte) : Memory.wf (writePhys s pa bs) = true := by
  obtain ⟨h1, h2⟩ := (wf_iff s).1 h
  obtain ⟨d, e⟩ := writePhys_memories s pa bs
  refine (wf_iff _).2 ?_
  rw [d, e]
  split
  · exact ⟨h1, putBytes_wf _ _ h2⟩
  · exact ⟨putBytes_wf _ _ h1, h2⟩

/-- A write to the host either lands now or waits with the others while Bus Master Enable is 0 (R280). -/
theorem busWrite_cases (s : State) (a : Nat) (bs : List Byte) :
    busWrite s a bs = writePhys s (hostBase + a) bs
      ∨ busWrite s a bs = { s with link := { s.link with held := s.link.held ++ [{ fn := 0, ctx := none, addr := a, bytes := bs, tag := 0 }] } } := by
  unfold busWrite; split <;> simp

theorem busWrite_wf {s : State} (h : Memory.wf s = true) (a : Nat) (bs : List Byte) : Memory.wf (busWrite s a bs) = true := by
  rcases busWrite_cases s a bs with e | e <;> rw [e]
  · exact writePhys_wf h _ _
  · exact wf_of_same h rfl rfl

/-- What software stored in host memory before a doorbell (R213). -/
theorem putCells_wf {s : State} (h : Memory.wf s = true) (cs : List Host.Cell) : Memory.wf (putCells s cs) = true := by
  obtain ⟨h1, h2⟩ := (wf_iff s).1 h
  refine (wf_iff _).2 ⟨?_, h2⟩
  show mwf (cs.foldl (fun m c => mset m 0 c.1 c.2) s.hostMem) 0 = true
  generalize s.hostMem = m at h1
  induction cs generalizing m with
  | nil => exact h1
  | cons c cs ih => exact ih _ (mset_wf _ _ h1)

/-- What a module reset leaves of device memory. -/
theorem keptMem_wf {s : State} (h : Memory.wf s = true) (lost : Bool) : mwf (keptMem lost s) 0 = true := by
  obtain ⟨_, h2⟩ := (wf_iff s).1 h
  unfold keptMem
  split
  · rfl
  · split
    · exact h2
    · exact filter_wf _ h2

/-- Operations folded over a list keep the form when each one does. -/
theorem foldState_wf {α : Type} (xs : List α) (f : α → State → State) (hf : ∀ x a, Memory.wf a = true → Memory.wf (f x a) = true) :
    ∀ s, Memory.wf s = true → Memory.wf (foldState xs f s) = true := by
  induction xs with
  | nil => exact fun _ h => h
  | cons x xs ih => exact fun s h => ih _ (hf x s h)

end Sys2Proof.Machine
end

