-- ==== Sys2Proof/Laws/State.lean ====
section
/-! SUPPORT. One lemma per field of the state per update: what each setter leaves as it was, and what it sets. -/

set_option Elab.async false

namespace Sys2Proof.Machine

variable (s : State)

/-! ### setCore -/

@[simp] theorem setCore_pending (c : Nat) (x : Core) : (s.setCore c x).pending = s.pending := rfl
@[simp] theorem setCore_free (c : Nat) (x : Core) : (s.setCore c x).free = s.free := rfl
@[simp] theorem setCore_out (c : Nat) (x : Core) : (s.setCore c x).out = s.out := rfl
@[simp] theorem setCore_now (c : Nat) (x : Core) : (s.setCore c x).now = s.now := rfl
@[simp] theorem setCore_hostMem (c : Nat) (x : Core) : (s.setCore c x).hostMem = s.hostMem := rfl
@[simp] theorem setCore_devMem (c : Nat) (x : Core) : (s.setCore c x).devMem = s.devMem := rfl
@[simp] theorem setCore_regs (c : Nat) (x : Core) : (s.setCore c x).regs = s.regs := rfl
@[simp] theorem setCore_fe (c : Nat) (x : Core) : (s.setCore c x).fe = s.fe := rfl
@[simp] theorem setCore_mem (c : Nat) (x : Core) : (s.setCore c x).mem = s.mem := rfl
@[simp] theorem setCore_rgns (c : Nat) (x : Core) : (s.setCore c x).rgns = s.rgns := rfl
@[simp] theorem setCore_cdcs (c : Nat) (x : Core) : (s.setCore c x).cdcs = s.cdcs := rfl
@[simp] theorem setCore_link (c : Nat) (x : Core) : (s.setCore c x).link = s.link := rfl
@[simp] theorem setCore_flt (c : Nat) (x : Core) : (s.setCore c x).flt = s.flt := rfl
@[simp] theorem setCore_acct (c : Nat) (x : Core) : (s.setCore c x).acct = s.acct := rfl
@[simp] theorem setCore_heads (c : Nat) (x : Core) : (s.setCore c x).heads = s.heads := rfl
@[simp] theorem setCore_engines (c : Nat) (x : Core) : (s.setCore c x).engines = s.engines := rfl
@[simp] theorem setCore_streams (c : Nat) (x : Core) : (s.setCore c x).streams = s.streams := rfl
@[simp] theorem setCore_net (c : Nat) (x : Core) : (s.setCore c x).net = s.net := rfl
@[simp] theorem setCore_clk (c : Nat) (x : Core) : (s.setCore c x).clk = s.clk := rfl
@[simp] theorem setCore_pwr (c : Nat) (x : Core) : (s.setCore c x).pwr = s.pwr := rfl
@[simp] theorem setCore_oas (c : Nat) (x : Core) : (s.setCore c x).oas = s.oas := rfl
@[simp] theorem setCore_sec (c : Nat) (x : Core) : (s.setCore c x).sec = s.sec := rfl
@[simp] theorem setCore_boot (c : Nat) (x : Core) : (s.setCore c x).boot = s.boot := rfl

/-! ### setRgn -/

@[simp] theorem setRgn_pending (r : Nat) (x : Region) : (s.setRgn r x).pending = s.pending := rfl
@[simp] theorem setRgn_free (r : Nat) (x : Region) : (s.setRgn r x).free = s.free := rfl
@[simp] theorem setRgn_out (r : Nat) (x : Region) : (s.setRgn r x).out = s.out := rfl
@[simp] theorem setRgn_now (r : Nat) (x : Region) : (s.setRgn r x).now = s.now := rfl
@[simp] theorem setRgn_hostMem (r : Nat) (x : Region) : (s.setRgn r x).hostMem = s.hostMem := rfl
@[simp] theorem setRgn_devMem (r : Nat) (x : Region) : (s.setRgn r x).devMem = s.devMem := rfl
@[simp] theorem setRgn_regs (r : Nat) (x : Region) : (s.setRgn r x).regs = s.regs := rfl
@[simp] theorem setRgn_fe (r : Nat) (x : Region) : (s.setRgn r x).fe = s.fe := rfl
@[simp] theorem setRgn_mem (r : Nat) (x : Region) : (s.setRgn r x).mem = s.mem := rfl
@[simp] theorem setRgn_cores (r : Nat) (x : Region) : (s.setRgn r x).cores = s.cores := rfl
@[simp] theorem setRgn_cdcs (r : Nat) (x : Region) : (s.setRgn r x).cdcs = s.cdcs := rfl
@[simp] theorem setRgn_link (r : Nat) (x : Region) : (s.setRgn r x).link = s.link := rfl
@[simp] theorem setRgn_flt (r : Nat) (x : Region) : (s.setRgn r x).flt = s.flt := rfl
@[simp] theorem setRgn_acct (r : Nat) (x : Region) : (s.setRgn r x).acct = s.acct := rfl
@[simp] theorem setRgn_heads (r : Nat) (x : Region) : (s.setRgn r x).heads = s.heads := rfl
@[simp] theorem setRgn_engines (r : Nat) (x : Region) : (s.setRgn r x).engines = s.engines := rfl
@[simp] theorem setRgn_streams (r : Nat) (x : Region) : (s.setRgn r x).streams = s.streams := rfl
@[simp] theorem setRgn_net (r : Nat) (x : Region) : (s.setRgn r x).net = s.net := rfl
@[simp] theorem setRgn_clk (r : Nat) (x : Region) : (s.setRgn r x).clk = s.clk := rfl
@[simp] theorem setRgn_pwr (r : Nat) (x : Region) : (s.setRgn r x).pwr = s.pwr := rfl
@[simp] theorem setRgn_oas (r : Nat) (x : Region) : (s.setRgn r x).oas = s.oas := rfl
@[simp] theorem setRgn_sec (r : Nat) (x : Region) : (s.setRgn r x).sec = s.sec := rfl
@[simp] theorem setRgn_boot (r : Nat) (x : Region) : (s.setRgn r x).boot = s.boot := rfl

/-! ### setCdc -/

@[simp] theorem setCdc_pending (k : Nat) (x : Cdc) : (s.setCdc k x).pending = s.pending := rfl
@[simp] theorem setCdc_free (k : Nat) (x : Cdc) : (s.setCdc k x).free = s.free := rfl
@[simp] theorem setCdc_out (k : Nat) (x : Cdc) : (s.setCdc k x).out = s.out := rfl
@[simp] theorem setCdc_now (k : Nat) (x : Cdc) : (s.setCdc k x).now = s.now := rfl
@[simp] theorem setCdc_hostMem (k : Nat) (x : Cdc) : (s.setCdc k x).hostMem = s.hostMem := rfl
@[simp] theorem setCdc_devMem (k : Nat) (x : Cdc) : (s.setCdc k x).devMem = s.devMem := rfl
@[simp] theorem setCdc_regs (k : Nat) (x : Cdc) : (s.setCdc k x).regs = s.regs := rfl
@[simp] theorem setCdc_fe (k : Nat) (x : Cdc) : (s.setCdc k x).fe = s.fe := rfl
@[simp] theorem setCdc_mem (k : Nat) (x : Cdc) : (s.setCdc k x).mem = s.mem := rfl
@[simp] theorem setCdc_cores (k : Nat) (x : Cdc) : (s.setCdc k x).cores = s.cores := rfl
@[simp] theorem setCdc_rgns (k : Nat) (x : Cdc) : (s.setCdc k x).rgns = s.rgns := rfl
@[simp] theorem setCdc_link (k : Nat) (x : Cdc) : (s.setCdc k x).link = s.link := rfl
@[simp] theorem setCdc_flt (k : Nat) (x : Cdc) : (s.setCdc k x).flt = s.flt := rfl
@[simp] theorem setCdc_acct (k : Nat) (x : Cdc) : (s.setCdc k x).acct = s.acct := rfl
@[simp] theorem setCdc_heads (k : Nat) (x : Cdc) : (s.setCdc k x).heads = s.heads := rfl
@[simp] theorem setCdc_engines (k : Nat) (x : Cdc) : (s.setCdc k x).engines = s.engines := rfl
@[simp] theorem setCdc_streams (k : Nat) (x : Cdc) : (s.setCdc k x).streams = s.streams := rfl
@[simp] theorem setCdc_net (k : Nat) (x : Cdc) : (s.setCdc k x).net = s.net := rfl
@[simp] theorem setCdc_clk (k : Nat) (x : Cdc) : (s.setCdc k x).clk = s.clk := rfl
@[simp] theorem setCdc_pwr (k : Nat) (x : Cdc) : (s.setCdc k x).pwr = s.pwr := rfl
@[simp] theorem setCdc_oas (k : Nat) (x : Cdc) : (s.setCdc k x).oas = s.oas := rfl
@[simp] theorem setCdc_sec (k : Nat) (x : Cdc) : (s.setCdc k x).sec = s.sec := rfl
@[simp] theorem setCdc_boot (k : Nat) (x : Cdc) : (s.setCdc k x).boot = s.boot := rfl

/-! ### setLaunch -/

@[simp] theorem setLaunch_pending (l : Nat) (x : Launch) : (s.setLaunch l x).pending = s.pending := rfl
@[simp] theorem setLaunch_free (l : Nat) (x : Launch) : (s.setLaunch l x).free = s.free := rfl
@[simp] theorem setLaunch_out (l : Nat) (x : Launch) : (s.setLaunch l x).out = s.out := rfl
@[simp] theorem setLaunch_now (l : Nat) (x : Launch) : (s.setLaunch l x).now = s.now := rfl
@[simp] theorem setLaunch_hostMem (l : Nat) (x : Launch) : (s.setLaunch l x).hostMem = s.hostMem := rfl
@[simp] theorem setLaunch_devMem (l : Nat) (x : Launch) : (s.setLaunch l x).devMem = s.devMem := rfl
@[simp] theorem setLaunch_regs (l : Nat) (x : Launch) : (s.setLaunch l x).regs = s.regs := rfl
@[simp] theorem setLaunch_mem (l : Nat) (x : Launch) : (s.setLaunch l x).mem = s.mem := rfl
@[simp] theorem setLaunch_cores (l : Nat) (x : Launch) : (s.setLaunch l x).cores = s.cores := rfl
@[simp] theorem setLaunch_rgns (l : Nat) (x : Launch) : (s.setLaunch l x).rgns = s.rgns := rfl
@[simp] theorem setLaunch_cdcs (l : Nat) (x : Launch) : (s.setLaunch l x).cdcs = s.cdcs := rfl
@[simp] theorem setLaunch_link (l : Nat) (x : Launch) : (s.setLaunch l x).link = s.link := rfl
@[simp] theorem setLaunch_flt (l : Nat) (x : Launch) : (s.setLaunch l x).flt = s.flt := rfl
@[simp] theorem setLaunch_acct (l : Nat) (x : Launch) : (s.setLaunch l x).acct = s.acct := rfl
@[simp] theorem setLaunch_heads (l : Nat) (x : Launch) : (s.setLaunch l x).heads = s.heads := rfl
@[simp] theorem setLaunch_engines (l : Nat) (x : Launch) : (s.setLaunch l x).engines = s.engines := rfl
@[simp] theorem setLaunch_streams (l : Nat) (x : Launch) : (s.setLaunch l x).streams = s.streams := rfl
@[simp] theorem setLaunch_net (l : Nat) (x : Launch) : (s.setLaunch l x).net = s.net := rfl
@[simp] theorem setLaunch_clk (l : Nat) (x : Launch) : (s.setLaunch l x).clk = s.clk := rfl
@[simp] theorem setLaunch_pwr (l : Nat) (x : Launch) : (s.setLaunch l x).pwr = s.pwr := rfl
@[simp] theorem setLaunch_oas (l : Nat) (x : Launch) : (s.setLaunch l x).oas = s.oas := rfl
@[simp] theorem setLaunch_sec (l : Nat) (x : Launch) : (s.setLaunch l x).sec = s.sec := rfl
@[simp] theorem setLaunch_boot (l : Nat) (x : Launch) : (s.setLaunch l x).boot = s.boot := rfl

/-! ### setQueue -/

@[simp] theorem setQueue_pending (q : Nat) (x : Queue) : (s.setQueue q x).pending = s.pending := rfl
@[simp] theorem setQueue_free (q : Nat) (x : Queue) : (s.setQueue q x).free = s.free := rfl
@[simp] theorem setQueue_out (q : Nat) (x : Queue) : (s.setQueue q x).out = s.out := rfl
@[simp] theorem setQueue_now (q : Nat) (x : Queue) : (s.setQueue q x).now = s.now := rfl
@[simp] theorem setQueue_hostMem (q : Nat) (x : Queue) : (s.setQueue q x).hostMem = s.hostMem := rfl
@[simp] theorem setQueue_devMem (q : Nat) (x : Queue) : (s.setQueue q x).devMem = s.devMem := rfl
@[simp] theorem setQueue_regs (q : Nat) (x : Queue) : (s.setQueue q x).regs = s.regs := rfl
@[simp] theorem setQueue_mem (q : Nat) (x : Queue) : (s.setQueue q x).mem = s.mem := rfl
@[simp] theorem setQueue_cores (q : Nat) (x : Queue) : (s.setQueue q x).cores = s.cores := rfl
@[simp] theorem setQueue_rgns (q : Nat) (x : Queue) : (s.setQueue q x).rgns = s.rgns := rfl
@[simp] theorem setQueue_cdcs (q : Nat) (x : Queue) : (s.setQueue q x).cdcs = s.cdcs := rfl
@[simp] theorem setQueue_link (q : Nat) (x : Queue) : (s.setQueue q x).link = s.link := rfl
@[simp] theorem setQueue_flt (q : Nat) (x : Queue) : (s.setQueue q x).flt = s.flt := rfl
@[simp] theorem setQueue_acct (q : Nat) (x : Queue) : (s.setQueue q x).acct = s.acct := rfl
@[simp] theorem setQueue_heads (q : Nat) (x : Queue) : (s.setQueue q x).heads = s.heads := rfl
@[simp] theorem setQueue_engines (q : Nat) (x : Queue) : (s.setQueue q x).engines = s.engines := rfl
@[simp] theorem setQueue_streams (q : Nat) (x : Queue) : (s.setQueue q x).streams = s.streams := rfl
@[simp] theorem setQueue_net (q : Nat) (x : Queue) : (s.setQueue q x).net = s.net := rfl
@[simp] theorem setQueue_clk (q : Nat) (x : Queue) : (s.setQueue q x).clk = s.clk := rfl
@[simp] theorem setQueue_pwr (q : Nat) (x : Queue) : (s.setQueue q x).pwr = s.pwr := rfl
@[simp] theorem setQueue_oas (q : Nat) (x : Queue) : (s.setQueue q x).oas = s.oas := rfl
@[simp] theorem setQueue_sec (q : Nat) (x : Queue) : (s.setQueue q x).sec = s.sec := rfl
@[simp] theorem setQueue_boot (q : Nat) (x : Queue) : (s.setQueue q x).boot = s.boot := rfl

/-! ### setCtx -/

@[simp] theorem setCtx_pending (k : Nat) (x : Ctx) : (s.setCtx k x).pending = s.pending := rfl
@[simp] theorem setCtx_free (k : Nat) (x : Ctx) : (s.setCtx k x).free = s.free := rfl
@[simp] theorem setCtx_out (k : Nat) (x : Ctx) : (s.setCtx k x).out = s.out := rfl
@[simp] theorem setCtx_now (k : Nat) (x : Ctx) : (s.setCtx k x).now = s.now := rfl
@[simp] theorem setCtx_hostMem (k : Nat) (x : Ctx) : (s.setCtx k x).hostMem = s.hostMem := rfl
@[simp] theorem setCtx_devMem (k : Nat) (x : Ctx) : (s.setCtx k x).devMem = s.devMem := rfl
@[simp] theorem setCtx_regs (k : Nat) (x : Ctx) : (s.setCtx k x).regs = s.regs := rfl
@[simp] theorem setCtx_mem (k : Nat) (x : Ctx) : (s.setCtx k x).mem = s.mem := rfl
@[simp] theorem setCtx_cores (k : Nat) (x : Ctx) : (s.setCtx k x).cores = s.cores := rfl
@[simp] theorem setCtx_rgns (k : Nat) (x : Ctx) : (s.setCtx k x).rgns = s.rgns := rfl
@[simp] theorem setCtx_cdcs (k : Nat) (x : Ctx) : (s.setCtx k x).cdcs = s.cdcs := rfl
@[simp] theorem setCtx_link (k : Nat) (x : Ctx) : (s.setCtx k x).link = s.link := rfl
@[simp] theorem setCtx_flt (k : Nat) (x : Ctx) : (s.setCtx k x).flt = s.flt := rfl
@[simp] theorem setCtx_acct (k : Nat) (x : Ctx) : (s.setCtx k x).acct = s.acct := rfl
@[simp] theorem setCtx_heads (k : Nat) (x : Ctx) : (s.setCtx k x).heads = s.heads := rfl
@[simp] theorem setCtx_engines (k : Nat) (x : Ctx) : (s.setCtx k x).engines = s.engines := rfl
@[simp] theorem setCtx_streams (k : Nat) (x : Ctx) : (s.setCtx k x).streams = s.streams := rfl
@[simp] theorem setCtx_net (k : Nat) (x : Ctx) : (s.setCtx k x).net = s.net := rfl
@[simp] theorem setCtx_clk (k : Nat) (x : Ctx) : (s.setCtx k x).clk = s.clk := rfl
@[simp] theorem setCtx_pwr (k : Nat) (x : Ctx) : (s.setCtx k x).pwr = s.pwr := rfl
@[simp] theorem setCtx_oas (k : Nat) (x : Ctx) : (s.setCtx k x).oas = s.oas := rfl
@[simp] theorem setCtx_sec (k : Nat) (x : Ctx) : (s.setCtx k x).sec = s.sec := rfl
@[simp] theorem setCtx_boot (k : Nat) (x : Ctx) : (s.setCtx k x).boot = s.boot := rfl

/-! ### setFunc -/

@[simp] theorem setFunc_pending (f : Nat) (x : Func) : (s.setFunc f x).pending = s.pending := rfl
@[simp] theorem setFunc_free (f : Nat) (x : Func) : (s.setFunc f x).free = s.free := rfl
@[simp] theorem setFunc_out (f : Nat) (x : Func) : (s.setFunc f x).out = s.out := rfl
@[simp] theorem setFunc_now (f : Nat) (x : Func) : (s.setFunc f x).now = s.now := rfl
@[simp] theorem setFunc_hostMem (f : Nat) (x : Func) : (s.setFunc f x).hostMem = s.hostMem := rfl
@[simp] theorem setFunc_devMem (f : Nat) (x : Func) : (s.setFunc f x).devMem = s.devMem := rfl
@[simp] theorem setFunc_regs (f : Nat) (x : Func) : (s.setFunc f x).regs = s.regs := rfl
@[simp] theorem setFunc_fe (f : Nat) (x : Func) : (s.setFunc f x).fe = s.fe := rfl
@[simp] theorem setFunc_mem (f : Nat) (x : Func) : (s.setFunc f x).mem = s.mem := rfl
@[simp] theorem setFunc_cores (f : Nat) (x : Func) : (s.setFunc f x).cores = s.cores := rfl
@[simp] theorem setFunc_rgns (f : Nat) (x : Func) : (s.setFunc f x).rgns = s.rgns := rfl
@[simp] theorem setFunc_cdcs (f : Nat) (x : Func) : (s.setFunc f x).cdcs = s.cdcs := rfl
@[simp] theorem setFunc_flt (f : Nat) (x : Func) : (s.setFunc f x).flt = s.flt := rfl
@[simp] theorem setFunc_acct (f : Nat) (x : Func) : (s.setFunc f x).acct = s.acct := rfl
@[simp] theorem setFunc_heads (f : Nat) (x : Func) : (s.setFunc f x).heads = s.heads := rfl
@[simp] theorem setFunc_engines (f : Nat) (x : Func) : (s.setFunc f x).engines = s.engines := rfl
@[simp] theorem setFunc_streams (f : Nat) (x : Func) : (s.setFunc f x).streams = s.streams := rfl
@[simp] theorem setFunc_net (f : Nat) (x : Func) : (s.setFunc f x).net = s.net := rfl
@[simp] theorem setFunc_clk (f : Nat) (x : Func) : (s.setFunc f x).clk = s.clk := rfl
@[simp] theorem setFunc_pwr (f : Nat) (x : Func) : (s.setFunc f x).pwr = s.pwr := rfl
@[simp] theorem setFunc_oas (f : Nat) (x : Func) : (s.setFunc f x).oas = s.oas := rfl
@[simp] theorem setFunc_sec (f : Nat) (x : Func) : (s.setFunc f x).sec = s.sec := rfl
@[simp] theorem setFunc_boot (f : Nat) (x : Func) : (s.setFunc f x).boot = s.boot := rfl

/-! ### send -/

@[simp] theorem send_pending (m : OutMsg) : (s.send m).pending = s.pending := rfl
@[simp] theorem send_free (m : OutMsg) : (s.send m).free = s.free := rfl
@[simp] theorem send_now (m : OutMsg) : (s.send m).now = s.now := rfl
@[simp] theorem send_hostMem (m : OutMsg) : (s.send m).hostMem = s.hostMem := rfl
@[simp] theorem send_devMem (m : OutMsg) : (s.send m).devMem = s.devMem := rfl
@[simp] theorem send_regs (m : OutMsg) : (s.send m).regs = s.regs := rfl
@[simp] theorem send_fe (m : OutMsg) : (s.send m).fe = s.fe := rfl
@[simp] theorem send_mem (m : OutMsg) : (s.send m).mem = s.mem := rfl
@[simp] theorem send_cores (m : OutMsg) : (s.send m).cores = s.cores := rfl
@[simp] theorem send_rgns (m : OutMsg) : (s.send m).rgns = s.rgns := rfl
@[simp] theorem send_cdcs (m : OutMsg) : (s.send m).cdcs = s.cdcs := rfl
@[simp] theorem send_link (m : OutMsg) : (s.send m).link = s.link := rfl
@[simp] theorem send_flt (m : OutMsg) : (s.send m).flt = s.flt := rfl
@[simp] theorem send_acct (m : OutMsg) : (s.send m).acct = s.acct := rfl
@[simp] theorem send_heads (m : OutMsg) : (s.send m).heads = s.heads := rfl
@[simp] theorem send_engines (m : OutMsg) : (s.send m).engines = s.engines := rfl
@[simp] theorem send_streams (m : OutMsg) : (s.send m).streams = s.streams := rfl
@[simp] theorem send_net (m : OutMsg) : (s.send m).net = s.net := rfl
@[simp] theorem send_clk (m : OutMsg) : (s.send m).clk = s.clk := rfl
@[simp] theorem send_pwr (m : OutMsg) : (s.send m).pwr = s.pwr := rfl
@[simp] theorem send_oas (m : OutMsg) : (s.send m).oas = s.oas := rfl
@[simp] theorem send_sec (m : OutMsg) : (s.send m).sec = s.sec := rfl
@[simp] theorem send_boot (m : OutMsg) : (s.send m).boot = s.boot := rfl

/-! ### tickFree -/

@[simp] theorem tickFree_pending : (s.tickFree).pending = s.pending := rfl
@[simp] theorem tickFree_out : (s.tickFree).out = s.out := rfl
@[simp] theorem tickFree_now : (s.tickFree).now = s.now := rfl
@[simp] theorem tickFree_hostMem : (s.tickFree).hostMem = s.hostMem := rfl
@[simp] theorem tickFree_devMem : (s.tickFree).devMem = s.devMem := rfl
@[simp] theorem tickFree_regs : (s.tickFree).regs = s.regs := rfl
@[simp] theorem tickFree_fe : (s.tickFree).fe = s.fe := rfl
@[simp] theorem tickFree_mem : (s.tickFree).mem = s.mem := rfl
@[simp] theorem tickFree_cores : (s.tickFree).cores = s.cores := rfl
@[simp] theorem tickFree_rgns : (s.tickFree).rgns = s.rgns := rfl
@[simp] theorem tickFree_cdcs : (s.tickFree).cdcs = s.cdcs := rfl
@[simp] theorem tickFree_link : (s.tickFree).link = s.link := rfl
@[simp] theorem tickFree_flt : (s.tickFree).flt = s.flt := rfl
@[simp] theorem tickFree_acct : (s.tickFree).acct = s.acct := rfl
@[simp] theorem tickFree_heads : (s.tickFree).heads = s.heads := rfl
@[simp] theorem tickFree_engines : (s.tickFree).engines = s.engines := rfl
@[simp] theorem tickFree_streams : (s.tickFree).streams = s.streams := rfl
@[simp] theorem tickFree_net : (s.tickFree).net = s.net := rfl
@[simp] theorem tickFree_clk : (s.tickFree).clk = s.clk := rfl
@[simp] theorem tickFree_pwr : (s.tickFree).pwr = s.pwr := rfl
@[simp] theorem tickFree_oas : (s.tickFree).oas = s.oas := rfl
@[simp] theorem tickFree_sec : (s.tickFree).sec = s.sec := rfl
@[simp] theorem tickFree_boot : (s.tickFree).boot = s.boot := rfl

/-! ### setStack -/

@[simp] theorem setStack_pending (k : Nat) (x : Stack) : (setStack s k x).pending = s.pending := rfl
@[simp] theorem setStack_free (k : Nat) (x : Stack) : (setStack s k x).free = s.free := rfl
@[simp] theorem setStack_out (k : Nat) (x : Stack) : (setStack s k x).out = s.out := rfl
@[simp] theorem setStack_now (k : Nat) (x : Stack) : (setStack s k x).now = s.now := rfl
@[simp] theorem setStack_hostMem (k : Nat) (x : Stack) : (setStack s k x).hostMem = s.hostMem := rfl
@[simp] theorem setStack_devMem (k : Nat) (x : Stack) : (setStack s k x).devMem = s.devMem := rfl
@[simp] theorem setStack_regs (k : Nat) (x : Stack) : (setStack s k x).regs = s.regs := rfl
@[simp] theorem setStack_fe (k : Nat) (x : Stack) : (setStack s k x).fe = s.fe := rfl
@[simp] theorem setStack_cores (k : Nat) (x : Stack) : (setStack s k x).cores = s.cores := rfl
@[simp] theorem setStack_rgns (k : Nat) (x : Stack) : (setStack s k x).rgns = s.rgns := rfl
@[simp] theorem setStack_cdcs (k : Nat) (x : Stack) : (setStack s k x).cdcs = s.cdcs := rfl
@[simp] theorem setStack_link (k : Nat) (x : Stack) : (setStack s k x).link = s.link := rfl
@[simp] theorem setStack_flt (k : Nat) (x : Stack) : (setStack s k x).flt = s.flt := rfl
@[simp] theorem setStack_acct (k : Nat) (x : Stack) : (setStack s k x).acct = s.acct := rfl
@[simp] theorem setStack_heads (k : Nat) (x : Stack) : (setStack s k x).heads = s.heads := rfl
@[simp] theorem setStack_engines (k : Nat) (x : Stack) : (setStack s k x).engines = s.engines := rfl
@[simp] theorem setStack_streams (k : Nat) (x : Stack) : (setStack s k x).streams = s.streams := rfl
@[simp] theorem setStack_net (k : Nat) (x : Stack) : (setStack s k x).net = s.net := rfl
@[simp] theorem setStack_clk (k : Nat) (x : Stack) : (setStack s k x).clk = s.clk := rfl
@[simp] theorem setStack_pwr (k : Nat) (x : Stack) : (setStack s k x).pwr = s.pwr := rfl
@[simp] theorem setStack_oas (k : Nat) (x : Stack) : (setStack s k x).oas = s.oas := rfl
@[simp] theorem setStack_sec (k : Nat) (x : Stack) : (setStack s k x).sec = s.sec := rfl
@[simp] theorem setStack_boot (k : Nat) (x : Stack) : (setStack s k x).boot = s.boot := rfl

/-! ### setFrame -/

@[simp] theorem setFrame_pending (f : Nat) (x : FrameState) : (setFrame s f x).pending = s.pending := rfl
@[simp] theorem setFrame_free (f : Nat) (x : FrameState) : (setFrame s f x).free = s.free := rfl
@[simp] theorem setFrame_out (f : Nat) (x : FrameState) : (setFrame s f x).out = s.out := rfl
@[simp] theorem setFrame_now (f : Nat) (x : FrameState) : (setFrame s f x).now = s.now := rfl
@[simp] theorem setFrame_hostMem (f : Nat) (x : FrameState) : (setFrame s f x).hostMem = s.hostMem := rfl
@[simp] theorem setFrame_devMem (f : Nat) (x : FrameState) : (setFrame s f x).devMem = s.devMem := rfl
@[simp] theorem setFrame_regs (f : Nat) (x : FrameState) : (setFrame s f x).regs = s.regs := rfl
@[simp] theorem setFrame_fe (f : Nat) (x : FrameState) : (setFrame s f x).fe = s.fe := rfl
@[simp] theorem setFrame_cores (f : Nat) (x : FrameState) : (setFrame s f x).cores = s.cores := rfl
@[simp] theorem setFrame_rgns (f : Nat) (x : FrameState) : (setFrame s f x).rgns = s.rgns := rfl
@[simp] theorem setFrame_cdcs (f : Nat) (x : FrameState) : (setFrame s f x).cdcs = s.cdcs := rfl
@[simp] theorem setFrame_link (f : Nat) (x : FrameState) : (setFrame s f x).link = s.link := rfl
@[simp] theorem setFrame_flt (f : Nat) (x : FrameState) : (setFrame s f x).flt = s.flt := rfl
@[simp] theorem setFrame_acct (f : Nat) (x : FrameState) : (setFrame s f x).acct = s.acct := rfl
@[simp] theorem setFrame_heads (f : Nat) (x : FrameState) : (setFrame s f x).heads = s.heads := rfl
@[simp] theorem setFrame_engines (f : Nat) (x : FrameState) : (setFrame s f x).engines = s.engines := rfl
@[simp] theorem setFrame_streams (f : Nat) (x : FrameState) : (setFrame s f x).streams = s.streams := rfl
@[simp] theorem setFrame_net (f : Nat) (x : FrameState) : (setFrame s f x).net = s.net := rfl
@[simp] theorem setFrame_clk (f : Nat) (x : FrameState) : (setFrame s f x).clk = s.clk := rfl
@[simp] theorem setFrame_pwr (f : Nat) (x : FrameState) : (setFrame s f x).pwr = s.pwr := rfl
@[simp] theorem setFrame_oas (f : Nat) (x : FrameState) : (setFrame s f x).oas = s.oas := rfl
@[simp] theorem setFrame_sec (f : Nat) (x : FrameState) : (setFrame s f x).sec = s.sec := rfl
@[simp] theorem setFrame_boot (f : Nat) (x : FrameState) : (setFrame s f x).boot = s.boot := rfl

/-! ### setFence -/

@[simp] theorem setFence_pending (i : Nat) (f : Fence) : (setFence s i f).pending = s.pending := rfl
@[simp] theorem setFence_free (i : Nat) (f : Fence) : (setFence s i f).free = s.free := rfl
@[simp] theorem setFence_out (i : Nat) (f : Fence) : (setFence s i f).out = s.out := rfl
@[simp] theorem setFence_now (i : Nat) (f : Fence) : (setFence s i f).now = s.now := rfl
@[simp] theorem setFence_hostMem (i : Nat) (f : Fence) : (setFence s i f).hostMem = s.hostMem := rfl
@[simp] theorem setFence_devMem (i : Nat) (f : Fence) : (setFence s i f).devMem = s.devMem := rfl
@[simp] theorem setFence_regs (i : Nat) (f : Fence) : (setFence s i f).regs = s.regs := rfl
@[simp] theorem setFence_mem (i : Nat) (f : Fence) : (setFence s i f).mem = s.mem := rfl
@[simp] theorem setFence_cores (i : Nat) (f : Fence) : (setFence s i f).cores = s.cores := rfl
@[simp] theorem setFence_rgns (i : Nat) (f : Fence) : (setFence s i f).rgns = s.rgns := rfl
@[simp] theorem setFence_cdcs (i : Nat) (f : Fence) : (setFence s i f).cdcs = s.cdcs := rfl
@[simp] theorem setFence_link (i : Nat) (f : Fence) : (setFence s i f).link = s.link := rfl
@[simp] theorem setFence_flt (i : Nat) (f : Fence) : (setFence s i f).flt = s.flt := rfl
@[simp] theorem setFence_acct (i : Nat) (f : Fence) : (setFence s i f).acct = s.acct := rfl
@[simp] theorem setFence_heads (i : Nat) (f : Fence) : (setFence s i f).heads = s.heads := rfl
@[simp] theorem setFence_engines (i : Nat) (f : Fence) : (setFence s i f).engines = s.engines := rfl
@[simp] theorem setFence_streams (i : Nat) (f : Fence) : (setFence s i f).streams = s.streams := rfl
@[simp] theorem setFence_net (i : Nat) (f : Fence) : (setFence s i f).net = s.net := rfl
@[simp] theorem setFence_clk (i : Nat) (f : Fence) : (setFence s i f).clk = s.clk := rfl
@[simp] theorem setFence_pwr (i : Nat) (f : Fence) : (setFence s i f).pwr = s.pwr := rfl
@[simp] theorem setFence_oas (i : Nat) (f : Fence) : (setFence s i f).oas = s.oas := rfl
@[simp] theorem setFence_sec (i : Nat) (f : Fence) : (setFence s i f).sec = s.sec := rfl
@[simp] theorem setFence_boot (i : Nat) (f : Fence) : (setFence s i f).boot = s.boot := rfl

/-! ### setObj -/

@[simp] theorem setObj_pending (c h : Nat) (o : Obj) : (setObj s c h o).pending = s.pending := rfl
@[simp] theorem setObj_free (c h : Nat) (o : Obj) : (setObj s c h o).free = s.free := rfl
@[simp] theorem setObj_out (c h : Nat) (o : Obj) : (setObj s c h o).out = s.out := rfl
@[simp] theorem setObj_now (c h : Nat) (o : Obj) : (setObj s c h o).now = s.now := rfl
@[simp] theorem setObj_hostMem (c h : Nat) (o : Obj) : (setObj s c h o).hostMem = s.hostMem := rfl
@[simp] theorem setObj_devMem (c h : Nat) (o : Obj) : (setObj s c h o).devMem = s.devMem := rfl
@[simp] theorem setObj_regs (c h : Nat) (o : Obj) : (setObj s c h o).regs = s.regs := rfl
@[simp] theorem setObj_mem (c h : Nat) (o : Obj) : (setObj s c h o).mem = s.mem := rfl
@[simp] theorem setObj_cores (c h : Nat) (o : Obj) : (setObj s c h o).cores = s.cores := rfl
@[simp] theorem setObj_rgns (c h : Nat) (o : Obj) : (setObj s c h o).rgns = s.rgns := rfl
@[simp] theorem setObj_cdcs (c h : Nat) (o : Obj) : (setObj s c h o).cdcs = s.cdcs := rfl
@[simp] theorem setObj_link (c h : Nat) (o : Obj) : (setObj s c h o).link = s.link := rfl
@[simp] theorem setObj_flt (c h : Nat) (o : Obj) : (setObj s c h o).flt = s.flt := rfl
@[simp] theorem setObj_acct (c h : Nat) (o : Obj) : (setObj s c h o).acct = s.acct := rfl
@[simp] theorem setObj_heads (c h : Nat) (o : Obj) : (setObj s c h o).heads = s.heads := rfl
@[simp] theorem setObj_engines (c h : Nat) (o : Obj) : (setObj s c h o).engines = s.engines := rfl
@[simp] theorem setObj_streams (c h : Nat) (o : Obj) : (setObj s c h o).streams = s.streams := rfl
@[simp] theorem setObj_net (c h : Nat) (o : Obj) : (setObj s c h o).net = s.net := rfl
@[simp] theorem setObj_clk (c h : Nat) (o : Obj) : (setObj s c h o).clk = s.clk := rfl
@[simp] theorem setObj_pwr (c h : Nat) (o : Obj) : (setObj s c h o).pwr = s.pwr := rfl
@[simp] theorem setObj_oas (c h : Nat) (o : Obj) : (setObj s c h o).oas = s.oas := rfl
@[simp] theorem setObj_sec (c h : Nat) (o : Obj) : (setObj s c h o).sec = s.sec := rfl
@[simp] theorem setObj_boot (c h : Nat) (o : Obj) : (setObj s c h o).boot = s.boot := rfl

/-! ### wr -/

@[simp] theorem wr_pending (off v : Nat) : (wr s off v).pending = s.pending := rfl
@[simp] theorem wr_free (off v : Nat) : (wr s off v).free = s.free := rfl
@[simp] theorem wr_out (off v : Nat) : (wr s off v).out = s.out := rfl
@[simp] theorem wr_now (off v : Nat) : (wr s off v).now = s.now := rfl
@[simp] theorem wr_hostMem (off v : Nat) : (wr s off v).hostMem = s.hostMem := rfl
@[simp] theorem wr_devMem (off v : Nat) : (wr s off v).devMem = s.devMem := rfl
@[simp] theorem wr_fe (off v : Nat) : (wr s off v).fe = s.fe := rfl
@[simp] theorem wr_mem (off v : Nat) : (wr s off v).mem = s.mem := rfl
@[simp] theorem wr_cores (off v : Nat) : (wr s off v).cores = s.cores := rfl
@[simp] theorem wr_rgns (off v : Nat) : (wr s off v).rgns = s.rgns := rfl
@[simp] theorem wr_cdcs (off v : Nat) : (wr s off v).cdcs = s.cdcs := rfl
@[simp] theorem wr_link (off v : Nat) : (wr s off v).link = s.link := rfl
@[simp] theorem wr_flt (off v : Nat) : (wr s off v).flt = s.flt := rfl
@[simp] theorem wr_acct (off v : Nat) : (wr s off v).acct = s.acct := rfl
@[simp] theorem wr_heads (off v : Nat) : (wr s off v).heads = s.heads := rfl
@[simp] theorem wr_engines (off v : Nat) : (wr s off v).engines = s.engines := rfl
@[simp] theorem wr_streams (off v : Nat) : (wr s off v).streams = s.streams := rfl
@[simp] theorem wr_net (off v : Nat) : (wr s off v).net = s.net := rfl
@[simp] theorem wr_clk (off v : Nat) : (wr s off v).clk = s.clk := rfl
@[simp] theorem wr_pwr (off v : Nat) : (wr s off v).pwr = s.pwr := rfl
@[simp] theorem wr_oas (off v : Nat) : (wr s off v).oas = s.oas := rfl
@[simp] theorem wr_sec (off v : Nat) : (wr s off v).sec = s.sec := rfl
@[simp] theorem wr_boot (off v : Nat) : (wr s off v).boot = s.boot := rfl

/-! ### setHead -/

@[simp] theorem setHead_pending (h : Nat) (x : Head) : (setHead s h x).pending = s.pending := rfl
@[simp] theorem setHead_free (h : Nat) (x : Head) : (setHead s h x).free = s.free := rfl
@[simp] theorem setHead_out (h : Nat) (x : Head) : (setHead s h x).out = s.out := rfl
@[simp] theorem setHead_now (h : Nat) (x : Head) : (setHead s h x).now = s.now := rfl
@[simp] theorem setHead_hostMem (h : Nat) (x : Head) : (setHead s h x).hostMem = s.hostMem := rfl
@[simp] theorem setHead_devMem (h : Nat) (x : Head) : (setHead s h x).devMem = s.devMem := rfl
@[simp] theorem setHead_regs (h : Nat) (x : Head) : (setHead s h x).regs = s.regs := rfl
@[simp] theorem setHead_fe (h : Nat) (x : Head) : (setHead s h x).fe = s.fe := rfl
@[simp] theorem setHead_mem (h : Nat) (x : Head) : (setHead s h x).mem = s.mem := rfl
@[simp] theorem setHead_cores (h : Nat) (x : Head) : (setHead s h x).cores = s.cores := rfl
@[simp] theorem setHead_rgns (h : Nat) (x : Head) : (setHead s h x).rgns = s.rgns := rfl
@[simp] theorem setHead_cdcs (h : Nat) (x : Head) : (setHead s h x).cdcs = s.cdcs := rfl
@[simp] theorem setHead_link (h : Nat) (x : Head) : (setHead s h x).link = s.link := rfl
@[simp] theorem setHead_flt (h : Nat) (x : Head) : (setHead s h x).flt = s.flt := rfl
@[simp] theorem setHead_acct (h : Nat) (x : Head) : (setHead s h x).acct = s.acct := rfl
@[simp] theorem setHead_engines (h : Nat) (x : Head) : (setHead s h x).engines = s.engines := rfl
@[simp] theorem setHead_streams (h : Nat) (x : Head) : (setHead s h x).streams = s.streams := rfl
@[simp] theorem setHead_net (h : Nat) (x : Head) : (setHead s h x).net = s.net := rfl
@[simp] theorem setHead_clk (h : Nat) (x : Head) : (setHead s h x).clk = s.clk := rfl
@[simp] theorem setHead_pwr (h : Nat) (x : Head) : (setHead s h x).pwr = s.pwr := rfl
@[simp] theorem setHead_oas (h : Nat) (x : Head) : (setHead s h x).oas = s.oas := rfl
@[simp] theorem setHead_sec (h : Nat) (x : Head) : (setHead s h x).sec = s.sec := rfl
@[simp] theorem setHead_boot (h : Nat) (x : Head) : (setHead s h x).boot = s.boot := rfl

/-! ### setEngine -/

@[simp] theorem setEngine_pending (e : Nat) (x : Engine) : (setEngine s e x).pending = s.pending := rfl
@[simp] theorem setEngine_free (e : Nat) (x : Engine) : (setEngine s e x).free = s.free := rfl
@[simp] theorem setEngine_out (e : Nat) (x : Engine) : (setEngine s e x).out = s.out := rfl
@[simp] theorem setEngine_now (e : Nat) (x : Engine) : (setEngine s e x).now = s.now := rfl
@[simp] theorem setEngine_hostMem (e : Nat) (x : Engine) : (setEngine s e x).hostMem = s.hostMem := rfl
@[simp] theorem setEngine_devMem (e : Nat) (x : Engine) : (setEngine s e x).devMem = s.devMem := rfl
@[simp] theorem setEngine_regs (e : Nat) (x : Engine) : (setEngine s e x).regs = s.regs := rfl
@[simp] theorem setEngine_fe (e : Nat) (x : Engine) : (setEngine s e x).fe = s.fe := rfl
@[simp] theorem setEngine_mem (e : Nat) (x : Engine) : (setEngine s e x).mem = s.mem := rfl
@[simp] theorem setEngine_cores (e : Nat) (x : Engine) : (setEngine s e x).cores = s.cores := rfl
@[simp] theorem setEngine_rgns (e : Nat) (x : Engine) : (setEngine s e x).rgns = s.rgns := rfl
@[simp] theorem setEngine_cdcs (e : Nat) (x : Engine) : (setEngine s e x).cdcs = s.cdcs := rfl
@[simp] theorem setEngine_link (e : Nat) (x : Engine) : (setEngine s e x).link = s.link := rfl
@[simp] theorem setEngine_flt (e : Nat) (x : Engine) : (setEngine s e x).flt = s.flt := rfl
@[simp] theorem setEngine_acct (e : Nat) (x : Engine) : (setEngine s e x).acct = s.acct := rfl
@[simp] theorem setEngine_heads (e : Nat) (x : Engine) : (setEngine s e x).heads = s.heads := rfl
@[simp] theorem setEngine_streams (e : Nat) (x : Engine) : (setEngine s e x).streams = s.streams := rfl
@[simp] theorem setEngine_net (e : Nat) (x : Engine) : (setEngine s e x).net = s.net := rfl
@[simp] theorem setEngine_clk (e : Nat) (x : Engine) : (setEngine s e x).clk = s.clk := rfl
@[simp] theorem setEngine_pwr (e : Nat) (x : Engine) : (setEngine s e x).pwr = s.pwr := rfl
@[simp] theorem setEngine_oas (e : Nat) (x : Engine) : (setEngine s e x).oas = s.oas := rfl
@[simp] theorem setEngine_sec (e : Nat) (x : Engine) : (setEngine s e x).sec = s.sec := rfl
@[simp] theorem setEngine_boot (e : Nat) (x : Engine) : (setEngine s e x).boot = s.boot := rfl

/-! ### setStream -/

@[simp] theorem setStream_pending (t : Stream) : (setStream s t).pending = s.pending := rfl
@[simp] theorem setStream_free (t : Stream) : (setStream s t).free = s.free := rfl
@[simp] theorem setStream_out (t : Stream) : (setStream s t).out = s.out := rfl
@[simp] theorem setStream_now (t : Stream) : (setStream s t).now = s.now := rfl
@[simp] theorem setStream_hostMem (t : Stream) : (setStream s t).hostMem = s.hostMem := rfl
@[simp] theorem setStream_devMem (t : Stream) : (setStream s t).devMem = s.devMem := rfl
@[simp] theorem setStream_regs (t : Stream) : (setStream s t).regs = s.regs := rfl
@[simp] theorem setStream_fe (t : Stream) : (setStream s t).fe = s.fe := rfl
@[simp] theorem setStream_mem (t : Stream) : (setStream s t).mem = s.mem := rfl
@[simp] theorem setStream_cores (t : Stream) : (setStream s t).cores = s.cores := rfl
@[simp] theorem setStream_rgns (t : Stream) : (setStream s t).rgns = s.rgns := rfl
@[simp] theorem setStream_cdcs (t : Stream) : (setStream s t).cdcs = s.cdcs := rfl
@[simp] theorem setStream_link (t : Stream) : (setStream s t).link = s.link := rfl
@[simp] theorem setStream_flt (t : Stream) : (setStream s t).flt = s.flt := rfl
@[simp] theorem setStream_acct (t : Stream) : (setStream s t).acct = s.acct := rfl
@[simp] theorem setStream_heads (t : Stream) : (setStream s t).heads = s.heads := rfl
@[simp] theorem setStream_engines (t : Stream) : (setStream s t).engines = s.engines := rfl
@[simp] theorem setStream_net (t : Stream) : (setStream s t).net = s.net := rfl
@[simp] theorem setStream_clk (t : Stream) : (setStream s t).clk = s.clk := rfl
@[simp] theorem setStream_pwr (t : Stream) : (setStream s t).pwr = s.pwr := rfl
@[simp] theorem setStream_oas (t : Stream) : (setStream s t).oas = s.oas := rfl
@[simp] theorem setStream_sec (t : Stream) : (setStream s t).sec = s.sec := rfl
@[simp] theorem setStream_boot (t : Stream) : (setStream s t).boot = s.boot := rfl

/-! ### setSub -/

@[simp] theorem setSub_pending (q : Nat) (x : Sub) : (setSub s q x).pending = s.pending := rfl
@[simp] theorem setSub_free (q : Nat) (x : Sub) : (setSub s q x).free = s.free := rfl
@[simp] theorem setSub_out (q : Nat) (x : Sub) : (setSub s q x).out = s.out := rfl
@[simp] theorem setSub_now (q : Nat) (x : Sub) : (setSub s q x).now = s.now := rfl
@[simp] theorem setSub_hostMem (q : Nat) (x : Sub) : (setSub s q x).hostMem = s.hostMem := rfl
@[simp] theorem setSub_devMem (q : Nat) (x : Sub) : (setSub s q x).devMem = s.devMem := rfl
@[simp] theorem setSub_regs (q : Nat) (x : Sub) : (setSub s q x).regs = s.regs := rfl
@[simp] theorem setSub_fe (q : Nat) (x : Sub) : (setSub s q x).fe = s.fe := rfl
@[simp] theorem setSub_mem (q : Nat) (x : Sub) : (setSub s q x).mem = s.mem := rfl
@[simp] theorem setSub_cores (q : Nat) (x : Sub) : (setSub s q x).cores = s.cores := rfl
@[simp] theorem setSub_rgns (q : Nat) (x : Sub) : (setSub s q x).rgns = s.rgns := rfl
@[simp] theorem setSub_cdcs (q : Nat) (x : Sub) : (setSub s q x).cdcs = s.cdcs := rfl
@[simp] theorem setSub_link (q : Nat) (x : Sub) : (setSub s q x).link = s.link := rfl
@[simp] theorem setSub_flt (q : Nat) (x : Sub) : (setSub s q x).flt = s.flt := rfl
@[simp] theorem setSub_acct (q : Nat) (x : Sub) : (setSub s q x).acct = s.acct := rfl
@[simp] theorem setSub_heads (q : Nat) (x : Sub) : (setSub s q x).heads = s.heads := rfl
@[simp] theorem setSub_engines (q : Nat) (x : Sub) : (setSub s q x).engines = s.engines := rfl
@[simp] theorem setSub_streams (q : Nat) (x : Sub) : (setSub s q x).streams = s.streams := rfl
@[simp] theorem setSub_clk (q : Nat) (x : Sub) : (setSub s q x).clk = s.clk := rfl
@[simp] theorem setSub_pwr (q : Nat) (x : Sub) : (setSub s q x).pwr = s.pwr := rfl
@[simp] theorem setSub_oas (q : Nat) (x : Sub) : (setSub s q x).oas = s.oas := rfl
@[simp] theorem setSub_sec (q : Nat) (x : Sub) : (setSub s q x).sec = s.sec := rfl
@[simp] theorem setSub_boot (q : Nat) (x : Sub) : (setSub s q x).boot = s.boot := rfl

/-! ### setNode -/

@[simp] theorem setNode_pending (i : Nat) (n : Node) : (setNode s i n).pending = s.pending := rfl
@[simp] theorem setNode_free (i : Nat) (n : Node) : (setNode s i n).free = s.free := rfl
@[simp] theorem setNode_out (i : Nat) (n : Node) : (setNode s i n).out = s.out := rfl
@[simp] theorem setNode_now (i : Nat) (n : Node) : (setNode s i n).now = s.now := rfl
@[simp] theorem setNode_hostMem (i : Nat) (n : Node) : (setNode s i n).hostMem = s.hostMem := rfl
@[simp] theorem setNode_devMem (i : Nat) (n : Node) : (setNode s i n).devMem = s.devMem := rfl
@[simp] theorem setNode_regs (i : Nat) (n : Node) : (setNode s i n).regs = s.regs := rfl
@[simp] theorem setNode_fe (i : Nat) (n : Node) : (setNode s i n).fe = s.fe := rfl
@[simp] theorem setNode_mem (i : Nat) (n : Node) : (setNode s i n).mem = s.mem := rfl
@[simp] theorem setNode_cores (i : Nat) (n : Node) : (setNode s i n).cores = s.cores := rfl
@[simp] theorem setNode_rgns (i : Nat) (n : Node) : (setNode s i n).rgns = s.rgns := rfl
@[simp] theorem setNode_cdcs (i : Nat) (n : Node) : (setNode s i n).cdcs = s.cdcs := rfl
@[simp] theorem setNode_link (i : Nat) (n : Node) : (setNode s i n).link = s.link := rfl
@[simp] theorem setNode_flt (i : Nat) (n : Node) : (setNode s i n).flt = s.flt := rfl
@[simp] theorem setNode_acct (i : Nat) (n : Node) : (setNode s i n).acct = s.acct := rfl
@[simp] theorem setNode_heads (i : Nat) (n : Node) : (setNode s i n).heads = s.heads := rfl
@[simp] theorem setNode_engines (i : Nat) (n : Node) : (setNode s i n).engines = s.engines := rfl
@[simp] theorem setNode_streams (i : Nat) (n : Node) : (setNode s i n).streams = s.streams := rfl
@[simp] theorem setNode_clk (i : Nat) (n : Node) : (setNode s i n).clk = s.clk := rfl
@[simp] theorem setNode_pwr (i : Nat) (n : Node) : (setNode s i n).pwr = s.pwr := rfl
@[simp] theorem setNode_oas (i : Nat) (n : Node) : (setNode s i n).oas = s.oas := rfl
@[simp] theorem setNode_sec (i : Nat) (n : Node) : (setNode s i n).sec = s.sec := rfl
@[simp] theorem setNode_boot (i : Nat) (n : Node) : (setNode s i n).boot = s.boot := rfl

/-! ### setJob -/

@[simp] theorem setJob_pending (k : Nat) (j : Job) : (setJob s k j).pending = s.pending := rfl
@[simp] theorem setJob_free (k : Nat) (j : Job) : (setJob s k j).free = s.free := rfl
@[simp] theorem setJob_out (k : Nat) (j : Job) : (setJob s k j).out = s.out := rfl
@[simp] theorem setJob_now (k : Nat) (j : Job) : (setJob s k j).now = s.now := rfl
@[simp] theorem setJob_hostMem (k : Nat) (j : Job) : (setJob s k j).hostMem = s.hostMem := rfl
@[simp] theorem setJob_devMem (k : Nat) (j : Job) : (setJob s k j).devMem = s.devMem := rfl
@[simp] theorem setJob_regs (k : Nat) (j : Job) : (setJob s k j).regs = s.regs := rfl
@[simp] theorem setJob_fe (k : Nat) (j : Job) : (setJob s k j).fe = s.fe := rfl
@[simp] theorem setJob_mem (k : Nat) (j : Job) : (setJob s k j).mem = s.mem := rfl
@[simp] theorem setJob_cores (k : Nat) (j : Job) : (setJob s k j).cores = s.cores := rfl
@[simp] theorem setJob_rgns (k : Nat) (j : Job) : (setJob s k j).rgns = s.rgns := rfl
@[simp] theorem setJob_cdcs (k : Nat) (j : Job) : (setJob s k j).cdcs = s.cdcs := rfl
@[simp] theorem setJob_link (k : Nat) (j : Job) : (setJob s k j).link = s.link := rfl
@[simp] theorem setJob_flt (k : Nat) (j : Job) : (setJob s k j).flt = s.flt := rfl
@[simp] theorem setJob_acct (k : Nat) (j : Job) : (setJob s k j).acct = s.acct := rfl
@[simp] theorem setJob_heads (k : Nat) (j : Job) : (setJob s k j).heads = s.heads := rfl
@[simp] theorem setJob_engines (k : Nat) (j : Job) : (setJob s k j).engines = s.engines := rfl
@[simp] theorem setJob_streams (k : Nat) (j : Job) : (setJob s k j).streams = s.streams := rfl
@[simp] theorem setJob_clk (k : Nat) (j : Job) : (setJob s k j).clk = s.clk := rfl
@[simp] theorem setJob_pwr (k : Nat) (j : Job) : (setJob s k j).pwr = s.pwr := rfl
@[simp] theorem setJob_oas (k : Nat) (j : Job) : (setJob s k j).oas = s.oas := rfl
@[simp] theorem setJob_sec (k : Nat) (j : Job) : (setJob s k j).sec = s.sec := rfl
@[simp] theorem setJob_boot (k : Nat) (j : Job) : (setJob s k j).boot = s.boot := rfl

/-! ### setExport -/

@[simp] theorem setExport_pending (i : Nat) (e : Export) : (setExport s i e).pending = s.pending := rfl
@[simp] theorem setExport_free (i : Nat) (e : Export) : (setExport s i e).free = s.free := rfl
@[simp] theorem setExport_out (i : Nat) (e : Export) : (setExport s i e).out = s.out := rfl
@[simp] theorem setExport_now (i : Nat) (e : Export) : (setExport s i e).now = s.now := rfl
@[simp] theorem setExport_hostMem (i : Nat) (e : Export) : (setExport s i e).hostMem = s.hostMem := rfl
@[simp] theorem setExport_devMem (i : Nat) (e : Export) : (setExport s i e).devMem = s.devMem := rfl
@[simp] theorem setExport_regs (i : Nat) (e : Export) : (setExport s i e).regs = s.regs := rfl
@[simp] theorem setExport_fe (i : Nat) (e : Export) : (setExport s i e).fe = s.fe := rfl
@[simp] theorem setExport_mem (i : Nat) (e : Export) : (setExport s i e).mem = s.mem := rfl
@[simp] theorem setExport_cores (i : Nat) (e : Export) : (setExport s i e).cores = s.cores := rfl
@[simp] theorem setExport_rgns (i : Nat) (e : Export) : (setExport s i e).rgns = s.rgns := rfl
@[simp] theorem setExport_cdcs (i : Nat) (e : Export) : (setExport s i e).cdcs = s.cdcs := rfl
@[simp] theorem setExport_link (i : Nat) (e : Export) : (setExport s i e).link = s.link := rfl
@[simp] theorem setExport_flt (i : Nat) (e : Export) : (setExport s i e).flt = s.flt := rfl
@[simp] theorem setExport_acct (i : Nat) (e : Export) : (setExport s i e).acct = s.acct := rfl
@[simp] theorem setExport_heads (i : Nat) (e : Export) : (setExport s i e).heads = s.heads := rfl
@[simp] theorem setExport_engines (i : Nat) (e : Export) : (setExport s i e).engines = s.engines := rfl
@[simp] theorem setExport_streams (i : Nat) (e : Export) : (setExport s i e).streams = s.streams := rfl
@[simp] theorem setExport_clk (i : Nat) (e : Export) : (setExport s i e).clk = s.clk := rfl
@[simp] theorem setExport_pwr (i : Nat) (e : Export) : (setExport s i e).pwr = s.pwr := rfl
@[simp] theorem setExport_oas (i : Nat) (e : Export) : (setExport s i e).oas = s.oas := rfl
@[simp] theorem setExport_sec (i : Nat) (e : Export) : (setExport s i e).sec = s.sec := rfl
@[simp] theorem setExport_boot (i : Nat) (e : Export) : (setExport s i e).boot = s.boot := rfl

/-! ### setQp -/

@[simp] theorem setQp_pending (n : Nat) (x : Qp) : (setQp s n x).pending = s.pending := rfl
@[simp] theorem setQp_free (n : Nat) (x : Qp) : (setQp s n x).free = s.free := rfl
@[simp] theorem setQp_out (n : Nat) (x : Qp) : (setQp s n x).out = s.out := rfl
@[simp] theorem setQp_now (n : Nat) (x : Qp) : (setQp s n x).now = s.now := rfl
@[simp] theorem setQp_hostMem (n : Nat) (x : Qp) : (setQp s n x).hostMem = s.hostMem := rfl
@[simp] theorem setQp_devMem (n : Nat) (x : Qp) : (setQp s n x).devMem = s.devMem := rfl
@[simp] theorem setQp_regs (n : Nat) (x : Qp) : (setQp s n x).regs = s.regs := rfl
@[simp] theorem setQp_fe (n : Nat) (x : Qp) : (setQp s n x).fe = s.fe := rfl
@[simp] theorem setQp_mem (n : Nat) (x : Qp) : (setQp s n x).mem = s.mem := rfl
@[simp] theorem setQp_cores (n : Nat) (x : Qp) : (setQp s n x).cores = s.cores := rfl
@[simp] theorem setQp_rgns (n : Nat) (x : Qp) : (setQp s n x).rgns = s.rgns := rfl
@[simp] theorem setQp_cdcs (n : Nat) (x : Qp) : (setQp s n x).cdcs = s.cdcs := rfl
@[simp] theorem setQp_link (n : Nat) (x : Qp) : (setQp s n x).link = s.link := rfl
@[simp] theorem setQp_flt (n : Nat) (x : Qp) : (setQp s n x).flt = s.flt := rfl
@[simp] theorem setQp_acct (n : Nat) (x : Qp) : (setQp s n x).acct = s.acct := rfl
@[simp] theorem setQp_heads (n : Nat) (x : Qp) : (setQp s n x).heads = s.heads := rfl
@[simp] theorem setQp_engines (n : Nat) (x : Qp) : (setQp s n x).engines = s.engines := rfl
@[simp] theorem setQp_streams (n : Nat) (x : Qp) : (setQp s n x).streams = s.streams := rfl
@[simp] theorem setQp_clk (n : Nat) (x : Qp) : (setQp s n x).clk = s.clk := rfl
@[simp] theorem setQp_pwr (n : Nat) (x : Qp) : (setQp s n x).pwr = s.pwr := rfl
@[simp] theorem setQp_oas (n : Nat) (x : Qp) : (setQp s n x).oas = s.oas := rfl
@[simp] theorem setQp_sec (n : Nat) (x : Qp) : (setQp s n x).sec = s.sec := rfl
@[simp] theorem setQp_boot (n : Nat) (x : Qp) : (setQp s n x).boot = s.boot := rfl

/-! ### setCmp -/

@[simp] theorem setCmp_pending (n : Nat) (c : Cmp) : (setCmp n c s).pending = s.pending := rfl
@[simp] theorem setCmp_free (n : Nat) (c : Cmp) : (setCmp n c s).free = s.free := rfl
@[simp] theorem setCmp_out (n : Nat) (c : Cmp) : (setCmp n c s).out = s.out := rfl
@[simp] theorem setCmp_now (n : Nat) (c : Cmp) : (setCmp n c s).now = s.now := rfl
@[simp] theorem setCmp_hostMem (n : Nat) (c : Cmp) : (setCmp n c s).hostMem = s.hostMem := rfl
@[simp] theorem setCmp_devMem (n : Nat) (c : Cmp) : (setCmp n c s).devMem = s.devMem := rfl
@[simp] theorem setCmp_regs (n : Nat) (c : Cmp) : (setCmp n c s).regs = s.regs := rfl
@[simp] theorem setCmp_fe (n : Nat) (c : Cmp) : (setCmp n c s).fe = s.fe := rfl
@[simp] theorem setCmp_mem (n : Nat) (c : Cmp) : (setCmp n c s).mem = s.mem := rfl
@[simp] theorem setCmp_cores (n : Nat) (c : Cmp) : (setCmp n c s).cores = s.cores := rfl
@[simp] theorem setCmp_rgns (n : Nat) (c : Cmp) : (setCmp n c s).rgns = s.rgns := rfl
@[simp] theorem setCmp_cdcs (n : Nat) (c : Cmp) : (setCmp n c s).cdcs = s.cdcs := rfl
@[simp] theorem setCmp_link (n : Nat) (c : Cmp) : (setCmp n c s).link = s.link := rfl
@[simp] theorem setCmp_flt (n : Nat) (c : Cmp) : (setCmp n c s).flt = s.flt := rfl
@[simp] theorem setCmp_acct (n : Nat) (c : Cmp) : (setCmp n c s).acct = s.acct := rfl
@[simp] theorem setCmp_heads (n : Nat) (c : Cmp) : (setCmp n c s).heads = s.heads := rfl
@[simp] theorem setCmp_engines (n : Nat) (c : Cmp) : (setCmp n c s).engines = s.engines := rfl
@[simp] theorem setCmp_streams (n : Nat) (c : Cmp) : (setCmp n c s).streams = s.streams := rfl
@[simp] theorem setCmp_net (n : Nat) (c : Cmp) : (setCmp n c s).net = s.net := rfl
@[simp] theorem setCmp_clk (n : Nat) (c : Cmp) : (setCmp n c s).clk = s.clk := rfl
@[simp] theorem setCmp_pwr (n : Nat) (c : Cmp) : (setCmp n c s).pwr = s.pwr := rfl
@[simp] theorem setCmp_sec (n : Nat) (c : Cmp) : (setCmp n c s).sec = s.sec := rfl
@[simp] theorem setCmp_boot (n : Nat) (c : Cmp) : (setCmp n c s).boot = s.boot := rfl

/-! ### setTemp -/

@[simp] theorem setTemp_pending (t : Nat) (c : TempCmp) : (setTemp t c s).pending = s.pending := rfl
@[simp] theorem setTemp_free (t : Nat) (c : TempCmp) : (setTemp t c s).free = s.free := rfl
@[simp] theorem setTemp_out (t : Nat) (c : TempCmp) : (setTemp t c s).out = s.out := rfl
@[simp] theorem setTemp_now (t : Nat) (c : TempCmp) : (setTemp t c s).now = s.now := rfl
@[simp] theorem setTemp_hostMem (t : Nat) (c : TempCmp) : (setTemp t c s).hostMem = s.hostMem := rfl
@[simp] theorem setTemp_devMem (t : Nat) (c : TempCmp) : (setTemp t c s).devMem = s.devMem := rfl
@[simp] theorem setTemp_regs (t : Nat) (c : TempCmp) : (setTemp t c s).regs = s.regs := rfl
@[simp] theorem setTemp_fe (t : Nat) (c : TempCmp) : (setTemp t c s).fe = s.fe := rfl
@[simp] theorem setTemp_mem (t : Nat) (c : TempCmp) : (setTemp t c s).mem = s.mem := rfl
@[simp] theorem setTemp_cores (t : Nat) (c : TempCmp) : (setTemp t c s).cores = s.cores := rfl
@[simp] theorem setTemp_rgns (t : Nat) (c : TempCmp) : (setTemp t c s).rgns = s.rgns := rfl
@[simp] theorem setTemp_cdcs (t : Nat) (c : TempCmp) : (setTemp t c s).cdcs = s.cdcs := rfl
@[simp] theorem setTemp_link (t : Nat) (c : TempCmp) : (setTemp t c s).link = s.link := rfl
@[simp] theorem setTemp_flt (t : Nat) (c : TempCmp) : (setTemp t c s).flt = s.flt := rfl
@[simp] theorem setTemp_acct (t : Nat) (c : TempCmp) : (setTemp t c s).acct = s.acct := rfl
@[simp] theorem setTemp_heads (t : Nat) (c : TempCmp) : (setTemp t c s).heads = s.heads := rfl
@[simp] theorem setTemp_engines (t : Nat) (c : TempCmp) : (setTemp t c s).engines = s.engines := rfl
@[simp] theorem setTemp_streams (t : Nat) (c : TempCmp) : (setTemp t c s).streams = s.streams := rfl
@[simp] theorem setTemp_net (t : Nat) (c : TempCmp) : (setTemp t c s).net = s.net := rfl
@[simp] theorem setTemp_clk (t : Nat) (c : TempCmp) : (setTemp t c s).clk = s.clk := rfl
@[simp] theorem setTemp_pwr (t : Nat) (c : TempCmp) : (setTemp t c s).pwr = s.pwr := rfl
@[simp] theorem setTemp_sec (t : Nat) (c : TempCmp) : (setTemp t c s).sec = s.sec := rfl
@[simp] theorem setTemp_boot (t : Nat) (c : TempCmp) : (setTemp t c s).boot = s.boot := rfl

/-! ### setIde -/

@[simp] theorem setIde_pending (k : Nat) (x : Ide) : (setIde k x s).pending = s.pending := rfl
@[simp] theorem setIde_free (k : Nat) (x : Ide) : (setIde k x s).free = s.free := rfl
@[simp] theorem setIde_out (k : Nat) (x : Ide) : (setIde k x s).out = s.out := rfl
@[simp] theorem setIde_now (k : Nat) (x : Ide) : (setIde k x s).now = s.now := rfl
@[simp] theorem setIde_hostMem (k : Nat) (x : Ide) : (setIde k x s).hostMem = s.hostMem := rfl
@[simp] theorem setIde_devMem (k : Nat) (x : Ide) : (setIde k x s).devMem = s.devMem := rfl
@[simp] theorem setIde_regs (k : Nat) (x : Ide) : (setIde k x s).regs = s.regs := rfl
@[simp] theorem setIde_fe (k : Nat) (x : Ide) : (setIde k x s).fe = s.fe := rfl
@[simp] theorem setIde_mem (k : Nat) (x : Ide) : (setIde k x s).mem = s.mem := rfl
@[simp] theorem setIde_cores (k : Nat) (x : Ide) : (setIde k x s).cores = s.cores := rfl
@[simp] theorem setIde_rgns (k : Nat) (x : Ide) : (setIde k x s).rgns = s.rgns := rfl
@[simp] theorem setIde_cdcs (k : Nat) (x : Ide) : (setIde k x s).cdcs = s.cdcs := rfl
@[simp] theorem setIde_flt (k : Nat) (x : Ide) : (setIde k x s).flt = s.flt := rfl
@[simp] theorem setIde_acct (k : Nat) (x : Ide) : (setIde k x s).acct = s.acct := rfl
@[simp] theorem setIde_heads (k : Nat) (x : Ide) : (setIde k x s).heads = s.heads := rfl
@[simp] theorem setIde_engines (k : Nat) (x : Ide) : (setIde k x s).engines = s.engines := rfl
@[simp] theorem setIde_streams (k : Nat) (x : Ide) : (setIde k x s).streams = s.streams := rfl
@[simp] theorem setIde_net (k : Nat) (x : Ide) : (setIde k x s).net = s.net := rfl
@[simp] theorem setIde_clk (k : Nat) (x : Ide) : (setIde k x s).clk = s.clk := rfl
@[simp] theorem setIde_pwr (k : Nat) (x : Ide) : (setIde k x s).pwr = s.pwr := rfl
@[simp] theorem setIde_oas (k : Nat) (x : Ide) : (setIde k x s).oas = s.oas := rfl
@[simp] theorem setIde_sec (k : Nat) (x : Ide) : (setIde k x s).sec = s.sec := rfl
@[simp] theorem setIde_boot (k : Nat) (x : Ide) : (setIde k x s).boot = s.boot := rfl

/-! ### setLg -/

@[simp] theorem setLg_pending (c g : Nat) (x : Lg) : (setLg s c g x).pending = s.pending := rfl
@[simp] theorem setLg_free (c g : Nat) (x : Lg) : (setLg s c g x).free = s.free := rfl
@[simp] theorem setLg_out (c g : Nat) (x : Lg) : (setLg s c g x).out = s.out := rfl
@[simp] theorem setLg_now (c g : Nat) (x : Lg) : (setLg s c g x).now = s.now := rfl
@[simp] theorem setLg_hostMem (c g : Nat) (x : Lg) : (setLg s c g x).hostMem = s.hostMem := rfl
@[simp] theorem setLg_devMem (c g : Nat) (x : Lg) : (setLg s c g x).devMem = s.devMem := rfl
@[simp] theorem setLg_regs (c g : Nat) (x : Lg) : (setLg s c g x).regs = s.regs := rfl
@[simp] theorem setLg_fe (c g : Nat) (x : Lg) : (setLg s c g x).fe = s.fe := rfl
@[simp] theorem setLg_mem (c g : Nat) (x : Lg) : (setLg s c g x).mem = s.mem := rfl
@[simp] theorem setLg_rgns (c g : Nat) (x : Lg) : (setLg s c g x).rgns = s.rgns := rfl
@[simp] theorem setLg_cdcs (c g : Nat) (x : Lg) : (setLg s c g x).cdcs = s.cdcs := rfl
@[simp] theorem setLg_link (c g : Nat) (x : Lg) : (setLg s c g x).link = s.link := rfl
@[simp] theorem setLg_flt (c g : Nat) (x : Lg) : (setLg s c g x).flt = s.flt := rfl
@[simp] theorem setLg_acct (c g : Nat) (x : Lg) : (setLg s c g x).acct = s.acct := rfl
@[simp] theorem setLg_heads (c g : Nat) (x : Lg) : (setLg s c g x).heads = s.heads := rfl
@[simp] theorem setLg_engines (c g : Nat) (x : Lg) : (setLg s c g x).engines = s.engines := rfl
@[simp] theorem setLg_streams (c g : Nat) (x : Lg) : (setLg s c g x).streams = s.streams := rfl
@[simp] theorem setLg_net (c g : Nat) (x : Lg) : (setLg s c g x).net = s.net := rfl
@[simp] theorem setLg_clk (c g : Nat) (x : Lg) : (setLg s c g x).clk = s.clk := rfl
@[simp] theorem setLg_pwr (c g : Nat) (x : Lg) : (setLg s c g x).pwr = s.pwr := rfl
@[simp] theorem setLg_oas (c g : Nat) (x : Lg) : (setLg s c g x).oas = s.oas := rfl
@[simp] theorem setLg_sec (c g : Nat) (x : Lg) : (setLg s c g x).sec = s.sec := rfl
@[simp] theorem setLg_boot (c g : Nat) (x : Lg) : (setLg s c g x).boot = s.boot := rfl

/-! ### setGfx -/

@[simp] theorem setGfx_pending (c : Nat) (g : CoreGfx) : (setGfx s c g).pending = s.pending := rfl
@[simp] theorem setGfx_free (c : Nat) (g : CoreGfx) : (setGfx s c g).free = s.free := rfl
@[simp] theorem setGfx_out (c : Nat) (g : CoreGfx) : (setGfx s c g).out = s.out := rfl
@[simp] theorem setGfx_now (c : Nat) (g : CoreGfx) : (setGfx s c g).now = s.now := rfl
@[simp] theorem setGfx_hostMem (c : Nat) (g : CoreGfx) : (setGfx s c g).hostMem = s.hostMem := rfl
@[simp] theorem setGfx_devMem (c : Nat) (g : CoreGfx) : (setGfx s c g).devMem = s.devMem := rfl
@[simp] theorem setGfx_regs (c : Nat) (g : CoreGfx) : (setGfx s c g).regs = s.regs := rfl
@[simp] theorem setGfx_fe (c : Nat) (g : CoreGfx) : (setGfx s c g).fe = s.fe := rfl
@[simp] theorem setGfx_mem (c : Nat) (g : CoreGfx) : (setGfx s c g).mem = s.mem := rfl
@[simp] theorem setGfx_rgns (c : Nat) (g : CoreGfx) : (setGfx s c g).rgns = s.rgns := rfl
@[simp] theorem setGfx_cdcs (c : Nat) (g : CoreGfx) : (setGfx s c g).cdcs = s.cdcs := rfl
@[simp] theorem setGfx_link (c : Nat) (g : CoreGfx) : (setGfx s c g).link = s.link := rfl
@[simp] theorem setGfx_flt (c : Nat) (g : CoreGfx) : (setGfx s c g).flt = s.flt := rfl
@[simp] theorem setGfx_acct (c : Nat) (g : CoreGfx) : (setGfx s c g).acct = s.acct := rfl
@[simp] theorem setGfx_heads (c : Nat) (g : CoreGfx) : (setGfx s c g).heads = s.heads := rfl
@[simp] theorem setGfx_engines (c : Nat) (g : CoreGfx) : (setGfx s c g).engines = s.engines := rfl
@[simp] theorem setGfx_streams (c : Nat) (g : CoreGfx) : (setGfx s c g).streams = s.streams := rfl
@[simp] theorem setGfx_net (c : Nat) (g : CoreGfx) : (setGfx s c g).net = s.net := rfl
@[simp] theorem setGfx_clk (c : Nat) (g : CoreGfx) : (setGfx s c g).clk = s.clk := rfl
@[simp] theorem setGfx_pwr (c : Nat) (g : CoreGfx) : (setGfx s c g).pwr = s.pwr := rfl
@[simp] theorem setGfx_oas (c : Nat) (g : CoreGfx) : (setGfx s c g).oas = s.oas := rfl
@[simp] theorem setGfx_sec (c : Nat) (g : CoreGfx) : (setGfx s c g).sec = s.sec := rfl
@[simp] theorem setGfx_boot (c : Nat) (g : CoreGfx) : (setGfx s c g).boot = s.boot := rfl

/-! ### setGeo -/

@[simp] theorem setGeo_pending (r : Nat) (g : Geo) : (setGeo s r g).pending = s.pending := rfl
@[simp] theorem setGeo_free (r : Nat) (g : Geo) : (setGeo s r g).free = s.free := rfl
@[simp] theorem setGeo_out (r : Nat) (g : Geo) : (setGeo s r g).out = s.out := rfl
@[simp] theorem setGeo_now (r : Nat) (g : Geo) : (setGeo s r g).now = s.now := rfl
@[simp] theorem setGeo_hostMem (r : Nat) (g : Geo) : (setGeo s r g).hostMem = s.hostMem := rfl
@[simp] theorem setGeo_devMem (r : Nat) (g : Geo) : (setGeo s r g).devMem = s.devMem := rfl
@[simp] theorem setGeo_regs (r : Nat) (g : Geo) : (setGeo s r g).regs = s.regs := rfl
@[simp] theorem setGeo_fe (r : Nat) (g : Geo) : (setGeo s r g).fe = s.fe := rfl
@[simp] theorem setGeo_mem (r : Nat) (g : Geo) : (setGeo s r g).mem = s.mem := rfl
@[simp] theorem setGeo_cores (r : Nat) (g : Geo) : (setGeo s r g).cores = s.cores := rfl
@[simp] theorem setGeo_cdcs (r : Nat) (g : Geo) : (setGeo s r g).cdcs = s.cdcs := rfl
@[simp] theorem setGeo_link (r : Nat) (g : Geo) : (setGeo s r g).link = s.link := rfl
@[simp] theorem setGeo_flt (r : Nat) (g : Geo) : (setGeo s r g).flt = s.flt := rfl
@[simp] theorem setGeo_acct (r : Nat) (g : Geo) : (setGeo s r g).acct = s.acct := rfl
@[simp] theorem setGeo_heads (r : Nat) (g : Geo) : (setGeo s r g).heads = s.heads := rfl
@[simp] theorem setGeo_engines (r : Nat) (g : Geo) : (setGeo s r g).engines = s.engines := rfl
@[simp] theorem setGeo_streams (r : Nat) (g : Geo) : (setGeo s r g).streams = s.streams := rfl
@[simp] theorem setGeo_net (r : Nat) (g : Geo) : (setGeo s r g).net = s.net := rfl
@[simp] theorem setGeo_clk (r : Nat) (g : Geo) : (setGeo s r g).clk = s.clk := rfl
@[simp] theorem setGeo_pwr (r : Nat) (g : Geo) : (setGeo s r g).pwr = s.pwr := rfl
@[simp] theorem setGeo_oas (r : Nat) (g : Geo) : (setGeo s r g).oas = s.oas := rfl
@[simp] theorem setGeo_sec (r : Nat) (g : Geo) : (setGeo s r g).sec = s.sec := rfl
@[simp] theorem setGeo_boot (r : Nat) (g : Geo) : (setGeo s r g).boot = s.boot := rfl

/-! ### Read after write -/

@[simp] theorem core_setCore (c k : Nat) (x : Core) : (s.setCore c x).core k = if k = c then x else s.core k := mget_mset _ _ _ _ _
@[simp] theorem rgn_setRgn (r k : Nat) (x : Region) : (s.setRgn r x).rgn k = if k = r then x else s.rgn k := mget_mset _ _ _ _ _
@[simp] theorem cdc_setCdc (c k : Nat) (x : Cdc) : (s.setCdc c x).cdc k = if k = c then x else s.cdc k := mget_mset _ _ _ _ _
@[simp] theorem func_setFunc (f k : Nat) (x : Func) : (s.setFunc f x).func k = if k = f then x else s.func k := mget_mset _ _ _ _ _
@[simp] theorem launch_setLaunch (l k : Nat) (x : Launch) : (s.setLaunch l x).launch? k = if k = l then some x else s.launch? k :=
  mfind_mins _ _ _ _
@[simp] theorem queue_setQueue (q k : Nat) (x : Queue) : (s.setQueue q x).queue? k = if k = q then some x else s.queue? k :=
  mfind_mins _ _ _ _
@[simp] theorem ctx_setCtx (c k : Nat) (x : Ctx) : (s.setCtx c x).ctx? k = if k = c then some x else s.ctx? k := mfind_mins _ _ _ _
@[simp] theorem head_setHead (h k : Nat) (x : Head) : head (setHead s h x) k = if k = h then x else head s k := mget_mset _ _ _ _ _
@[simp] theorem engine_setEngine (e k : Nat) (x : Engine) : engine (setEngine s e x) k = if k = e then x else engine s k :=
  mget_mset _ _ _ _ _
@[simp] theorem sub_setSub (q k : Nat) (x : Sub) : sub (setSub s q x) k = if k = q then x else sub s k := mget_mset _ _ _ _ _
@[simp] theorem node_setNode (i k : Nat) (n : Node) : node? (setNode s i n) k = if k = i then some n else node? s k := mfind_mins _ _ _ _
@[simp] theorem qp_setQp (n k : Nat) (x : Qp) : qp? (setQp s n x) k = if k = n then some x else qp? s k := mfind_mins _ _ _ _

/-- A register reads back the 32 bits written to it, and no other changes. -/
theorem rd_wr (off v k : Nat) : rd (wr s off v) k = if k = off then v % 2 ^ 32 else rd s k := by
  unfold rd wr
  by_cases h : k = off
  · subst h; simp
  · rw [if_neg h]
    show (mget (mset s.regs (regReset off) off _) (regReset k) k).toNat = _
    rw [mget_eq_mfind, mget_eq_mfind]
    congr 2
    unfold mset
    split_ifs
    · rw [mfind_mdel, if_neg h]
    · rw [mfind_mins, if_neg h]

end Sys2Proof.Machine
end

