-- ==== Sys2Proof/Laws/Rows.lean ====
section
/-! SUPPORT. What each shared frame of a meaning can answer, once: core rows, lane-group rows, descriptor rows, register writes, folds
over the state, and the writes of lanes. -/

namespace Sys2Proof.Machine

/-! ### Folds -/

@[simp] theorem foldState_nil {α : Type} (f : α → State → State) (s : State) : foldState [] f s = s := rfl
@[simp] theorem foldState_cons {α : Type} (x : α) (xs : List α) (f : α → State → State) (s : State) :
    foldState (x :: xs) f s = foldState xs f (f x s) := rfl
theorem foldState_append {α : Type} (xs ys : List α) (f : α → State → State) (s : State) :
    foldState (xs ++ ys) f s = foldState ys f (foldState xs f s) := List.foldl_append

/-- What each step of a fold keeps, the fold keeps. -/
theorem foldState_keeps {α : Type} {P : State → Prop} {xs : List α} {f : α → State → State} {s : State}
    (hf : ∀ x ∈ xs, ∀ a, P a → P (f x a)) (hs : P s) : P (foldState xs f s) := by
  induction xs generalizing s with
  | nil => exact hs
  | cons x xs ih => exact ih (fun y hy => hf y (List.mem_cons_of_mem _ hy)) (hf x List.mem_cons_self s hs)

/-! ### Core rows -/

section CoreRows

variable {cls op : Nat} {atom : Option Nat} {eff : State → State} {c g : Nat} {w : W128} {s : State}

theorem coreRow_next (h : rowWord cls op atom w = true) (hi : canIssue s c g w = true) : coreRow cls op atom eff c g w s = .next (eff s) := by
  simp [coreRow, h, hi]

theorem coreRow_waits (h : rowWord cls op atom w = true) (hi : canIssue s c g w = false) : coreRow cls op atom eff c g w s = .next s := by
  simp [coreRow, h, hi]

theorem coreRow_refused (h : rowWord cls op atom w = false) : coreRow cls op atom eff c g w s = .refused .reservedWord := by
  simp [coreRow, h]

/-- A core row refuses a word that is not its own, and otherwise answers its effect or leaves the state as it was. -/
theorem coreRow_cases : (rowWord cls op atom w = false ∧ coreRow cls op atom eff c g w s = .refused .reservedWord)
    ∨ (rowWord cls op atom w = true ∧ canIssue s c g w = true ∧ coreRow cls op atom eff c g w s = .next (eff s))
    ∨ (rowWord cls op atom w = true ∧ canIssue s c g w = false ∧ coreRow cls op atom eff c g w s = .next s) := by
  cases h : rowWord cls op atom w
  · exact .inl ⟨rfl, coreRow_refused h⟩
  · cases hi : canIssue s c g w
    · exact .inr (.inr ⟨rfl, rfl, coreRow_waits h hi⟩)
    · exact .inr (.inl ⟨rfl, rfl, coreRow_next h hi⟩)

theorem lgRow_next {f : Lg → Lg × AFlags} (h : rowWord cls op none w = true) (hi : canIssue s c g w = true) :
    lgRow cls op f c g w s = .next (setLg (coreFlags s c (f (getLg s c g)).2) c g (stepPc (f (getLg s c g)).1)) := coreRow_next h hi

theorem itemRow_next {kind : Nat} {e : PassRec → GItem → Lg → State → State} {it : GItem} (h : ItemIssues s c g op kind w it) :
    itemRow op kind e c g w s = .next (e (itemPass s c it) it (getLg s c g) s) := by
  obtain ⟨⟨h1, h2⟩, h3, h4⟩ := h
  rw [itemRow, coreRow_next h1 h2, h3]
  simp [h4]

end CoreRows

/-! ### Descriptor rows and register writes -/

theorem descRow_next {op q i : Nat} {eff : Queue → Desc → W512 → State → State} {s : State} {x : Queue} {d : Desc}
    (h : Serves s q i op x d) : descRow op eff q i s = .next (eff x d d.cur s) := by
  obtain ⟨h1, h2, h3, h4, h5⟩ := h
  simp [descRow, h1, h2, h3, h4, h5]

/-- A descriptor row always answers: its effect on a served descriptor, or the state as it was. -/
theorem descRow_cases (op q i : Nat) (eff : Queue → Desc → W512 → State → State) (s : State) :
    descRow op eff q i s = .next s ∨ ∃ x d, Serves s q i op x d ∧ descRow op eff q i s = .next (eff x d d.cur s) := by
  unfold descRow
  split
  · rename_i x d hx hd
    split_ifs with h
    · simp only [Bool.and_eq_true, beq_iff_eq] at h
      exact .inr ⟨x, d, ⟨h.1.1, hx, hd, h.1.2, h.2⟩, rfl⟩
    · exact .inl rfl
  · exact .inl rfl

theorem regWrite_next {off : Nat} {eff : State → State} {s : State} (h : blockUp s off = true) : regWrite off eff s = .next (eff s) := by
  simp [regWrite, h]

theorem caravanRow_next {kind q i : Nat} {eff : Queue → Desc → Nat → State → State} {s : State} {x : Queue} {d : Desc} {r : Nat}
    (h : CaravanServes s q i kind x d r) : caravanRow kind eff q i s = .next (eff x d r s) := by
  obtain ⟨h1, h2, h3, h4⟩ := h
  rw [caravanRow, descRow_next h1, h2]
  simp [h3, h4]

/-! ### Lanes -/

/-- Writing one register in a list of lanes. -/
theorem foldl_lgSetV (f : Nat → Nat) (d : Nat) (ls : List Nat) (x : Lg) :
    let y := ls.foldl (fun y lane => lgSetV y d lane (f lane)) x
    y = { x with v := y.v } ∧ ∀ k, mget y.v 0 k = if (∃ lane ∈ ls, k = 32 * d + lane) then BitVec.ofNat 32 (f (k - 32 * d)) else mget x.v 0 k := by
  induction ls generalizing x with
  | nil => simp
  | cons a ls ih =>
    obtain ⟨h1, h2⟩ := ih (lgSetV x d a (f a))
    refine ⟨?_, fun k => ?_⟩
    · show List.foldl _ (lgSetV x d a (f a)) ls = _
      rw [h1]
      rfl
    · show mget (List.foldl _ (lgSetV x d a (f a)) ls).v 0 k = _
      rw [h2]
      by_cases h : ∃ lane ∈ ls, k = 32 * d + lane
      · rw [if_pos h, if_pos]
        obtain ⟨lane, hl, hk⟩ := h
        exact ⟨lane, List.mem_cons_of_mem _ hl, hk⟩
      · rw [if_neg h]
        show mget (mset x.v 0 (32 * d + a) _) 0 k = _
        rw [mget_mset]
        by_cases h3 : k = 32 * d + a
        · rw [if_pos h3, if_pos ⟨a, List.mem_cons_self, h3⟩, h3, Nat.add_sub_cancel_left]
        · rw [if_neg h3, if_neg]
          rintro ⟨lane, hl, hk⟩
          rcases List.mem_cons.mp hl with rfl | hl
          · exact h3 hk
          · exact h ⟨lane, hl, hk⟩

/-- A vector result: the counter advances and the active lanes of the destination take their values. -/
theorem mapLanes_wrote (x : Lg) (w : W128) (d : Nat) (f : Nat → Nat) :
    WroteLanes x (stepPc (mapLanes x w d f)) w d (fun lane => BitVec.ofNat 32 (f lane)) := by
  obtain ⟨h1, h2⟩ := foldl_lgSetV f d (activeLanes x w) x
  constructor
  · unfold stepPc mapLanes
    rw [h1]
  · intro r lane hl
    show mget (mapLanes x w d f).v 0 _ = _
    unfold mapLanes
    rw [h2]
    by_cases h : r = d ∧ laneOn x w lane = true
    · obtain ⟨rfl, h⟩ := h
      rw [if_pos ⟨lane, by simp [activeLanes, h, hl], rfl⟩, if_pos ⟨rfl, h⟩, Nat.add_sub_cancel_left]
    · rw [if_neg h, if_neg]
      rintro ⟨k, hk, he⟩
      simp only [activeLanes, List.mem_filter, List.mem_range] at hk
      have : r = d ∧ lane = k := by omega
      obtain ⟨rfl, rfl⟩ := this
      exact h ⟨rfl, hk.2⟩

/-- Flags of no lanes raise nothing. -/
theorem coreFlags_zero (s : State) (c : Nat) : coreFlags s c 0 = s := by
  unfold coreFlags orFlags
  split
  · rfl
  · split
    · rfl
    · simp

end Sys2Proof.Machine
end

