-- ==== Sys2Proof/Laws/Ops.lean ====
section
/-! SUPPORT. What the shared operations of the device can do: none touches the waiting commands, the security block or Oasis, none
leaves the safe state, and all keep both memories in form. One lemma per operation. -/

set_option Elab.async false

namespace Sys2Proof.Machine

/-- From `s` to `t` the waiting commands, the security block and Oasis stay, memories stay in form, and the safe state is not left. -/
structure Keeps (s t : State) : Prop where
  pending : t.pending = s.pending
  sec : t.sec = s.sec
  oas : t.oas = s.oas
  wf : Memory.wf s = true → Memory.wf t = true
  safe : s.flt.safe = true → t.flt.safe = true

variable {s t u : State}

theorem Keeps.refl (s : State) : Keeps s s := ⟨rfl, rfl, rfl, id, id⟩
theorem Keeps.trans (h : Keeps s t) (k : Keeps t u) : Keeps s u :=
  ⟨k.pending.trans h.pending, k.sec.trans h.sec, k.oas.trans h.oas, fun x => k.wf (h.wf x), fun x => k.safe (h.safe x)⟩

/-- An update of none of these fields, nor of the memories and the collector. -/
theorem Keeps.same (s t : State) (hp : t.pending = s.pending := by rfl) (hs : t.sec = s.sec := by rfl) (ho : t.oas = s.oas := by rfl)
    (hh : t.hostMem = s.hostMem := by rfl) (hd : t.devMem = s.devMem := by rfl) (hf : t.flt.safe = s.flt.safe := by rfl) : Keeps s t :=
  ⟨hp, hs, ho, fun h => wf_of_same h hh hd, fun h => hf.trans h⟩

theorem Keeps.fold {α : Type} (xs : List α) {f : α → State → State} (hf : ∀ x a, Keeps a (f x a)) (s : State) : Keeps s (foldState xs f s) := by
  induction xs generalizing s with
  | nil => exact .refl s
  | cons x xs ih => exact (hf x s).trans (ih _)

/-! ### Records, logs and interrupts -/

theorem logViol_keeps (s : State) (kind fn answer place detail : Nat) : Keeps s (logViol s kind fn answer place detail) := by
  unfold logViol
  dsimp only
  repeat' split
  all_goals exact .same _ _

theorem fireVec_keeps (s : State) (v : Nat) : Keeps s (fireVec s v) := by
  unfold fireVec
  dsimp only
  repeat' split
  all_goals exact .same _ _

theorem raiseVec_keeps (s : State) (v : Nat) : Keeps s (raiseVec s v) := by
  unfold raiseVec
  dsimp only
  split
  · exact (Keeps.same s _).trans (fireVec_keeps _ _)
  · split
    · exact (Keeps.same s _).trans (fireVec_keeps _ _)
    · exact .same _ _

theorem raiseIrq_keeps (s : State) (fn k : Nat) : Keeps s (raiseIrq s fn k) := raiseVec_keeps s _

theorem newRecord_keeps (s : State) (cls : Nat) (esc : Bool) (source unit code ctx info : Nat) :
    Keeps s (newRecord s cls esc source unit code ctx info) := .same _ _

theorem irqIf_keeps (b : Bool) (s : State) (f : Nat) : Keeps s (if b = true then raiseIrq s f 0 else s) := by
  split
  · exact raiseIrq_keeps _ _ _
  · exact .refl s

/-- The signals of an event once the function of its context is known. -/
theorem signals_keep (s : State) (k cls : Nat) : Keeps s
    (let s1 := if (cls == 1 && k != 0) = true then raiseIrq s k 0 else s
     let s2 := if irqFor s1 cls = true then raiseIrq s1 0 0 else s1
     if (cls == 2) = true then s2.send { kind := .aer, a := 0, b := 14, bytes := [aerCor] }
     else if (cls == 3) = true then s2.send { kind := .aer, a := 0, b := 22, bytes := [aerFatal] } else s2) := by
  have h := irqIf_keeps (cls == 1 && k != 0) s k
  dsimp only
  generalize (if (cls == 1 && k != 0) = true then raiseIrq s k 0 else s) = a at h ⊢
  replace h := h.trans (irqIf_keeps (irqFor a cls) a 0)
  generalize (if irqFor a cls = true then raiseIrq a 0 0 else a) = b at h ⊢
  split
  · exact h.trans (.same _ _)
  · split
    · exact h.trans (.same _ _)
    · exact h

theorem signalFault_keeps (s : State) (cls ctx : Nat) : Keeps s (signalFault s cls ctx) := signals_keep s _ cls

theorem recoveryMode_keeps (s : State) (cls : Nat) : Keeps s (recoveryMode s cls) := by
  unfold recoveryMode
  split <;> exact .same _ _

theorem enterSafe_keeps (s : State) : Keeps s (enterSafe s) := ⟨rfl, rfl, rfl, fun h => wf_of_same h rfl rfl, fun _ => rfl⟩

theorem faultEvent_keeps (s : State) (cls source unit code ctx info : Nat) (fresh : Bool) :
    Keeps s (faultEvent s cls source unit code ctx info fresh) := by
  have rec_ : ∀ (a : State) (c : Nat) (e : Bool), Keeps a (signalFault (newRecord a c e source unit code ctx info) c ctx) :=
    fun a c e => (newRecord_keeps a c e _ _ _ _ _).trans (signalFault_keeps _ _ _)
  unfold faultEvent
  dsimp only
  split
  · split
    · exact (Keeps.same s _).trans (signalFault_keeps _ _ _)
    · exact rec_ _ _ _
  · split
    · exact (enterSafe_keeps s).trans (rec_ _ _ _)
    · generalize (if fresh = true then none else overlapTarget s.flt source unit ctx) = o
      cases o with
      | none => exact (rec_ _ _ _).trans (recoveryMode_keeps _ _)
      | some r =>
        dsimp only
        split
        · exact (enterSafe_keeps s).trans (rec_ _ _ _)
        · exact ((Keeps.same s _).trans (signalFault_keeps _ _ _)).trans (recoveryMode_keeps _ _)

/-! ### Memory and the records of contexts and queues -/

theorem writePhys_keeps (s : State) (pa : Nat) (bs : List Byte) : Keeps s (writePhys s pa bs) := by
  rw [writePhys_only]
  exact ⟨rfl, rfl, rfl, fun h => by rw [← writePhys_only]; exact writePhys_wf h _ _, id⟩

theorem writePieces_keeps (s : State) (ps : List (Nat × Nat)) (bs : List Byte) : Keeps s (writePieces s ps bs) := by
  induction ps generalizing s bs with
  | nil => exact .refl s
  | cons p ps ih => exact (writePhys_keeps s _ _).trans (ih _ _)

theorem putMasked_keeps (s : State) (home : Nat) (mask : W64) (k : Nat) (bs : List Byte) : Keeps s (putMasked s home mask k bs) := by
  induction bs generalizing s k with
  | nil => exact .refl s
  | cons b bs ih =>
    refine Keeps.trans ?_ (ih _ _)
    split
    · exact writePhys_keeps _ _ _
    · exact .refl s

theorem noteWait_keeps (s : State) (c : Ctx) (user page : Nat) : Keeps s (noteWait s c user page) := by
  unfold noteWait
  dsimp only
  repeat' split
  all_goals exact .same _ _

theorem busWrite_keeps (s : State) (a : Nat) (bs : List Byte) : Keeps s (busWrite s a bs) := by
  rcases busWrite_cases s a bs with e | e <;> rw [e]
  · exact writePhys_keeps _ _ _
  · exact .same _ _

theorem writeCtxEntry_keeps (s : State) (ctx : Nat) : Keeps s (writeCtxEntry s ctx) := by
  unfold writeCtxEntry
  split
  · exact .refl s
  · exact busWrite_keeps _ _ _

theorem fillFault_keeps (s : State) (ctx : Nat) (r : FaultRec) : Keeps s (fillFault s ctx r) := by
  unfold fillFault
  repeat' split
  all_goals first
    | exact .refl _
    | exact (Keeps.same s _).trans (faultEvent_keeps _ _ _ _ _ _ _ _)
    | exact ((Keeps.same s _).trans (faultEvent_keeps _ _ _ _ _ _ _ _)).trans (writeCtxEntry_keeps _ _)

theorem ctxWrite_keeps (s : State) (ctx fn addr : Nat) (bs : List Byte) (tag : Nat) : Keeps s (ctxWrite s ctx fn addr bs tag) := by
  unfold ctxWrite
  dsimp only
  repeat' split
  all_goals first
    | exact .same _ _
    | exact writePieces_keeps _ _ _
    | exact (Keeps.same s _).trans (noteWait_keeps _ _ _ _)
    | exact fillFault_keeps _ _ _

theorem holdWrite_keeps (s : State) (h : HeldWrite) : Keeps s (holdWrite s h) := .same _ _

theorem waitRecord_keeps (s : State) (ctx page : Nat) : Keeps s (waitRecord s ctx page) := by
  unfold waitRecord
  repeat' split
  all_goals first
    | exact .refl _
    | exact noteWait_keeps _ _ _ _

theorem tickCross_keeps (ok : Bool) (n : Nat) (s : State) : Keeps s (tickCross ok n s) := by
  unfold tickCross
  split
  · exact .refl s
  · exact .same _ _

theorem feWrite_keeps (s : State) (ps : List (Nat × Nat)) (bs : List Byte) : Keeps s (feWrite s ps bs) :=
  (writePieces_keeps s _ _).trans (tickCross_keeps _ _ _)

theorem tryRecord_keeps (s : State) (q : Nat) (x : Queue) (va : Nat) (bs : List Byte) (behind : Option (Nat × Option Nat)) :
    Keeps s (tryRecord s q x va bs behind).1 := by
  unfold tryRecord
  dsimp only
  repeat' split
  all_goals first
    | exact .refl _
    | exact .same _ _
    | exact feWrite_keeps _ _ _
    | exact (holdWrite_keeps s _).trans (waitRecord_keeps _ _ _)

theorem haltQueue_keeps (q : Nat) (s : State) : Keeps s (haltQueue q s) := by
  unfold haltQueue
  dsimp only
  repeat' split
  all_goals first
    | exact .refl _
    | exact ((Keeps.same s _).trans (writeCtxEntry_keeps _ _)).trans (tryRecord_keeps _ _ _ _ _ _)

theorem ringFault_keeps (q : Nat) (x : Queue) (va st d : Nat) (s : State) : Keeps s (ringFault q x va st d s) := by
  unfold ringFault
  refine Keeps.trans ?_ (haltQueue_keeps _ _)
  split
  · exact .refl s
  · exact fillFault_keeps _ _ _

theorem dropFailed_keeps (s : State) (user page : Nat) : Keeps s (dropFailed s user page) := .same _ _

theorem ringWrite_keeps (s : State) (q va : Nat) (bs : List Byte) (behind : Option (Nat × Option Nat)) :
    Keeps s (ringWrite s q va bs behind) := by
  unfold ringWrite
  split
  · exact .refl s
  · rename_i x _
    have h := tryRecord_keeps s q x va bs behind
    split
    · rename_i e
      rw [e] at h
      exact h
    · rename_i e
      rw [e] at h
      split
      · exact h.trans (ringFault_keeps _ _ _ _ _ _)
      · exact h.trans (dropFailed_keeps _ _ _)

theorem writeStatus_keeps (q : Nat) (s : State) : Keeps s (writeStatus q s) := by
  unfold writeStatus
  split
  · exact .refl s
  · exact ringWrite_keeps _ _ _ _ _

/-! ### Caches, frames and fences -/

theorem writeBack_keeps (k : Nat) (s : State) (x : CLine) : Keeps s (writeBack k s x) := by
  unfold writeBack
  dsimp only
  split
  · exact (putMasked_keeps s _ _ _ _).trans (tickCross_keeps _ _ _)
  · exact .refl s

theorem cdcFlush_keeps (k : Nat) (s : State) : Keeps s (cdcFlush k s) := by
  unfold cdcFlush
  dsimp only
  refine Keeps.trans ?_ (Keeps.same (foldState (s.cdc k).lines _ _) _)
  exact (Keeps.fold _ (fun e a => writeBack_keeps k a e) s).trans (Keeps.fold _ (fun (e : Nat × CLine) a => writeBack_keeps k a e.2) _)

theorem rgnFlush_keeps (r : Nat) (s : State) : Keeps s (rgnFlush r s) := by
  unfold rgnFlush
  exact Keeps.fold _ (fun k a => cdcFlush_keeps k a) s

theorem contextWalk_keeps (ctx : Nat) (s : State) : Keeps s (contextWalk ctx s) := by
  unfold contextWalk
  refine Keeps.fold _ (fun r a => ?_) s
  split
  · exact .refl a
  · split
    · split
      · exact (Keeps.same a (a.setLaunch _ _)).trans (rgnFlush_keeps _ _)
      · exact .refl a
    · exact .refl a

theorem settleFrames_keeps (s : State) : Keeps s (settleFrames s) := by
  unfold settleFrames
  refine Keeps.fold _ (fun f a => ?_) s
  split
  · exact .refl a
  · exact .same _ _

theorem mirrorFence_keeps (s : State) (idx : Nat) (f : Fence) (registered : Bool) (tag : Nat) : Keeps s (mirrorFence s idx f registered tag) := by
  unfold mirrorFence
  split
  · exact .refl s
  · exact ctxWrite_keeps _ _ _ _ _ _

theorem abandonFence_keeps (idx cause tag : Nat) (s : State) : Keeps s (abandonFence idx cause tag s) := by
  unfold abandonFence
  dsimp only
  split
  · exact .refl s
  · exact (Keeps.same s _).trans (mirrorFence_keeps _ _ _ _ _)

theorem applySignal_keeps (s : State) (q ctx va v tag : Nat) : Keeps s (applySignal s q ctx va v tag).1 := by
  unfold applySignal
  dsimp only
  repeat' split
  all_goals first
    | exact (Keeps.same s _).trans (mirrorFence_keeps _ _ _ _ _)
    | exact ((Keeps.same s _).trans (mirrorFence_keeps _ _ _ _ _)).trans (logViol_keeps _ _ _ _ _ _)
    | exact logViol_keeps _ _ _ _ _ _
    | exact ctxWrite_keeps _ _ _ _ _ _
    | exact fillFault_keeps _ _ _

theorem abandonSignal_keeps (s : State) (ctx va cause tag : Nat) : Keeps s (abandonSignal s ctx va cause tag) := by
  unfold abandonSignal
  dsimp only
  repeat' split
  all_goals first
    | exact .refl _
    | exact abandonFence_keeps _ _ _ _
    | exact ctxWrite_keeps _ _ _ _ _ _
    | exact fillFault_keeps _ _ _

/-! ### Registers, the ready map, emergencies -/

theorem wr_keeps (s : State) (off v : Nat) : Keeps s (wr s off v) := .same _ _

theorem copyReady_keeps (s : State) : Keeps s (copyReady s) := by
  unfold copyReady
  dsimp only
  split
  · exact .refl s
  · exact ((Keeps.same s _).trans (busWrite_keeps _ _ _)).trans (busWrite_keeps _ _ _)

theorem setMap_keeps (i v : Nat) (s : State) : Keeps s (setMap i v s) := by
  unfold setMap
  dsimp only
  split
  · exact .refl s
  · exact (Keeps.same s _).trans (copyReady_keeps _)

theorem beginEmergency_keeps (d : Nat) (touches : Launch → Bool) (s : State) : Keeps s (beginEmergency d touches s) := .same _ _
theorem endEmergency_keeps (d : Nat) (s : State) : Keeps s (endEmergency d s) := .same _ _

/-! ### Regions -/

theorem setRgnState_keeps (r : Nat) (st : RgnState) (s : State) : Keeps s (setRgnState r st s) := by
  unfold setRgnState
  exact (Keeps.same s _).trans (setMap_keeps _ _ _)

theorem zeroModel_keeps (e : ResEntry) (s : State) : Keeps s (zeroModel e s) := .fold _ (fun _ a => .same a _) s

theorem evictModels_keeps (p : ResEntry → Bool) (s : State) : Keeps s (evictModels p s) := by
  unfold evictModels
  exact (Keeps.fold _ zeroModel_keeps s).trans (.same _ _)

theorem resetRegion_keeps (r : Nat) (s : State) : Keeps s (resetRegion r s) := by
  unfold resetRegion
  dsimp only
  have h := evictModels_keeps (fun e => e.regions.contains r) s
  generalize evictModels (fun e => e.regions.contains r) s = a at h ⊢
  replace h := h.trans (Keeps.fold (coresOf r) (f := fun c a => a.setCore c {}) (fun c a => .same a _) a)
  generalize foldState (coresOf r) (fun c a => a.setCore c {}) a = b at h ⊢
  replace h := h.trans (Keeps.fold (cdcsOf r) (f := fun k a => a.setCdc k {}) (fun k a => .same a _) b)
  generalize foldState (cdcsOf r) (fun k a => a.setCdc k {}) b = c at h ⊢
  exact h.trans (.same c _)

theorem settleDraining_keeps (s : State) : Keeps s (settleDraining s) := by
  unfold settleDraining
  refine Keeps.fold _ (fun r a => ?_) s
  split
  · exact (resetRegion_keeps r a).trans (setRgnState_keeps _ _ _)
  · exact .refl a

/-! ### The end of a descriptor and of a launch -/

theorem finishDesc_keeps (s : State) (q i status detail result : Nat) (ran : Bool) : Keeps s (finishDesc s q i status detail result ran) := by
  unfold finishDesc
  split
  · exact .refl s
  · refine Keeps.trans (t := State.setDesc s q i _) ?_ (.same _ _)
    unfold State.setDesc
    split <;> exact .same _ _

theorem cdcDrop_keeps (k : Nat) (s : State) : Keeps s (cdcDrop k s) := .same _ _

theorem freeRegion_keeps (ctx r : Nat) (s : State) : Keeps s (freeRegion ctx r s) := by
  unfold freeRegion
  dsimp only
  refine Keeps.trans ?_ (Keeps.fold _ (fun c a => .same a _) _)
  generalize ha : foldState _ cdcDrop (rgnFlush r s) = a
  have h : Keeps s a := ha ▸ (rgnFlush_keeps r s).trans (Keeps.fold _ cdcDrop_keeps _)
  exact h.trans (.same a _)

theorem chargeLaunch_keeps (x : Launch) (s : State) : Keeps s (chargeLaunch x s) := by
  unfold chargeLaunch
  split <;> exact .same _ _

theorem setUnits_keeps (lc : Bool) (l : List Nat) (s : State) : Keeps s (setUnits lc l s) := by
  unfold setUnits
  split <;> exact .same _ _

theorem refillUnits_keeps (l : Nat) (s : State) : Keeps s (refillUnits l s) := by
  unfold refillUnits
  dsimp only
  repeat' split
  all_goals first
    | exact .refl _
    | exact (setUnits_keeps _ _ s).trans (Keeps.same _ (State.setLaunch _ _ _))

theorem returnUnits_keeps (x : Launch) (s : State) : Keeps s (returnUnits x s) := by
  unfold returnUnits
  exact (setUnits_keeps _ _ s).trans (Keeps.fold _ refillUnits_keeps _)

theorem dropWaits_keeps (s : State) (user : Nat) : Keeps s (dropWaits s user) := .same _ _

theorem countBreach_keeps (x : Launch) (st d : Nat) (s : State) : Keeps s (countBreach x st d s) :=
  (Keeps.same s _).trans (faultEvent_keeps _ _ _ _ _ _ _ _)

theorem endPlacement_keeps (r : Nat) (s : State) : Keeps s (endPlacement r s) := .same _ _
theorem setLaunch_keeps (s : State) (l : Nat) (x : Launch) : Keeps s (s.setLaunch l x) := .same _ _
theorem dropPins_keeps (l : Nat) (s : State) : Keeps s (dropPins l s) := .same _ _
theorem lapseBounds_keeps (s : State) : Keeps s (lapseBounds s) := .same _ _

theorem closeLaunch_keeps (l st d : Nat) (s : State) : Keeps s (closeLaunch l st d s) := by
  unfold closeLaunch
  split
  · exact .refl s
  · split
    · exact .refl s
    · dsimp only
      refine Keeps.trans ?_ (settleDraining_keeps _)
      refine Keeps.trans ?_ (settleFrames_keeps _)
      refine Keeps.trans ?_ (lapseBounds_keeps _)
      refine Keeps.trans ?_ (finishDesc_keeps _ _ _ _ _ _ _)
      refine Keeps.trans ?_ (dropWaits_keeps _ _)
      refine Keeps.trans ?_ (chargeLaunch_keeps _ _)
      refine Keeps.trans ?_ (dropPins_keeps _ _)
      refine Keeps.trans ?_ (returnUnits_keeps _ _)
      refine Keeps.trans ?_ (setLaunch_keeps _ _ _)
      exact (Keeps.fold _ (fun r a => freeRegion_keeps _ r a) s).trans (Keeps.fold _ endPlacement_keeps _)

theorem orFlags_keeps (l fl : Nat) (s : State) : Keeps s (orFlags l fl s) := by
  unfold orFlags
  repeat' split
  all_goals exact .same _ _

/-! ### Stacks that leave service -/

theorem endContextLaunches_keeps (k ctx : Nat) (s : State) : Keeps s (endContextLaunches k ctx s) := by
  unfold endContextLaunches
  dsimp only
  split
  · exact faultEvent_keeps _ _ _ _ _ _ _ _
  · exact Keeps.fold _ (fun l a => (closeLaunch_keeps l _ _ a).trans (faultEvent_keeps _ _ _ _ _ _ _ _)) s

theorem loseUnits_keeps (k l : Nat) (s : State) : Keeps s (loseUnits k l s) := by
  unfold loseUnits
  dsimp only
  repeat' split
  all_goals first
    | exact .refl _
    | exact ((setLaunch_keeps _ _ _).trans (closeLaunch_keeps _ _ _ _)).trans (signalFault_keeps _ _ _)
    | exact (setLaunch_keeps _ _ _).trans (refillUnits_keeps _ _)

theorem withdrawUnits_keeps (k : Nat) (s : State) : Keeps s (withdrawUnits k s) := by
  unfold withdrawUnits
  refine Keeps.trans ?_ (Keeps.fold _ (fun l a => loseUnits_keeps k l a) _)
  exact .same _ _

theorem loseMirror_keeps (k n : Nat) (s : State) : Keeps s (loseMirror k n s) := by
  unfold loseMirror
  dsimp only
  split
  · exact faultEvent_keeps _ _ _ _ _ _ _ _
  · exact .same _ _

theorem failStack_keeps (k : Nat) (s : State) : Keeps s (failStack k s) := by
  unfold failStack
  dsimp only
  refine Keeps.trans ?_ (loseMirror_keeps _ _ _)
  refine Keeps.trans ?_ (withdrawUnits_keeps _ _)
  refine Keeps.trans ?_ (Keeps.fold _ (fun c a => endContextLaunches_keeps k c a) _)
  exact ((faultEvent_keeps s _ _ _ _ _ _ _).trans (Keeps.same _ (setStack _ _ _))).trans (setMap_keeps _ _ _)

theorem checkRetired_keeps (k : Nat) (s : State) : Keeps s (checkRetired k s) := by
  unfold checkRetired
  split
  · exact failStack_keeps _ _
  · exact .refl s

theorem settleStacks_keeps (s : State) : Keeps s (settleStacks s) := by
  unfold settleStacks
  exact Keeps.fold _ checkRetired_keeps s

theorem endLaunch_keeps (l st d : Nat) (s : State) : Keeps s (endLaunch l st d s) := by
  unfold endLaunch
  exact (closeLaunch_keeps l st d s).trans (settleStacks_keeps _)

theorem abortLaunch_keeps (l r st d : Nat) (s : State) : Keeps s (abortLaunch l r st d s) := by
  unfold abortLaunch
  split
  · exact .refl s
  · split
    · exact .refl s
    · exact (endLaunch_keeps l st d s).trans (faultEvent_keeps _ _ _ _ _ _ _ _)

end Sys2Proof.Machine
end

