-- ==== Sys2Proof/Tests/Slice0.lean ====
section
/-! SUPPORT. Small tests, and for every statement with hypotheses a concrete state that meets them. -/

namespace Sys2Proof.Tests

set_option Elab.async false

open Sys2Proof Sys2Proof.Machine

/-! ### States of the tests -/

/-- A 512-bit word from (byte, value) pairs. -/
def w512 (l : List (Nat × Nat)) : W512 := BitVec.ofNat 512 ((l.map (fun e => e.2 * 2 ^ (8 * e.1))).sum)
/-- A descriptor of these bytes, released. -/
def dsc (l : List (Nat × Nat)) : Desc := { raw := w512 l, cur := w512 l, phase := .released }
/-- Queue 0 of context 1 with one descriptor. -/
def que (d : Desc) : Queue :=
  { ctx := 1, resident := true, ringVa := hostBase, dbVa := hostBase + 0x2000, cplVa := hostBase + 0x3000
    stVa := hostBase + 0x4000, producer := 1, consumer := 1, descs := [(0, d)] }
def ctx1 : Ctx := { ltaCount := 64, fenceMax := 4, resident := true }
/-- The device up, every unit ready, context 1 live with four writable pages. -/
def upS : State :=
  { pwr := { dev := .up, perst := false }
    boot := { ready := 2 ^ 38 - 1 }
    link := { dlUp := true, funcs := [(0, { busMaster := true, msixEnable := true })], vfEnable := true, numVfs := 2 }
    clk := { xtalOk := true, refclkOk := true, iboReady := true, locks := 2 ^ 15 - 1, cur := 0, sel := 0, mhz0 := 2600, mhz1 := 2600 }
    mem := { hbm := List.replicate 8 { st := .ready }
             lta := [(0, 0x1800000#32), (1, 0x1800001#32), (2, 0x1800002#32), (3, 0x1800003#32)] }
    fe := { ctxs := [(1, ctx1)] } }
/-- `upS` with queue 0 of context 1 (number 16) holding a descriptor. -/
def srvD (d : Desc) : State := { upS with fe := { upS.fe with queues := [(16, que d)] } }
def srv (l : List (Nat × Nat)) : State := srvD (dsc l)

theorem witness_StepRunsFront_1 : ∃ c : Instr, ∃ rest : List Instr, ∃ s : State, s.pending = c :: rest :=
  ⟨.hotReset, [], { upS with pending := [.hotReset] }, by decide +kernel⟩

theorem witness_FenceCommands_1 : ∃ s : State, ∃ q, ∃ i, ∃ x, ∃ d, ∃ c, ∃ bs, ∃ idx, Serves s q i 1 x d ∧ s.ctx? x.ctx = some c ∧
    readRecord s x.ctx (dField d.cur 40 8) (userDesc q i) = .ok bs ∧ fenceFind s x.ctx (dField d.cur 40 8) = none ∧ mfresh s.fe.fences
    (s.fe.fences.length + 1) 0 = some idx ∧ s.fe.fences.length < 1048576 ∧ ctxFences s x.ctx < c.fenceMax :=
  ⟨srv [(0, 1), (40, 0), (48, 7), (56, 16)], 16, 0, que (dsc [(0, 1), (40, 0), (48, 7), (56, 16)]), dsc [(0, 1), (40, 0), (48, 7), (56,
    16)], ctx1, List.replicate 16 0, 0, by decide +kernel⟩

def fenS : State := { srv [(0, 2), (40, 64)] with fe := { (srv [(0, 2), (40, 64)]).fe with fences := [(0, ⟨64, 5, 0, false, 1, 0⟩)] } }
theorem witness_FenceCommands_2 : ∃ s : State, ∃ q, ∃ i, ∃ x, ∃ d, ∃ idx, ∃ f, Serves s q i 2 x d ∧ fenceFind s x.ctx (dField d.cur 40 8)
    = some (idx, f) ∧ f.ctx = x.ctx :=
  ⟨fenS, 16, 0, que (dsc [(0, 2), (40, 64)]), dsc [(0, 2), (40, 64)], 0, ⟨64, 5, 0, false, 1, 0⟩, by decide +kernel⟩

theorem witness_FenceCommands_3 : ∃ s : State, feRuns s = true :=
  ⟨upS, by decide +kernel⟩

def waitD : Desc := { raw := w512 [(2, 1), (8, 128), (16, 1)], cur := w512 [(2, 1), (8, 128), (16, 1)], phase := .head }
theorem witness_FenceCommands_4 : ∃ s : State, ∃ q, ∃ x, feRuns s = true ∧ s.queue? q = some x ∧ waitsUnregistered s x = true :=
  ⟨srvD waitD, 16, que waitD, by decide +kernel⟩

/-- A record at address 64 that names entry 0, which a context holds. -/
def regS (ctx : Nat) : State :=
  { srv [(0, 1), (40, 64), (56, 16)] with
    devMem := putBytes [] 64 (leBytes 16 (2 ^ 73))
    fe := { (srv [(0, 1), (40, 64), (56, 16)]).fe with fences := [(0, ⟨64, 5, 0, false, ctx, 0⟩)] } }
theorem witness_FenceCommands_5 : ∃ s : State, ∃ q, ∃ i, ∃ x, ∃ d, ∃ bs, ∃ idx, ∃ f, Serves s q i 1 x d ∧ readRecord s x.ctx (dField d.cur
    40 8) (userDesc q i) = .ok bs ∧ fenceFind s x.ctx (dField d.cur 40 8) = some (idx, f) ∧ f.ctx = x.ctx :=
  ⟨regS 1, 16, 0, que (dsc [(0, 1), (40, 64), (56, 16)]), dsc [(0, 1), (40, 64), (56, 16)], leBytes 16 (2 ^ 73), 0, ⟨64, 5, 0, false, 1,
    0⟩, by decide +kernel⟩

theorem witness_FenceCommands_6 : ∃ s : State, ∃ q, ∃ i, ∃ x, ∃ d, ∃ bs, ∃ e, Serves s q i 1 x d ∧ readRecord s x.ctx (dField d.cur 40 8)
    (userDesc q i) = .ok bs ∧ fenceFind s x.ctx (dField d.cur 40 8) = some e ∧ e.2.ctx ≠ x.ctx :=
  ⟨regS 2, 16, 0, que (dsc [(0, 1), (40, 64), (56, 16)]), dsc [(0, 1), (40, 64), (56, 16)], leBytes 16 (2 ^ 73), (0, ⟨64, 5, 0, false,
    2, 0⟩), by decide +kernel⟩

theorem witness_FenceCommands_7 : ∃ s : State, ∃ q, ∃ i, ∃ x, ∃ d, ∃ c, ∃ bs, Serves s q i 1 x d ∧ s.ctx? x.ctx = some c ∧ readRecord s
    x.ctx (dField d.cur 40 8) (userDesc q i) = .ok bs ∧ fenceFind s x.ctx (dField d.cur 40 8) = none ∧ (1048576 ≤ s.fe.fences.length ∨
    c.fenceMax ≤ ctxFences s x.ctx) :=
  ⟨{ srv [(0, 1), (40, 64), (56, 16)] with fe := { (srv [(0, 1), (40, 64), (56, 16)]).fe with fences := (List.range 4).map (fun k => (k, ⟨4096 + 16 * k, 0, 0, false, 1, 0⟩)) } },
    16, 0, que (dsc [(0, 1), (40, 64), (56, 16)]), dsc [(0, 1), (40, 64), (56, 16)], ctx1, List.replicate 16 0, by decide +kernel⟩

theorem witness_FenceCommands_8 : ∃ s : State, ∃ q, ∃ i, ∃ x, ∃ d, Serves s q i 2 x d ∧ ((fenceFind s x.ctx (dField d.cur 40 8)).any (fun
    e => e.2.ctx == x.ctx)) = false :=
  ⟨srv [(0, 2), (40, 64)], 16, 0, que (dsc [(0, 2), (40, 64)]), dsc [(0, 2), (40, 64)], by decide +kernel⟩

theorem witness_ObjectCommands_1 : ∃ s : State, ∃ q, ∃ i, ∃ x, ∃ d, ∃ c, Serves s q i 0x202 x d ∧ s.ctx? x.ctx = some c ∧ dField d.cur 40
    4 + dField d.cur 44 4 ≤ c.ltaCount ∧ s.fe.objs.any (fun e => e.1 / 2 ^ 23 == x.ctx && overlaps (e.1 % 2 ^ 23) e.2.count (dField d.cur
    40 4) (dField d.cur 44 4)) = false :=
  ⟨srv [(0, 514), (40, 10), (44, 4), (48, 4)], 16, 0, que (dsc [(0, 514), (40, 10), (44, 4), (48, 4)]), dsc [(0, 514), (40, 10), (44,
    4), (48, 4)], ctx1, by decide +kernel⟩

def obj1 : Obj := ⟨4, 0, true, 0⟩
/-- `srv` with an object of four pages at page 0. -/
def srvO (l : List (Nat × Nat)) : State := { srv l with fe := { (srv l).fe with objs := [(2 ^ 23, obj1)] } }
theorem witness_ObjectCommands_2 : ∃ s : State, ∃ q, ∃ i, ∃ x, ∃ d, ∃ c, ∃ o, Serves s q i 0x203 x d ∧ s.ctx? x.ctx = some c ∧ objAt s
    x.ctx (dField d.cur 40 4) = some o ∧ planHeld s x.ctx (dField d.cur 40 4) o.count = false ∧ exportHeld s x.ctx (dField d.cur 40 4)
    o.count = false :=
  ⟨srvO [(0, 515)], 16, 0, que (dsc [(0, 515)]), dsc [(0, 515)], ctx1, obj1, by decide +kernel⟩

theorem witness_ObjectCommands_3 : ∃ s : State, ∃ q, ∃ i, ∃ x, ∃ d, ∃ c, ∃ o, Serves s q i 0x204 x d ∧ s.ctx? x.ctx = some c ∧ objAt s
    x.ctx (dField d.cur 40 4) = some o ∧ pageRange d.cur ≠ [] ∧ fnFrames s c.fn + (emptyPages s c (dField d.cur 40 4) (pageRange
    d.cur)).length ≤ quota s c.fn ∧ (∀ st, st < 8 → needOn o (emptyPages s c (dField d.cur 40 4) (pageRange d.cur)) st ≤ if stackReady s
    st then freeIn s st else 0) :=
  ⟨srvO [(0, 516), (48, 4)], 16, 0, que (dsc [(0, 516), (48, 4)]), dsc [(0, 516), (48, 4)], ctx1, obj1, by decide +kernel⟩

theorem witness_ObjectCommands_4 : ∃ s : State, ∃ q, ∃ i, ∃ x, ∃ d, ∃ c, ∃ o, Serves s q i 0x205 x d ∧ s.ctx? x.ctx = some c ∧ objAt s
    x.ctx (dField d.cur 40 4) = some o ∧ pageRange d.cur ≠ [] ∧ planHeld s x.ctx (dField d.cur 40 4 + dField d.cur 44 4) (dField d.cur 48
    4) = false ∧ exportHeld s x.ctx (dField d.cur 40 4 + dField d.cur 44 4) (dField d.cur 48 4) = false :=
  ⟨srvO [(0, 517), (48, 4)], 16, 0, que (dsc [(0, 517), (48, 4)]), dsc [(0, 517), (48, 4)], ctx1, obj1, by decide +kernel⟩

theorem witness_ObjectCommands_5 : ∃ s : State, ∃ q, ∃ i, ∃ x, ∃ d, ∃ c, ∃ o, Serves s q i 0x206 x d ∧ s.ctx? x.ctx = some c ∧ objAt s
    x.ctx (dField d.cur 40 4) = some o ∧ 0 < dField d.cur 48 4 ∧ hostBase ≤ dField d.cur 56 8 ∧ (objDies o).all (memRuns s) = true :=
  ⟨srvO [(0, 518), (48, 4), (52, 0), (56, hostBase)], 16, 0, que (dsc [(0, 518), (48, 4), (52, 0), (56, hostBase)]), dsc [(0, 518), (48,
    4), (52, 0), (56, hostBase)], ctx1, obj1, by decide +kernel⟩

theorem witness_ObjectCommands_6 : ∃ s : State, ∃ q, ∃ i, ∃ x, ∃ d, ∃ c, ∃ o, Serves s q i 0x207 x d ∧ s.ctx? x.ctx = some c ∧ objAt s
    x.ctx (dField d.cur 40 4) = some o ∧ pageRange d.cur ≠ [] :=
  ⟨srvO [(0, 519), (48, 4), (52, 1)], 16, 0, que (dsc [(0, 519), (48, 4), (52, 1)]), dsc [(0, 519), (48, 4), (52, 1)], ctx1, obj1, by decide +kernel⟩

theorem witness_DataCommands_1 : ∃ s : State, ∃ q, ∃ i, ∃ x, ∃ d, Serves s q i 0 x d :=
  ⟨srv [(0, 0)], 16, 0, que (dsc [(0, 0)]), dsc [(0, 0)], by decide +kernel⟩

def admQ (l : List (Nat × Nat)) : Queue := { que (dsc l) with ctx := 0 }
def admS (l : List (Nat × Nat)) : State := { upS with fe := { upS.fe with queues := [(adminQid, admQ l)] } }
theorem witness_DataCommands_2 : ∃ s : State, ∃ i, ∃ x, ∃ d, ∃ c, Serves s adminQid i 3 x d ∧ s.ctx? (dField d.cur 48 2) = some c :=
  ⟨admS [(0, 3), (40, 4096), (48, 1)], 0, admQ [(0, 3), (40, 4096), (48, 1)], dsc [(0, 3), (40, 4096), (48, 1)], ctx1, by decide +kernel⟩

theorem witness_DataCommands_3 : ∃ s : State, ∃ q, ∃ i, ∃ x, ∃ d, ∃ c, q ≠ adminQid ∧ Serves s q i 3 x d ∧ s.ctx? x.ctx = some c ∧ (walkVa
    s c (dTranslated d.cur) (userDesc q i) (dField d.cur 40 8) 64 true).stop = none :=
  ⟨srv [(0, 3), (40, 64)], 16, 0, que (dsc [(0, 3), (40, 64)]), dsc [(0, 3), (40, 64)], ctx1, by decide +kernel⟩

theorem witness_DataCommands_4 : ∃ s : State, ∃ q, ∃ i, ∃ x, ∃ d, ∃ c, Serves s q i 0x200 x d ∧ copyTurn s q i x d = true ∧ s.ctx? x.ctx =
    some c ∧ 0 < dField d.cur 56 4 ∧ inCaravan (dField d.cur 40 8) = false ∧ inCaravan (dField d.cur 48 8) = false :=
  ⟨srv [(0, 512), (40, 0), (48, 131072), (56, 4)], 16, 0, que (dsc [(0, 512), (40, 0), (48, 131072), (56, 4)]), dsc [(0, 512), (40, 0),
    (48, 131072), (56, 4)], ctx1, by decide +kernel⟩

theorem witness_DataCommands_5 : ∃ s : State, ∃ q, ∃ i, ∃ x, ∃ d, ∃ c, Serves s q i 0x201 x d ∧ copyTurn s q i x d = true ∧ s.ctx? x.ctx =
    some c ∧ 0 < dField d.cur 56 4 ∧ inCaravan (dField d.cur 40 8) = false :=
  ⟨srv [(0, 513), (40, 0), (48, 7), (56, 16)], 16, 0, que (dsc [(0, 513), (40, 0), (48, 7), (56, 16)]), dsc [(0, 513), (40, 0), (48, 7),
    (56, 16)], ctx1, by decide +kernel⟩

theorem witness_DataCommands_6 : ∃ s : State, ∃ from_ : Walk, ∃ to_ : Walk, ∃ len, piecesCross s from_.pieces = true ∧ piecesCross s
    to_.pieces = true ∧ (∀ p ∈ from_.pieces ++ to_.pieces, 0 < p.2) ∧ (from_.pieces.map (·.2)).sum = len ∧ (to_.pieces.map (·.2)).sum =
    len :=
  ⟨upS, { pieces := [(0, 4)], moved := 4 }, { pieces := [(64, 3), (128, 1)], moved := 4 }, 4, by decide +kernel⟩

theorem witness_DataCommands_7 : ∃ s : State, ∃ q, ∃ i, ∃ x, ∃ d, Serves s q i 0x200 x d ∧ copyTurn s q i x d = true ∧ dField d.cur 56 4 =
    0 :=
  ⟨srv [(0, 512)], 16, 0, que (dsc [(0, 512)]), dsc [(0, 512)], by decide +kernel⟩

/-- Context 1 with one peer: a mebibyte of export 5 of node 9. -/
def peerS (d : Desc) : State :=
  { srvD d with
    devMem := putBytes [] 0 (leBytes 16 (9 + 5 * 2 ^ 32 + 2 ^ 20 * 2 ^ 64 + 2 ^ 126 + 2 ^ 127))
    fe := { (srvD d).fe with ctxs := [(1, { ctx1 with peerCount := 1 })] } }
theorem witness_DataCommands_8 : ∃ s : State, ∃ q, ∃ i, ∃ x, ∃ d, Serves s q i 0x200 x d ∧ copyTurn s q i x d = true ∧ 0 < dField d.cur 56
    4 ∧ (copyEnd s x q i (dField d.cur 40 8) (dField d.cur 56 4) d.cur false).1.stop = none ∧ (copyEnd s x q i (dField d.cur 48 8) (dField
    d.cur 56 4) d.cur true).1.stop = none ∧ piecesRun s ((copyEnd s x q i (dField d.cur 40 8) (dField d.cur 56 4) d.cur false).1.pieces ++
    (copyEnd s x q i (dField d.cur 48 8) (dField d.cur 56 4) d.cur true).1.pieces) = true ∧ ((copyEnd s x q i (dField d.cur 40 8) (dField
    d.cur 56 4) d.cur false).2.isSome || (copyEnd s x q i (dField d.cur 48 8) (dField d.cur 56 4) d.cur true).2.isSome) = true :=
  ⟨peerS (dsc [(0, 512), (40, 2 ^ 55), (48, 4096), (56, 64)]), 16, 0, que (dsc [(0, 512), (40, 2 ^ 55), (48, 4096), (56, 64)]), dsc [(0,
    512), (40, 2 ^ 55), (48, 4096), (56, 64)], by decide +kernel⟩

theorem witness_DataCommands_9 : ∃ s : State, ∃ q, ∃ i, ∃ x, ∃ d, Serves s q i 0x201 x d ∧ copyTurn s q i x d = true ∧ dField d.cur 56 4 =
    0 :=
  ⟨srv [(0, 513)], 16, 0, que (dsc [(0, 513)]), dsc [(0, 513)], by decide +kernel⟩

theorem witness_DataCommands_10 : ∃ s : State, ∃ q, ∃ i, ∃ x, ∃ d, ∃ n, ∃ e, ∃ o, Serves s q i 0x201 x d ∧ copyTurn s q i x d = true ∧ 0 <
    dField d.cur 56 4 ∧ (copyEnd s x q i (dField d.cur 40 8) (dField d.cur 56 4) d.cur true).1.stop = none ∧ (copyEnd s x q i (dField
    d.cur 40 8) (dField d.cur 56 4) d.cur true).2 = some (n, e, o) ∧ s.net.jobs.any (fun y => y.2.user == .copy q i) = false :=
  ⟨peerS (dsc [(0, 513), (40, 2 ^ 55), (48, 7), (56, 64)]), 16, 0, que (dsc [(0, 513), (40, 2 ^ 55), (48, 7), (56, 64)]), dsc [(0, 513),
    (40, 2 ^ 55), (48, 7), (56, 64)], 9, 5, 0, by decide +kernel⟩

theorem witness_QueueAndDescriptorCommands_1 : ∃ s : State, ∃ f : Fin 64, ∃ off : Nat, ∃ v : W32, ∃ wr : List Host.Cell, feRuns (putCells
    s wr) = true ∧ s.link.flrBusy = [] ∧ off % 4 = 0 ∧ off < 65536 ∧ (¬(f.val = 0 ∧ off = 0xFFFC)) ∧ liveQueue (putCells s wr) (v.toNat %
    2 ^ 20) f = true :=
  ⟨srv [(0, 513)], 0, 0, 16, [], by decide +kernel⟩

theorem witness_QueueAndDescriptorCommands_2 : ∃ s : State, ∃ wr : List Host.Cell, ∃ x, feRuns (putCells s wr) = true ∧ s.link.flrBusy =
    [] ∧ s.queue? adminQid = some x ∧ x.st = .active :=
  ⟨admS [(0, 513)], [], admQ [(0, 513)], by decide +kernel⟩

theorem witness_QueueAndDescriptorCommands_3 : ∃ s : State, ∃ wr : List Host.Cell, feRuns (putCells s wr) = true :=
  ⟨upS, [], by decide +kernel⟩

/-- A queue whose producer is one ahead, and a FILL at its ring's next place. -/
def rdQ : Queue := { que {} with consumer := 0, descs := [] }
def rdS : State := { upS with fe := { upS.fe with queues := [(16, rdQ)] } }
theorem witness_QueueAndDescriptorCommands_4 : ∃ s : State, ∃ q, ∃ x, s.queue? q = some x ∧ mayRead s x = true ∧ (qWalk s q x (x.ringVa +
    64 * (x.consumer % 2 ^ x.sizeLog2)) 64 false).stop = none :=
  ⟨rdS, 16, rdQ, by decide +kernel⟩

theorem witness_QueueAndDescriptorCommands_5 : ∃ s : State, feRatio s = true :=
  ⟨upS, by decide +kernel⟩

def readD (l : List (Nat × Nat)) : Desc := { raw := w512 l, cur := w512 l }
def headD (l : List (Nat × Nat)) : Desc := { raw := w512 l, cur := w512 l, phase := .head }
/-- A copy queue. -/
def cpyQ (d : Desc) : Queue := { que d with typ := 1 }
def cpyS (d : Desc) : State := { upS with fe := { upS.fe with queues := [(16, cpyQ d)] } }
theorem witness_QueueAndDescriptorCommands_6 : ∃ s : State, ∃ q, ∃ x, ∃ i, ∃ d, feRuns s = true ∧ s.queue? q = some x ∧ x.resident = true
    ∧ headOf x = some (i, d) ∧ d.phase = .read ∧ launchReady s d = true ∧ headCheck s q x d = none :=
  ⟨cpyS (readD [(0, 513), (3, 1), (56, 16)]), 16, cpyQ (readD [(0, 513), (3, 1), (56, 16)]), 0, readD [(0, 513), (3, 1), (56, 16)], by decide +kernel⟩

def dispQ : Queue := { que (readD [(0, 768), (3, 1), (40, 64), (48, 1408)]) with typ := 2 }
def dispS : State := { upS with fe := { upS.fe with queues := [(16, dispQ)] } }
theorem witness_QueueAndDescriptorCommands_7 : ∃ s : State, ∃ q, ∃ x, ∃ i, ∃ d, feRuns s = true ∧ s.queue? q = some x ∧ x.resident = true
    ∧ headOf x = some (i, d) ∧ d.phase = .read ∧ dOpcode d.raw = 0x300 ∧ headCheck s q x d = none :=
  ⟨dispS, 16, dispQ, 0, readD [(0, 768), (3, 1), (40, 64), (48, 1408)], by decide +kernel⟩

/-- `srvD` with an object of four pages at page 0. -/
def objS (d : Desc) : State := { srvD d with fe := { (srvD d).fe with objs := [(2 ^ 23, obj1)] } }
theorem witness_QueueAndDescriptorCommands_8 : ∃ s : State, ∃ q, ∃ x, ∃ i, ∃ d, feRuns s = true ∧ s.queue? q = some x ∧ headOf x = some
    (i, d) ∧ s.desc? q i = some d ∧ d.phase = .head ∧ waitReached s q i x d = true ∧ heldBack x i = false ∧ descNeed s q i x d = some true
    ∧ translatedBad s x d = none ∧ dOpcode d.raw ≠ 0x100 ∧ patchWaits s x d = false ∧ releaseCheck s q x d.raw = none :=
  ⟨objS (headD [(0, 513), (3, 1), (40, 64), (56, 16)]), 16, que (headD [(0, 513), (3, 1), (40, 64), (56, 16)]), 0, headD [(0, 513), (3,
    1), (40, 64), (56, 16)], by decide +kernel⟩

/-- The program records of a step without code. -/
def noProgs : List Prog := List.replicate 32 {}
/-- A plan of one region and one empty step. -/
def plan1 : Plan := { lc := true, be := true, steps := [{ wcet := 20000 }], code := [noProgs], dirs := [{}], costs := [⟨0, 0, 0⟩] }
def ver1 : PlanVer := ⟨1, 0, 1, plan1, 0, 1, true⟩
/-- `srvD` with version 1 of slot 0 stored and resident. -/
def planS (d : Desc) : State := { srvD d with fe := { (srvD d).fe with vers := [(0, ver1)], nextVer := 1, resident := [0] } }
theorem witness_QueueAndDescriptorCommands_9 : ∃ s : State, ∃ q, ∃ x, ∃ i, ∃ d, feRuns s = true ∧ s.queue? q = some x ∧ headOf x = some
    (i, d) ∧ d.phase = .head ∧ waitReached s q i x d = true ∧ heldBack x i = false ∧ descNeed s q i x d = some true ∧ translatedBad s x d
    = none ∧ dOpcode d.raw = 0x100 :=
  ⟨planS { headD [(0, 256), (3, 0), (48, 1000000)] with bound := true, ver := some 0 }, 16, que
    { headD [(0, 256), (3, 0), (48, 1000000)] with bound := true, ver := some 0 }, 0,
    { headD [(0, 256), (3, 0), (48, 1000000)] with bound := true, ver := some 0 }, by decide +kernel⟩

def doneD : Desc := { phase := .done, status := 1 }
theorem witness_QueueAndDescriptorCommands_10 : ∃ s : State, ∃ q, ∃ i, ∃ x, ∃ d, feRuns s = true ∧ s.queue? q = some x ∧ s.desc? q i =
    some d ∧ d.phase = .done ∧ lateBreach d s = none ∧ dSignalEn d.cur = false ∧ dChain d.cur = false :=
  ⟨srvD doneD, 16, 0, que doneD, doneD, by decide +kernel⟩

theorem witness_QueueAndDescriptorCommands_11 : ∃ s : State, ∃ v : Nat, ∃ m : ModState, mfind s.link.mods v = some m :=
  ⟨{ upS with link := { upS.link with mods := [(1, {})] } }, 1, {}, by decide +kernel⟩

/-- Done, its signal going to a fence record in host memory that the address translation service has yet to translate. -/
def sigD : Desc := { dsc [(2, 2), (24, hostBase)] with phase := .done }
def atsS : State :=
  { srvD sigD with link := { upS.link with funcs := [(0, { busMaster := true, msixEnable := true, atsEnable := true })] } }
theorem witness_QueueAndDescriptorCommands_12 : ∃ s : State, ∃ q, ∃ x, ∃ i, ∃ d, ∃ page, feRuns s = true ∧ s.queue? q = some x ∧ s.desc? q
    i = some d ∧ d.phase = .done ∧ lateBreach d s = none ∧ signalPage s x d.cur = some page :=
  ⟨atsS, 16, que sigD, 0, sigD, 0, by decide +kernel⟩

theorem witness_QueueAndDescriptorCommands_13 : ∃ s : State, ∃ q, ∃ x, ∃ i, ∃ d, feRuns s = true ∧ s.queue? q = some x ∧ s.desc? q i =
    some d ∧ d.phase = .done ∧ lateBreach d s = none ∧ signalPage s x d.cur = none ∧ dChain d.cur = false :=
  ⟨srvD doneD, 16, que doneD, 0, doneD, by decide +kernel⟩

/-- A FILL done whose chain goes on with the FILL at address 512. -/
def chnD : Desc := { dsc [(0, 513), (2, 8), (60, 8)] with phase := .done }
def chnS : State :=
  { cpyS chnD with
    devMem := putBytes [] 512 (leBytes 64 (w512 [(0, 513), (3, 1), (40, 64), (56, 16)]).toNat)
    fe := { (cpyS chnD).fe with objs := [(2 ^ 23, obj1)] } }
theorem witness_PlanCommands_1 : ∃ s : State, ∃ q, ∃ i, ∃ x, ∃ d : Desc, ∃ v : Nat, s.queue? q = some x ∧ s.desc? q i = some d ∧
    x.consumer ≠ i ∧ d.bound = false ∧ dOpcode d.raw = 0x100 ∧ d.phase = .read ∧ bindBlocked s x i d.raw = false ∧ chooseVer s x.ctx d.raw
    = .ok v :=
  ⟨planS (readD [(0, 256), (48, 1000000)]), 16, 0, que (readD [(0, 256), (48, 1000000)]), readD [(0, 256), (48, 1000000)], 0, by decide +kernel⟩

theorem witness_PlanCommands_2 : ∃ s : State, ∃ q, ∃ i, ∃ d : Desc, ∃ v : Nat, feRuns s = true ∧ s.desc? q i = some d ∧ d.ver = some v ∧
    (s.fe.resident.contains v = true ∨ (s.fe.resident.filter (· != v)).length < 48) :=
  ⟨planS { readD [(0, 256), (48, 1000000)] with ver := some 0 }, 16, 0, { readD [(0, 256), (48, 1000000)] with ver := some 0 }, 0, by decide +kernel⟩

/-- Versions 0 to 47 resident, none of them in use, and a descriptor bound to version 48. -/
def lruS : State :=
  { srvD { ver := some 48, phase := .released } with
    fe := { (srvD { ver := some 48, phase := .released }).fe with resident := List.range 48 } }
theorem witness_PlanCommands_3 : ∃ s : State, ∃ q, ∃ i, ∃ d : Desc, ∃ v : Nat, ∃ old : Nat, feRuns s = true ∧ s.desc? q i = some d ∧ d.ver
    = some v ∧ s.fe.resident.contains v = false ∧ 48 ≤ (s.fe.resident.filter (· != v)).length ∧ (s.fe.resident.filter (· !=
    v)).reverse.find? (fun w => !verHeld s w) = some old :=
  ⟨lruS, 16, 0, { ver := some 48, phase := .released }, 48, 47, by decide +kernel⟩

theorem witness_PlanCommands_4 : ∃ s : State, ∃ q, ∃ i, ∃ x, ∃ d : Desc, Serves s q i 0x101 x d ∧ dField d.cur 48 2 < 4096 ∧ currentVer s
    x.ctx (dField d.cur 48 2) = none :=
  ⟨srv [(0, 257), (48, 5)], 16, 0, que (dsc [(0, 257), (48, 5)]), dsc [(0, 257), (48, 5)], by decide +kernel⟩

theorem witness_PlanCommands_5 : ∃ s : State, ∃ q, ∃ i, ∃ x, ∃ d : Desc, ∃ v : Nat, ∃ y, Serves s q i 0x102 x d ∧ currentVer s x.ctx
    (dField d.cur 48 2) = some (v, y) ∧ (slotVers s x.ctx (dField d.cur 48 2)).length < 8 :=
  ⟨planS (dsc [(0, 258), (48, 0)]), 16, 0, que (dsc [(0, 258), (48, 0)]), dsc [(0, 258), (48, 0)], 0, ver1, by decide +kernel⟩

/-- A container written out from R39 to R45, R121 and R200: one region, one BE step without code. -/
def container : List (Nat × Byte) :=
  [(0, 75#8), (1, 82#8), (2, 75#8), (3, 80#8), (4, 1#8), (6, 5#8), (9, 4#8), (16, 1#8), (20, 1#8), (21, 4#8),
   (48, 13#8), (49, 50#8), (50, 162#8), (51, 231#8), (64, 1#8), (68, 64#8), (72, 192#8), (80, 2#8), (84, 16#8), (85, 2#8),
   (89, 1#8), (96, 3#8), (100, 32#8), (104, 64#8), (105, 3#8), (112, 5#8), (120, 192#8), (121, 3#8), (128, 7#8), (132, 32#8),
   (136, 128#8), (137, 3#8), (200, 32#8), (201, 78#8), (256, 16#8), (260, 32#8), (832, 1#8), (848, 1#8), (856, 32#8)]
def loadS : State := { objS {} with devMem := container }
set_option maxRecDepth 100000 in
theorem witness_PlanCommands_6 : ∃ s : State, ∃ q, ∃ i, ∃ x : Queue, ∃ d : W512, (containerWalk s q i x.ctx (dField d 40 8) (roomAt s
    x.ctx (dField d 40 8))).stop = none ∧ planFault (ofLe (readPieces s (containerWalk s q i x.ctx (dField d 40 8) (roomAt s x.ctx (dField
    d 40 8))).pieces)) (roomAt s x.ctx (dField d 40 8)) (dField d 48 2) = 0 :=
  ⟨loadS, 16, 0, que {}, w512 [(0, 257), (48, 5)], by decide +kernel⟩

theorem witness_PlanCommands_7 : ∃ s : State, ∃ q, ∃ i, ∃ x, ∃ d : Desc, ∃ v : Nat, ∃ y, Serves s q i 0x103 x d ∧ currentVer s x.ctx
    (dField d.cur 48 2) = some (v, y) :=
  ⟨planS (dsc [(0, 259), (48, 0)]), 16, 0, que (dsc [(0, 259), (48, 0)]), dsc [(0, 259), (48, 0)], 0, ver1, by decide +kernel⟩

def lc1 : Launch := { q := 16, ctx := 1, lc := true, deadline := 100000, regions := [3] }
def be1 : Launch := { q := 16, ctx := 1, regions := [3], phase := .running }
/-- One launch, placed on region 3 in this state of the region. -/
def runS (x : Launch) (r : Region) : State :=
  { upS with fe := { upS.fe with vers := [(0, ver1)], nextVer := 1, resident := [0], launches := [(0, x)], nextLaunch := 1 }, rgns := [(3, r)] }
def onIt : Region := { st := .inService, launch := some 0 }
theorem witness_LaunchTurnsAndPoints_1 : ∃ s : State, ∃ r : Fin 16, ∃ l, ∃ x : Launch, ∃ t : State, edfHead s (groupOf s r) = some (l, x)
    ∧ s.flt.safe = false ∧ waits x = true ∧ inTheWay s (groupOf s r) l x = [] ∧ placeLaunch s l x.regions = some t :=
  ⟨runS lc1 { st := .inService }, 3, 0, lc1, (placeLaunch (runS lc1 { st := .inService }) 0 [3]).getD upS, by decide +kernel⟩

theorem witness_LaunchTurnsAndPoints_2 : ∃ s : State, ∃ r : Fin 16, ∃ l, ∃ x : Launch, edfHead s (groupOf s r) = some (l, x) ∧ s.flt.safe
    = false ∧ waits x = true ∧ inTheWay s (groupOf s r) l x ≠ [] :=
  ⟨runS lc1 { onIt with launch := some 1 }, 3, 0, lc1, by decide +kernel⟩

theorem witness_LaunchTurnsAndPoints_3 : ∃ s : State, s.flt.safe = false :=
  ⟨upS, by decide +kernel⟩

theorem witness_LaunchTurnsAndPoints_4 : ∃ s : State, ∃ l, ∃ x : Launch, s.launch? l = some x ∧ s.flt.safe = false ∧ rd s 0x010600 % 2 ^
    24 ≠ 0 ∧ isBeRun x = true ∧ x.phase = .running :=
  ⟨runS be1 onIt, 0, be1, by decide +kernel⟩

/-- A plan whose step has one slip point, at which region 3 stands. -/
def planSl : Plan := { plan1 with steps := [{ wcet := 20000, slipCount := 1 }], slips := [⟨0, 5, 0, 0⟩] }
def slipS (x : Launch) : State :=
  { runS x onIt with
    fe := { (runS x onIt).fe with vers := [(0, ⟨1, 0, 1, planSl, 0, 1, true⟩)] }
    cores := [(96, { lgs := [(0, { st := .atSlip 0 0 })] })] }
theorem witness_LaunchTurnsAndPoints_5 : ∃ s : State, ∃ r : Fin 16, ∃ l, ∃ x : Launch, ∃ p : Plan, ∃ j, launchAt s r = some (l, x) ∧
    s.planOf x.ver = some p ∧ regionSlip s r = some j ∧ s.flt.safe = false ∧ slipReached s p x r j = true ∧ (s.rgn r).held = none ∧
    x.phase = .running ∧ x.stop = none ∧ semsZero s r = true ∧ rgnRuns s r = true :=
  ⟨slipS be1, 3, 0, be1, planSl, 0, by decide +kernel⟩

theorem witness_LaunchTurnsAndPoints_6 : ∃ s : State, ∃ r : Fin 16, ∃ l, ∃ x : Launch, ∃ p : Plan, ∃ j, launchAt s r = some (l, x) ∧
    s.planOf x.ver = some p ∧ regionSlip s r = some j ∧ s.flt.safe = false ∧ slipReached s p x r j = true ∧ (s.rgn r).held = none ∧
    x.phase = .yielding ∧ x.stop = none ∧ semsZero s r = true ∧ x.regions = [r.val] ∧ rgnRuns s r = true :=
  ⟨slipS { be1 with phase := .yielding }, 3, 0, { be1 with phase := .yielding }, planSl, 0, by decide +kernel⟩

theorem witness_LaunchTurnsAndPoints_7 : ∃ s : State, ∃ l, ∃ x : Launch, ∃ p : Plan, s.launch? l = some x ∧ s.planOf x.ver = some p ∧
    s.flt.safe = false ∧ x.phase = .yielding ∧ x.regions.all (readyToSave s p x) = true ∧ x.lostUnits = 0 ∧ x.regions.all (rgnRuns s) =
    true ∧ poolRuns s = true :=
  ⟨runS { be1 with phase := .yielding } { onIt with held := some 0 }, 0, { be1 with phase := .yielding }, plan1, by decide +kernel⟩

theorem witness_LaunchTurnsAndPoints_8 : ∃ s : State, ∃ l, ∃ x : Launch, ∃ p : Plan, s.launch? l = some x ∧ s.planOf x.ver = some p ∧
    s.flt.safe = false ∧ x.phase = .restoring ∧ x.regions.all (rgnRuns s) = true ∧ poolRuns s = true :=
  ⟨runS { be1 with phase := .restoring } onIt, 0, { be1 with phase := .restoring }, plan1, by decide +kernel⟩

theorem witness_LaunchTurnsAndPoints_9 : ∃ s : State, ∃ l, ∃ x : Launch, ∃ p : Plan, s.launch? l = some x ∧ s.planOf x.ver = some p ∧
    s.flt.safe = false ∧ (x.phase = .running ∨ x.phase = .yielding) ∧ x.regions.all (fun r => (s.rgn r).held == none && rgnRuns s r &&
    regionFinished s x r) = true ∧ x.stop = none ∧ x.regions.all (semsZero s) = true :=
  ⟨runS be1 onIt, 0, be1, plan1, by decide +kernel⟩

theorem witness_LaunchTurnsAndPoints_10 : ∃ s : State, ∃ l, ∃ x : Launch, ∃ p : Plan, ∃ t : State, s.launch? l = some x ∧ s.planOf x.ver =
    some p ∧ s.flt.safe = false ∧ x.phase = .peerWait ∧ x.stop = none ∧ (p.waits.filter (fun w => w.step == x.step)).foldl (takeWait x)
    (some s) = some t :=
  ⟨runS { be1 with phase := .peerWait } onIt, 0, { be1 with phase := .peerWait }, plan1, runS { be1 with phase := .peerWait } onIt, by decide +kernel⟩

/-- A launch whose model 7 is still to be loaded. -/
def modelS : State :=
  { runS { be1 with phase := .loading } onIt with
    fe := { (runS { be1 with phase := .loading } onIt).fe with
      vers := [(0, ⟨1, 0, 1, { plan1 with models := [⟨7, 0, 0, 4096⟩] }, 0, 1, true⟩)]
      residency := [⟨1, 7, [3], 0, 4096, [0], false, 0⟩] } }
theorem witness_LaunchTurnsAndPoints_11 : ∃ s : State, ∃ l, ∃ x : Launch, ∃ c, ∃ m, ∃ y, s.launch? l = some x ∧ s.flt.safe = false ∧
    x.phase = .loading ∧ s.ctx? x.ctx = some c ∧ modelsOf s x = [m] ∧ resFind s x.ctx m x.regions = some y ∧ y.loaded = false :=
  ⟨modelS, 0, { be1 with phase := .loading }, ctx1, ⟨7, 0, 0, 4096⟩, ⟨1, 7, [3], 0, 4096, [0], false, 0⟩, by decide +kernel⟩

theorem witness_LaunchesCutShort_1 : ∃ s : State, ∃ l, ∃ x : Launch, ∃ p : Plan, s.launch? l = some x ∧ s.planOf x.ver = some p ∧
    s.flt.safe = false ∧ isAdmitted x = true ∧ x.phase = .running ∧ x.excused = false ∧ x.excess = 0 ∧ atBoundary s x = false ∧ feOf
    (stepOf p x.step).wcet + (stepOf p x.step).unplanned * 1120 + 1600 + x.excl + flightExcess s x p < s.now - x.stepStamp :=
  ⟨{ runS { lc1 with phase := .running } onIt with now := 100000 }, 0, { lc1 with phase := .running }, plan1, by decide +kernel⟩

theorem witness_LaunchesCutShort_2 : ∃ s : State, ∃ r : Fin 16, ∃ l, ∃ x : Launch, ∃ st, ∃ d, launchAt s r = some (l, x) ∧ s.flt.safe =
    false ∧ x.stop = some (st, d) :=
  ⟨runS { be1 with stop := some (5, 0x0801) } onIt, 3, 0, { be1 with stop := some (5, 0x0801) }, 5, 0x0801, by decide +kernel⟩

def waitS : State :=
  { runS { be1 with phase := .yielding } onIt with link := { upS.link with waits := [{ user := userLaunch 0, fn := 0, pasid := none, page := 0 }] } }
theorem witness_LaunchesCutShort_3 : ∃ s : State, ∃ r : Fin 16, ∃ l, ∃ x : Launch, launchAt s r = some (l, x) ∧ s.flt.safe = false ∧
    x.stop = none ∧ x.phase = .yielding ∧ isBeRun x = true ∧ s.link.waits.any (fun w => w.user == userLaunch l) = true :=
  ⟨waitS, 3, 0, { be1 with phase := .yielding }, by decide +kernel⟩

/-- Region 3 in this state, and nothing on it. -/
def rgnS (st : RgnState) : State := { upS with rgns := [(3, { st := st })] }
theorem witness_RegionCommands_1 : ∃ s : State, ∃ r : Fin 16, blockUp s 0x010610 = true ∧ (s.rgn r).st = .inService :=
  ⟨rgnS .inService, 3, by decide +kernel⟩

theorem witness_RegionCommands_2 : ∃ s : State, ∃ r : Fin 16, blockUp s 0x010610 = true ∧ (s.rgn r).st = .inService ∨ (s.rgn r).st =
    .draining :=
  ⟨rgnS .draining, 3, by decide +kernel⟩

theorem witness_RegionCommands_3 : ∃ s : State, ∃ r : Fin 16, blockUp s 0x010614 = true ∧ (s.rgn r).st = .out :=
  ⟨rgnS .out, 3, by decide +kernel⟩

theorem witness_RegionCommands_4 : ∃ s : State, ∃ r : Fin 16, s.flt.safe = false ∧ (s.rgn r).st = .testing ∧ (s.pwr.dev = .starting ∨
    s.pwr.dev = .up) :=
  ⟨rgnS .testing, 3, by decide +kernel⟩

theorem witness_RegionCommands_5 : ∃ s : State, ∃ r : Fin 16, ∃ bad : BitVec 8, s.flt.safe = false ∧ (s.rgn r).st = .testing ∧ (s.pwr.dev
    = .starting ∨ s.pwr.dev = .up) ∧ bad ≠ 0 :=
  ⟨rgnS .testing, 3, 0xFF, by decide +kernel⟩

theorem witness_RegionCommands_6 : ∃ s : State, ∃ r : Fin 16, feRuns s = true ∧ bitOf (rd s 0x040008) 0 = true ∧ (s.rgn r).idleSince +
    1024 * field (rd s 0x040008) 8 16 ≤ s.now ∧ (s.rgn r).st = .inService ∧ (s.rgn r).napping = false ∧ (s.rgn r).launch = none ∧
    s.fe.launches.any (fun p => isAdmitted p.2 && p.2.regions.contains r.val) = false :=
  ⟨{ rgnS .inService with now := 2000000 }, 3, by decide +kernel⟩

/-- Region 3 napping, and a launch released that is placed nowhere yet. -/
def napS : State :=
  { upS with
    rgns := [(3, { st := .inService, napping := true })]
    fe := { upS.fe with launches := [(0, { q := 16, ctx := 1 })] } }
theorem witness_RegionCommands_7 : ∃ s : State, ∃ r : Fin 16, s.flt.safe = false ∧ (s.rgn r).napping = true ∧ needsRegion s r = true :=
  ⟨napS, 3, by decide +kernel⟩

/-- The admin queue with a released descriptor and a creation record at host address 4,096. -/
def mkS (l : List (Nat × Nat)) (rec_ : Nat) : State := { admS l with hostMem := putBytes [] 4096 (leBytes 64 rec_) }
theorem witness_AdminCommands_1 : ∃ s : State, ∃ q, ∃ i, ∃ x, ∃ d, ∃ k, Serves s q i 0xF00 x d ∧ s.link.flrBusy = [] ∧ fnExists s (field
    (creationRecord s d.cur) 0 6) = true ∧ segmentBad s (field (creationRecord s d.cur) 0 6) (field (creationRecord s d.cur) 64 23) (field
    (creationRecord s d.cur) 96 24) = false ∧ mfresh s.fe.ctxs 65536 0 = some k ∧ hostBar s 0 (dField d.cur 40 8) = none :=
  ⟨mkS [(0, 3840), (40, 4096)] (4096 * 2 ^ 64 + 16 * 2 ^ 96), adminQid, 0, admQ [(0, 3840), (40, 4096)], dsc [(0, 3840), (40, 4096)], 0,
    by decide +kernel⟩

theorem witness_AdminCommands_2 : ∃ s : State, ∃ q, ∃ i, ∃ x, ∃ d, ∃ c, Serves s q i 0xF01 x d ∧ s.ctx? (dField d.cur 40 2) = some c :=
  ⟨admS [(0, 3841), (40, 1)], adminQid, 0, admQ [(0, 3841), (40, 1)], dsc [(0, 3841), (40, 1)], ctx1, by decide +kernel⟩

theorem witness_AdminCommands_3 : ∃ s : State, ∃ q, ∃ i, ∃ x, ∃ d, ∃ c, Serves s q i 0xF02 x d ∧ s.ctx? (field (creationRecord s d.cur) 0
    16) = some c ∧ s.link.flrBusy = [] ∧ c.st = .live ∧ hostBar s 0 (dField d.cur 40 8) = none :=
  ⟨mkS [(0, 3842), (40, 4096)] (1 + 4 * 2 ^ 32 + 2 ^ 48), adminQid, 0, admQ [(0, 3842), (40, 4096)], dsc [(0, 3842), (40, 4096)], ctx1,
    by decide +kernel⟩

def qdS : State := { upS with fe := { upS.fe with queues := [(16, que {}), (adminQid, admQ [(0, 3843), (40, 16)])] } }
/-- `qdS` with the work of queue 16 taken away. -/
def qdT : State :=
  foldState ((que {}).descs.map (·.1)) (endReleased 16) (dropQueueWork 16 (dropUnreleased 16 (qdS.setQueue 16 { que {} with st := .destroyed })))

theorem witness_AdminCommands_4 : Serves qdS adminQid 0 0xF03 (admQ [(0, 3843), (40, 16)]) (dsc [(0, 3843), (40, 16)])
    ∧ dField (dsc [(0, 3843), (40, 16)]).cur 40 4 % 2 ^ 20 = 16 ∧ qdS.queue? 16 = some (que {}) ∧ ∀ z, qdT.queue? 16 = some z → z.descs = [] := by
  refine ⟨by decide +kernel, by decide +kernel, by decide +kernel, ?_⟩
  intro z h
  have e : (qdT.queue? 16).all (fun z => z.descs == []) = true := by decide +kernel
  rw [h] at e
  simpa using e

theorem witness_FrontEndAndClockSettings_1 : ∃ s : State, blockUp s 0x010404 = true ∧ lcIdle s = true :=
  ⟨upS, by decide +kernel⟩

theorem witness_FrontEndAndClockSettings_2 : ∃ s : State, blockUp s 0x010404 = true ∧ lcIdle s = false :=
  ⟨{ upS with regs := [(0x010400, 1#32)] }, by decide +kernel⟩

theorem witness_FrontEndAndClockSettings_3 : ∃ s : State, ∃ v : W32, blockUp s 0x010400 = true ∧ (bitOf v.toNat 0 = false ∨ clocksShort s
    = false) :=
  ⟨upS, 1#32, by decide +kernel⟩

theorem witness_FrontEndAndClockSettings_4 : ∃ s : State, ∃ v : W32, blockUp s 0x010400 = true ∧ bitOf v.toNat 0 = true ∧ clocksShort s =
    true :=
  ⟨{ upS with regs := [(0x030024, 1#32)] }, 1#32, by decide +kernel⟩

theorem witness_FrontEndAndClockSettings_5 : ∃ s : State, blockUp s 0x010604 = true ∧ residencyFree s = true :=
  ⟨upS, by decide +kernel⟩

theorem witness_FrontEndAndClockSettings_7 : ∃ s : State, blockUp s 0x010604 = true ∧ residencyFree s = false :=
  ⟨{ upS with fe := { upS.fe with residency := [⟨1, 7, [3], 0, 4096, [0], false, 0⟩] } }, by decide +kernel⟩

theorem witness_FrontEndAndClockSettings_8 : ∃ s : State, blockUp s 0x040000 = true :=
  ⟨upS, by decide +kernel⟩

theorem witness_FrontEndAndClockSettings_9 : ∃ s : State, ∃ v : W32, blockUp s 0x118 = true ∧ bitOf (rd s 0x118) 0 = false ∧ 4 ≤ field
    v.toNat 8 5 ∧ field v.toNat 8 5 ≤ 20 :=
  ⟨upS, 0x1401#32, by decide +kernel⟩

theorem witness_FrontEndAndClockSettings_10 : ∃ s : State, ∃ v : W32, blockUp s 0x118 = true ∧ bitOf (rd s 0x118) 0 = true ∧ bitOf v.toNat
    0 = false :=
  ⟨{ upS with regs := [(0x118, 0x10401#32)] }, 0x10400#32, by decide +kernel⟩

theorem witness_FrontEndAndClockSettings_11 : ∃ s : State, blockUp s 0x30 = true :=
  ⟨upS, by decide +kernel⟩

theorem witness_FrontEndAndClockSettings_12 : ∃ s : State, blockUp s 0x34 = true :=
  ⟨upS, by decide +kernel⟩

theorem witness_FrontEndAndClockSettings_13 : ∃ s : State, ∃ die : Fin 2, ∃ v : W32, blockUp s (0x030010 + 4 * die) = true ∧ (2200 ≤ 25 *
    clampN 16 104 (field v.toNat 0 7) ∨ lcIdle s = true) :=
  ⟨upS, 1, 88#32, by decide +kernel⟩

theorem witness_FrontEndAndClockSettings_14 : ∃ s : State, ∃ die : Fin 2, ∃ v : W32, blockUp s (0x030010 + 4 * die) = true ∧ 25 * clampN
    16 104 (field v.toNat 0 7) < 2200 ∧ lcIdle s = false :=
  ⟨{ upS with regs := [(0x010400, 1#32)] }, 1, 20#32, by decide +kernel⟩

theorem witness_FrontEndAndClockSettings_15 : ∃ s : State, blockUp s 0x030020 = true ∧ lcIdle s = true :=
  ⟨upS, by decide +kernel⟩

theorem witness_FrontEndAndClockSettings_16 : ∃ s : State, blockUp s 0x030020 = true ∧ lcIdle s = false :=
  ⟨{ upS with regs := [(0x010400, 1#32)] }, by decide +kernel⟩

theorem witness_FrontEndAndClockSettings_17 : ∃ s : State, ∃ v : W32, blockUp s 0x030024 = true ∧ lcIdle s = true ∧ v.toNat % 4 ≠ 3 :=
  ⟨upS, 2#32, by decide +kernel⟩

theorem witness_FrontEndAndClockSettings_18 : ∃ s : State, ∃ v : W32, blockUp s 0x030024 = true ∧ (lcIdle s = false ∨ v.toNat % 4 = 3) :=
  ⟨upS, 3#32, by decide +kernel⟩

theorem witness_FrontEndAndClockSettings_19 : ∃ s : State, ∃ v : W32, blockUp s 0x030000 = true ∧ (s.clk.switching = true ∨ field v.toNat
    16 2 = 2 ∨ (∃ k, k < 11 ∧ (field v.toNat (2 * k) 2 = 3 ∨ (field v.toNat (2 * k) 2 ≠ clkCur s k ∧ sourceOk s k (field v.toNat (2 * k)
    2) = false)))) :=
  ⟨upS, 0x020000#32, by decide +kernel⟩

theorem witness_FrontEndAndClockSettings_20 : ∃ s : State, ∃ v : W32, blockUp s 0x030000 = true ∧ s.clk.switching = false ∧ field v.toNat
    16 2 ≠ 2 ∧ (∀ k, k < 11 → field v.toNat (2 * k) 2 ≠ 3 ∧ (field v.toNat (2 * k) 2 ≠ clkCur s k ∨ s.clk.stopped.contains k = true →
    sourceOk s k (field v.toNat (2 * k) 2) = true)) :=
  ⟨upS, 0x001555#32, by decide +kernel⟩

theorem witness_FrontEndAndClockSettings_21 : ∃ s : State, ∃ v : W32, blockUp s 0x118 = true ∧ bitOf (rd s 0x118) 0 = true ∧ bitOf v.toNat
    0 = true :=
  ⟨{ upS with regs := [(0x118, 0x10401#32)] }, 0x10401#32, by decide +kernel⟩

theorem witness_FrontEndAndClockSettings_22 : ∃ s : State, ∃ v : W32, blockUp s 0x118 = true ∧ bitOf (rd s 0x118) 0 = false ∧ (field
    v.toNat 8 5 < 4 ∨ 20 < field v.toNat 8 5) :=
  ⟨upS, 0x0301#32, by decide +kernel⟩

theorem witness_CollectorCommands_1 : ∃ s : State, ∃ seq : Nat, ∃ r : FltRec, mfind s.flt.hist (seq % 32) = some r ∧ r.seq = seq :=
  ⟨{ upS with flt := { upS.flt with hist := [(1, ⟨33, 1, false, 1, 0, 1, 1, 0, 0, 0, true⟩)], seq := 33 } }, 33, ⟨33, 1, false, 1, 0, 1,
    1, 0, 0, 0, true⟩, by decide +kernel⟩

theorem witness_CollectorCommands_2 : ∃ s : State, s.flt.safe = false :=
  ⟨upS, by decide +kernel⟩

theorem witness_CollectorCommands_3 : ∃ s : State, ∃ v : W32, blockUp s 0x05000C = true ∧ 0 ≤ diff32 v.toNat s.flt.ack ∧ diff32 v.toNat
    s.flt.seq ≤ 0 :=
  ⟨{ upS with flt := { upS.flt with seq := 5 } }, 5#32, by decide +kernel⟩

theorem witness_CollectorCommands_4 : ∃ s : State, ∃ v : W32, blockUp s 0x0B0000 = true ∧ v.toNat % 4 ≠ 0 :=
  ⟨upS, 3#32, by decide +kernel⟩

theorem witness_CollectorCommands_5 : ∃ s : State, blockUp s 0x0B0004 = true :=
  ⟨upS, by decide +kernel⟩

theorem witness_CollectorCommands_7 : ∃ s : State, ∃ v : W32, blockUp s 0x05000C = true ∧ (diff32 v.toNat s.flt.ack < 0 ∨ 0 < diff32
    v.toNat s.flt.seq) :=
  ⟨{ upS with flt := { upS.flt with seq := 5 } }, 6#32, by decide +kernel⟩

theorem witness_CollectorCommands_8 : ∃ s : State, ∃ v : W32, blockUp s 0x0B0000 = true ∧ v.toNat % 4 = 0 :=
  ⟨upS, 4#32, by decide +kernel⟩

theorem witness_ClockTripsAndReturns_1 : ∃ s : State, bar0Up s = true ∧ s.clk.xtalOk = true ∧ s.clk.iboReady = true :=
  ⟨upS, by decide +kernel⟩

theorem witness_ClockTripsAndReturns_2 : ∃ s : State, bar0Up s = true ∧ s.clk.xtalGone = false ∧ s.clk.iboReady = false :=
  ⟨{ upS with clk := { upS.clk with iboReady := false } }, by decide +kernel⟩

theorem witness_ClockTripsAndReturns_3 : ∃ s : State, bar0Up s = true ∧ s.clk.refclkOk = true ∧ s.clk.xtalOk = true :=
  ⟨upS, by decide +kernel⟩

theorem witness_ClockTripsAndReturns_4 : ∃ s : State, bar0Up s = true ∧ s.clk.iboReady = true :=
  ⟨upS, by decide +kernel⟩

theorem witness_ClockTripsAndReturns_5 : ∃ s : State, bar0Up s = true :=
  ⟨upS, by decide +kernel⟩

theorem witness_ClockTripsAndReturns_6 : ∃ s : State, ∃ pll : Fin 15, bar0Up s = true ∧ bitOf s.clk.locks pll = true :=
  ⟨upS, 14, by decide +kernel⟩

theorem witness_ClockTripsAndReturns_7 : ∃ s : State, bar0Up s = true ∧ s.clk.iboReady = false ∧ s.clk.iboFault = false :=
  ⟨{ upS with clk := { upS.clk with iboReady := false, stopped := [0] } }, by decide +kernel⟩

theorem witness_ClockTripsAndReturns_8 : ∃ s : State, s.clk.stopped ≠ [] ∧ s.clk.iboReady = false ∧ s.flt.safe = false :=
  ⟨{ upS with clk := { upS.clk with iboReady := false, stopped := [0] } }, by decide +kernel⟩

theorem witness_ClockTripsAndReturns_9 : ∃ s : State, ∃ pll : Fin 15, bar0Up s = true ∧ (if pll.val = 6 then s.clk.refclkOk else
    s.clk.xtalOk) = true :=
  ⟨upS, 6, by decide +kernel⟩

theorem witness_ClockTripsAndReturns_10 : ∃ s : State, ∃ pll : Fin 15, bar0Up s = true ∧ s.clk.xtalOk = true ∧ bitOf s.clk.locks pll =
    false ∧ s.flt.safe = false ∧ (9 ≤ pll.val ∧ pll.val ≤ 10 → isReady s (36 + (pll.val - 9)) = true) ∧ (11 ≤ pll.val → (head s (pll.val -
    11)).st ≠ .off) ∧ 9 ≤ pll.val :=
  ⟨{ upS with clk := { upS.clk with locks := 0 } }, 9, by decide +kernel⟩

theorem witness_ClockTripsAndReturns_11 : ∃ s : State, s.clk.xtalGone = true ∧ bar0Up s = true :=
  ⟨{ upS with clk := { upS.clk with xtalGone := true } }, by decide +kernel⟩

theorem witness_ClockTripsAndReturns_12 : ∃ s : State, blockUp s 0x0A005C = true :=
  ⟨upS, by decide +kernel⟩

theorem witness_HeatAndBrake_1 : ∃ s : State, ∃ temp : Byte, bar0Up s = true ∧ limitC s + 3 ≤ temp.toNat :=
  ⟨upS, 98, by decide +kernel⟩

theorem witness_HeatAndBrake_2 : ∃ s : State, ∃ temp : Byte, bar0Up s = true ∧ limitC s ≤ temp.toNat ∧ temp.toNat < limitC s + 3 :=
  ⟨upS, 97, by decide +kernel⟩

theorem witness_HeatAndBrake_3 : ∃ s : State, ∃ temp : Byte, temp.toNat < limitC s :=
  ⟨upS, 0, by decide +kernel⟩

theorem witness_HeatAndBrake_5 : ∃ s : State, ∃ temp : Byte, limitC s + 3 ≤ temp.toNat :=
  ⟨upS, 255, by decide +kernel⟩

theorem witness_HeatAndBrake_6 : ∃ s : State, ∃ temp : Byte, bar0Up s = true ∧ temp.toNat < limitC s + 3 :=
  ⟨upS, 97, by decide +kernel⟩

theorem witness_HeatAndBrake_8 : ∃ s : State, bar0Up s = true ∧ s.pwr.brake = false :=
  ⟨upS, by decide +kernel⟩

theorem witness_HeatAndBrake_9 : ∃ s : State, s.pwr.brake = true :=
  ⟨{ upS with pwr := { upS.pwr with brake := true } }, by decide +kernel⟩

theorem witness_HeatAndBrake_10 : ∃ s : State, s.pwr.brake = true :=
  ⟨{ upS with pwr := { upS.pwr with brake := true } }, by decide +kernel⟩

theorem witness_HeatAndBrake_11 : ∃ s : State, s.pwr.brake = false :=
  ⟨upS, by decide +kernel⟩

theorem witness_HeatAndBrake_12 : ∃ s : State, s.pwr.mainPower = true ∧ s.pwr.dev ≠ .oasis :=
  ⟨upS, by decide +kernel⟩

theorem witness_HeatAndBrake_13 : ∃ s : State, bar0Up s = true :=
  ⟨upS, by decide +kernel⟩

theorem witness_OasisCommands_1 : ∃ s : State, s.oas.powered = false :=
  ⟨{ upS with oas := { powered := false } }, by decide +kernel⟩

theorem witness_OasisCommands_2 : ∃ s : State, s.oas.powered = true ∧ s.clk.xtalGone = false ∧ s.pwr.dev ≠ .oasis :=
  ⟨upS, by decide +kernel⟩

theorem witness_OasisCommands_3 : ∃ s : State, ∃ n : Fin 4, blockUp s (0x0A0014 + 16 * n) = true :=
  ⟨upS, 3, by decide +kernel⟩

theorem witness_OasisCommands_4 : ∃ s : State, ∃ n : Fin 4, ∃ v, s.oas.powered = true ∧ (cmp s n).armed = some v ∧ (cmp s n).en = true :=
  ⟨{ upS with oas := { cmps := [(3, { armed := some 0, en := true })] } }, 3, 0, by decide +kernel⟩

theorem witness_OasisCommands_5 : ∃ s : State, ∃ t : Fin 2, ∃ now : Byte, s.oas.powered = true ∧ tempTrips { tempCmp s t with now := now }
    = false :=
  ⟨upS, 1, 110#8, by decide +kernel⟩

theorem witness_OasisCommands_6 : ∃ s : State, ∃ t : Fin 2, ∃ now : Byte, s.oas.powered = true ∧ tempTrips { tempCmp s t with now := now }
    = true :=
  ⟨upS, 1, 111#8, by decide +kernel⟩

theorem witness_OasisCommands_7 : ∃ s : State, ∃ mv : Nat, s.oas.powered = true ∧ mv < s.oas.thresh ∧ 2700 ≤ mv ∧ bar0Up s = true :=
  ⟨upS, 2700, by decide +kernel⟩

theorem witness_OasisCommands_8 : ∃ s : State, blockUp s 0x0A0064 = true ∧ s.oas.latched = true :=
  ⟨{ upS with oas := { latched := true } }, by decide +kernel⟩

theorem witness_FlashAndFuseCommands_1 : ∃ s : State, blockUp s 0x060044 = true ∧ s.sec.flashOp = none :=
  ⟨upS, by decide +kernel⟩

theorem witness_FlashAndFuseCommands_2 : ∃ s : State, blockUp s 0x060044 = true ∧ s.sec.flashOp = none ∧ flashBarred s (field (rd s
    0x060040) 0 26 / 256 * 256) = false :=
  ⟨{ upS with regs := [(0x060040, 0x1FEFFFF#32)] }, by decide +kernel⟩

theorem witness_FlashAndFuseCommands_3 : ∃ s : State, blockUp s 0x060044 = true ∧ s.sec.flashOp = none ∧ flashBarred s (field (rd s
    0x060040) 0 26 / 65536 * 65536) = false :=
  ⟨{ upS with regs := [(0x060040, 0x1FEFFFF#32)] }, by decide +kernel⟩

theorem witness_FlashAndFuseCommands_4 : ∃ s : State, blockUp s 0x060044 = true :=
  ⟨upS, by decide +kernel⟩

theorem witness_FlashAndFuseCommands_5 : ∃ s : State, ∃ f, s.sec.flashOp = some f :=
  ⟨{ upS with sec := { flashOp := some ⟨2, 0, none⟩ } }, ⟨2, 0, none⟩, by decide +kernel⟩

theorem witness_FlashAndFuseCommands_6 : ∃ s : State, blockUp s 0x060010 = true ∧ isReady s 2 = true :=
  ⟨upS, by decide +kernel⟩

theorem witness_FlashAndFuseCommands_7 : ∃ s : State, ∃ v : W32, blockUp s 0x060010 = true ∧ isReady s 2 = true ∧ otpRefusal s (v.toNat %
    16) (rd s 0x060014) = 0 :=
  ⟨{ upS with sec := { armed := some 3 }, regs := [(0x060014, 3#32)] }, 3#32, by decide +kernel⟩

theorem witness_FlashAndFuseCommands_8 : ∃ s : State, ∃ v : W32, blockUp s 0x060010 = true ∧ isReady s 2 = true ∧ otpRefusal s (v.toNat %
    16) (rd s 0x060014) ≠ 0 :=
  ⟨upS, 1, by decide +kernel⟩

def chgS : State := { upS with sec := { change := some ⟨3, 1, 3⟩ } }
theorem witness_FlashAndFuseCommands_9 : ∃ s : State, ∃ c, s.sec.change = some c :=
  ⟨chgS, ⟨3, 1, 3⟩, by decide +kernel⟩

theorem witness_FlashAndFuseCommands_10 : ∃ s : State, ∃ c, ∃ v, s.sec.change = some c ∧ otpReachable c v = true ∧ v ≠ c.goal :=
  ⟨chgS, ⟨3, 1, 3⟩, 2, by decide +kernel⟩

theorem witness_AlarmCommands_1 : ∃ s : State, latchesAlarms s = true ∧ bitOf s.sec.alarms 0 = false :=
  ⟨upS, by decide +kernel⟩

theorem witness_AlarmCommands_2 : ∃ s : State, latchesAlarms s = true ∧ bitOf s.sec.alarms 3 = false :=
  ⟨upS, by decide +kernel⟩

theorem witness_AlarmCommands_3 : ∃ s : State, blockUp s 0x060030 = true :=
  ⟨upS, by decide +kernel⟩

theorem witness_AlarmCommands_4 : ∃ s : State, s.sec.haboob = true :=
  ⟨{ upS with sec := { haboob := true } }, by decide +kernel⟩

theorem witness_AlarmCommands_5 : ∃ s : State, s.pwr.dev = .starting ∧ s.sec.imageLoaded = false ∧ isFailed s 1 = false ∧ s.flt.safe =
    false :=
  ⟨{ upS with pwr := { dev := .starting } }, by decide +kernel⟩

theorem witness_AlarmCommands_6 : ∃ s : State, s.sec.otp.debug < 2 ∧ s.oas.latched = false ∧ s.pwr.dev = .up :=
  ⟨upS, by decide +kernel⟩

theorem witness_AlarmCommands_7 : ∃ s : State, 2 ≤ s.sec.otp.debug :=
  ⟨{ upS with sec := { otp := { debug := 2 } } }, by decide +kernel⟩

theorem witness_AlarmCommands_8 : ∃ s : State, latchesAlarms s = true ∧ bitOf s.sec.alarms 3 = true :=
  ⟨{ upS with sec := { alarms := 8 } }, by decide +kernel⟩

theorem witness_AlarmCommands_9 : ∃ s : State, latchesAlarms s = true ∧ bitOf s.sec.alarms 0 = true :=
  ⟨{ upS with sec := { alarms := 1 } }, by decide +kernel⟩

theorem witness_AlarmCommands_10 : ∃ s : State, latchesAlarms s = false :=
  ⟨{ upS with pwr := { dev := .oasis } }, by decide +kernel⟩

theorem witness_ResetAndPower_1 : ∃ s : State, s.oas.powered = true ∧ s.pwr.dev ≠ .oasis ∧ s.pwr.dev ≠ .dormant :=
  ⟨upS, by decide +kernel⟩

theorem witness_ResetAndPower_2 : ∃ s : State, s.oas.powered = true ∧ s.pwr.dev = .dormant :=
  ⟨{ upS with pwr := { dev := .dormant } }, by decide +kernel⟩

theorem witness_ResetAndPower_3 : ∃ s : State, s.pwr.perst = true ∧ s.pwr.mainPower = true ∧ s.oas.powered = true ∧ s.pwr.dev = .held :=
  ⟨State.reset, by decide +kernel⟩

theorem witness_ResetAndPower_4 : ∃ s : State, s.pwr.perst = true ∧ s.pwr.mainPower = true ∧ s.oas.powered = true ∧ s.pwr.dev = .oasis :=
  ⟨{ upS with pwr := { dev := .oasis } }, by decide +kernel⟩

theorem witness_ResetAndPower_5 : ∃ s : State, s.pwr.mainPower = false ∧ s.pwr.perst = false ∧ s.oas.powered = true ∧ s.pwr.dev = .oasis
    :=
  ⟨{ upS with pwr := { dev := .oasis, mainPower := false, perst := false } }, by decide +kernel⟩

theorem witness_ResetAndPower_6 : ∃ s : State, s.pwr.dev ≠ .oasis :=
  ⟨upS, by decide +kernel⟩

theorem witness_ResetAndPower_8 : ∃ s : State, blockUp s 0x050000 = true ∧ s.flt.safe = true :=
  ⟨{ upS with flt := { safe := true } }, by decide +kernel⟩

theorem witness_ResetAndPower_9 : ∃ s : State, feRuns s = true :=
  ⟨upS, by decide +kernel⟩

theorem witness_ResetAndPower_10 : ∃ s : State, ∃ cause : Fin 5, s.pwr.dev = .dormant ∧ s.clk.xtalGone = false ∧ wakeSource s cause = true
    :=
  ⟨{ upS with pwr := { dev := .dormant } }, 1, by decide +kernel⟩

theorem witness_StartUpReports_1 : ∃ s : State, ∃ speed : Fin 7, ∃ width : Fin 17, ∃ flit : Bool, bar0Up s = true ∧ s.link.dlUp = false ∧
    speed ≠ 0 ∧ width.val ∈ [1, 2, 4, 8, 16] ∧ (speed = 6 → flit = true) :=
  ⟨{ upS with link := {} }, 6, 16, true, by decide +kernel⟩

theorem witness_StartUpReports_2 : ∃ s : State, s.pwr.dev = .starting ∧ s.sec.imageLoaded = true ∧ s.flt.safe = false :=
  ⟨{ upS with pwr := { dev := .starting }, sec := { imageLoaded := true } }, by decide +kernel⟩

theorem witness_StartUpReports_3 : ∃ s : State, ∃ k : Fin 8, bar0Up s = true ∧ s.flt.safe = false ∧ s.boot.reported.contains k.val = false
    ∧ s.mem.ltaImage = false :=
  ⟨upS, 7, by decide +kernel⟩

def dorS : State := { upS with mem := { upS.mem with ltaImage := true, hbm := List.replicate 8 {} } }
theorem witness_StartUpReports_4 : ∃ s : State, ∃ k : Fin 8, s.pwr.dev = .up ∧ s.flt.safe = false ∧ s.mem.ltaImage = true ∧ (stackAt s
    k).st = .training :=
  ⟨dorS, 7, by decide +kernel⟩

theorem witness_StartUpReports_5 : ∃ s : State, ∃ k : Fin 8, s.pwr.dev = .up ∧ s.flt.safe = false ∧ s.mem.ltaImage = true ∧ (stackAt s
    k).st = .training :=
  ⟨dorS, 7, by decide +kernel⟩

theorem witness_StartUpReports_6 : ∃ s : State, ∃ u, bar0Up s = true ∧ s.flt.safe = false ∧ isReady s (unitBit u) = false ∧ isFailed s
    (unitBit u) = false :=
  ⟨{ upS with boot := {} }, .media 3, by decide +kernel⟩

theorem witness_FunctionCommands_1 : ∃ s : State, ∃ f : Fin 64, isReady s 0 = true ∧ fnExists s f = true :=
  ⟨upS, 2, by decide +kernel⟩

theorem witness_FunctionCommands_3 : ∃ s : State, ∃ f : Fin 64, ∃ off, fnExists s f = true ∧ off < 16 * nVectors f ∧ (if f.val = 0 then
    blockUp s 0xF00000 else blockUp s 0 && !s.flt.safe) = true :=
  ⟨upS, 2, 508, by decide +kernel⟩

theorem witness_FunctionCommands_4 : ∃ s : State, ∃ f : Fin 64, f.val ≠ 0 ∧ fnExists s f = true ∧ feRuns s = true :=
  ⟨upS, 2, by decide +kernel⟩

theorem witness_FunctionCommands_5 : ∃ s : State, s.link.vfEnable = true ∧ feRuns s = true :=
  ⟨upS, by decide +kernel⟩

theorem witness_FunctionCommands_6 : ∃ s : State, isReady s 0 = true ∧ feRuns s = true :=
  ⟨upS, by decide +kernel⟩

theorem witness_HostAccessesAndErrors_1 : ∃ s : State, ∃ off, ∃ n, inBar4 s off n = true :=
  ⟨upS, 2 ^ 28 - 64, 64, by decide +kernel⟩

theorem witness_HostAccessesAndErrors_2 : ∃ s : State, ∃ off, ∃ data : List (Option Byte), inBar4 s off data.length = true :=
  ⟨upS, 2 ^ 28 - 4, [some 1, none, some 3, some 4], by decide +kernel⟩

theorem witness_HostAccessesAndErrors_3 : ∃ s : State, ∃ f : Fin 64, ∃ off, ∃ size : Nat, s.link.dlUp = true ∧ fnExists s f = true ∧
    accessOk s f off size = false :=
  ⟨upS, 2, 6, 4, by decide +kernel⟩

theorem witness_HostAccessesAndErrors_4 : ∃ s : State, ∃ off, off < 2 ^ 24 ∧ off % 4 = 0 ∧ inMsix 0 off = false ∧ fnExists s 0 = true ∧
    blockUp s off = true :=
  ⟨upS, 0x090504, by decide +kernel⟩

theorem witness_HostAccessesAndErrors_5 : ∃ s : State, ∃ off, off < 2 ^ 24 ∧ off % 4 = 0 ∧ inMsix 0 off = false ∧ fnExists s 0 = true ∧
    s.link.dlUp = true ∧ blockUp s off = false :=
  ⟨{ upS with boot := { ready := 1 } }, 0x010400, by decide +kernel⟩

theorem witness_HostAccessesAndErrors_6 : ∃ s : State, ∃ f : Fin 64, ∃ off, f.val ≠ 0 ∧ fnExists s f = true ∧ off < 2 ^ 16 ∧ off % 4 = 0 ∧
    inMsix f off = false ∧ blockUp s 0 = true ∧ s.flt.safe = false :=
  ⟨upS, 2, 8, by decide +kernel⟩

theorem witness_HostAccessesAndErrors_7 : ∃ s : State, s.link.dlUp = true :=
  ⟨upS, by decide +kernel⟩

theorem witness_HostAccessesAndErrors_8 : ∃ s : State, feRuns s = true :=
  ⟨upS, by decide +kernel⟩

theorem witness_HostAccessesAndErrors_9 : ∃ s : State, ∃ k : Fin 8, s.link.dlUp = true ∧ (ide s k).st = .secure :=
  ⟨{ upS with link := { upS.link with ide := [(7, { st := .secure })] } }, 7, by decide +kernel⟩

theorem witness_HostAccessesAndErrors_10 : ∃ s : State, s.link.dlUp = true ∧ feRuns s = true ∧ s.fe.queues.all (fun e =>
    e.2.descs.isEmpty) = true ∧ s.fe.launches = [] ∧ s.link.waits = [] ∧ s.mem.prgs = [] ∧ s.link.held = [] :=
  ⟨upS, by decide +kernel⟩

theorem witness_IdentityCommands_2 : ∃ s : State, ∃ m : List Byte, s.link.dlUp = true ∧ s.link.doe.request = none ∧ m.length ≤ 4096 :=
  ⟨upS, [], by decide +kernel⟩

theorem witness_IdentityCommands_4 : ∃ s : State, ∃ r, s.link.doe.request = some r ∧ isReady s 2 = true :=
  ⟨{ upS with link := { upS.link with doe := { request := some ⟨0, [], .none⟩ } } }, ⟨0, [], .none⟩, by decide +kernel⟩

theorem witness_IdentityCommands_5 : ∃ s : State, (s.link.doe.request = none ∨ isReady s 2 = false) :=
  ⟨upS, by decide +kernel⟩

theorem witness_IdentityCommands_8 : ∃ s : State, latchesAlarms s = true :=
  ⟨upS, by decide +kernel⟩

theorem witness_UnitAndCoreErrors_1 : ∃ s : State, s.flt.safe = false :=
  ⟨upS, by decide +kernel⟩

theorem witness_UnitAndCoreErrors_2 : ∃ s : State, s.flt.safe = true :=
  ⟨{ upS with flt := { safe := true } }, by decide +kernel⟩

theorem witness_UnitAndCoreErrors_3 : ∃ s : State, s.flt.safe = false :=
  ⟨upS, by decide +kernel⟩

theorem witness_UnitAndCoreErrors_4 : ∃ s : State, ∃ c : Fin 512, ∃ l, ∃ x : Launch, s.flt.safe = false ∧ coreLaunch s c = some (l, x) :=
  ⟨runS be1 onIt, 127, 0, be1, by decide +kernel⟩

theorem witness_UnitAndCoreErrors_5 : ∃ s : State, ∃ c : Fin 512, ∃ clearing, s.flt.safe = false ∧ (coreLaunch s c = none ∨ clearing =
    true) :=
  ⟨upS, 0, false, by decide +kernel⟩

theorem witness_UnitAndCoreErrors_6 : ∃ s : State, ∃ c : Fin 512, ∃ l, ∃ x : Launch, s.flt.safe = false ∧ coreLaunch s c = some (l, x) :=
  ⟨runS be1 onIt, 127, 0, be1, by decide +kernel⟩

theorem witness_UnitAndCoreErrors_7 : ∃ s : State, ∃ cl : Fin 128, ∃ c : Fin 512, ∃ w : Nat, ∃ e : Nat, ∃ lg, ∃ y : CLine, s.flt.safe =
    false ∧ mfind (s.cdc cl).lines (256 * w + e) = some y ∧ y.dirty = false ∧ (c.val, lg, y.line) ∉ (s.cdc cl).refetch :=
  ⟨{ upS with cdcs := [(0, { lines := [(0, { line := 0 })] })] }, 0, 0, 0, 0, 0, { line := 0 }, by decide +kernel⟩

theorem witness_UnitAndCoreErrors_8 : ∃ s : State, ∃ cl : Fin 128, ∃ c : Fin 512, ∃ w : Nat, ∃ e : Nat, ∃ lg, ∃ y : CLine, ∃ l, ∃ x :
    Launch, s.flt.safe = false ∧ mfind (s.cdc cl).lines (256 * w + e) = some y ∧ y.dirty = false ∧ (c.val, lg, y.line) ∈ (s.cdc
    cl).refetch ∧ coreLaunch s c = some (l, x) :=
  ⟨{ runS be1 onIt with cdcs := [(31, { lines := [(0, { line := 0 })], refetch := [(127, 5, 0)] })] }, 31, 127, 0, 0, 5, { line := 0 },
    0, be1, by decide +kernel⟩

theorem witness_MemoryEvents_1 : ∃ s : State, ∃ frame : Fin 4718592, s.flt.safe = false ∧ frameAt s frame = .scrubbing ∧ stackReady s
    (stackOf frame) = true :=
  ⟨upS, 0, by decide +kernel⟩

theorem witness_MemoryEvents_2 : ∃ s : State, s.flt.safe = false :=
  ⟨upS, by decide +kernel⟩

theorem witness_MemoryEvents_3 : ∃ s : State, ∃ frame : Fin 4718592, s.flt.safe = false ∧ stackReady s (stackOf frame) = true :=
  ⟨upS, 4718591, by decide +kernel⟩

theorem witness_MemoryEvents_4 : ∃ s : State, ∃ k : Fin 8, s.flt.safe = false ∧ stackReady s k = true :=
  ⟨upS, 7, by decide +kernel⟩

theorem witness_MemoryEvents_5 : ∃ s : State, ∃ die : Fin 2, s.flt.safe = false ∧ s.mem.mirrorMissing.contains die.val = true :=
  ⟨{ upS with mem := { upS.mem with mirrorMissing := [1] } }, 1, by decide +kernel⟩

theorem witness_HostTranslation_1 : ∃ s : State, ∃ f : Fin 64, ∃ p : Option (BitVec 20), tagBusy s f (p.map (·.toNat)) = false :=
  ⟨upS, 2, none, by decide +kernel⟩

def pgS : State :=
  { upS with
    link := { upS.link with waits := [{ user := 0, fn := 0, pasid := none, page := 5 }] } }
def prgS : State := { upS with mem := { upS.mem with prgs := [(3, { fn := 0, pasid := none, page := 5, stamp := 0 })] } }
theorem witness_HostTranslation_2 : ∃ s : State, ∃ f : Fin 64, ∃ p : Option (BitVec 20), ∃ page, s.link.waits.any (fun x => sameTag x.fn
    x.pasid f (p.map (·.toNat)) && x.page == page && x.fail == none) = true ∧ prgOf s f (p.map (·.toNat)) page = none :=
  ⟨pgS, 0, none, 5, by decide +kernel⟩

theorem witness_HostTranslation_3 : ∃ s : State, ∃ prg : Nat, ∃ g : Prg, mfind s.mem.prgs prg = some g ∧ g.dead = false ∧ g.retried =
    false :=
  ⟨prgS, 3, { fn := 0, pasid := none, page := 5, stamp := 0 }, by decide +kernel⟩

theorem witness_HostTranslation_4 : ∃ s : State, ∃ prg : Nat, ∃ g : Prg, mfind s.mem.prgs prg = some g ∧ g.dead = false ∧ field (rd s
    0x020014) 0 16 ≠ 0 :=
  ⟨prgS, 3, { fn := 0, pasid := none, page := 5, stamp := 0 }, by decide +kernel⟩

theorem witness_HeadCommands_1 : ∃ s : State, ∃ h : Fin 4, blockUp s (headBase h) = true ∧ (head s h).st = .off ∧ (head s h).failed =
    false :=
  ⟨upS, 3, by decide +kernel⟩

theorem witness_HeadCommands_2 : ∃ s : State, ∃ h : Fin 4, blockUp s (headBase h) = true ∧ (head s h).failed = true :=
  ⟨{ upS with heads := [(3, { failed := true })] }, 3, by decide +kernel⟩

/-- Head 3 enabled, in this state. -/
def hdS (st : HeadState) (hpd : Bool) : State :=
  { upS with heads := [(3, { st := st, hpd := hpd })], regs := [(0x074000, 9#32)] }
theorem witness_HeadCommands_3 : ∃ s : State, ∃ h : Fin 4, blockUp s (headBase h) = true ∧ (head s h).st ≠ .off ∧ (head s h).failed =
    false :=
  ⟨hdS .active true, 3, by decide +kernel⟩

theorem witness_HeadCommands_4 : ∃ s : State, ∃ h : Fin 4, blockUp s (headBase h) = true ∧ (head s h).st ≠ .off :=
  ⟨hdS .active true, 3, by decide +kernel⟩

theorem witness_HeadCommands_5 : ∃ s : State, ∃ h : Fin 4, blockUp s (headBase h) = true ∧ (head s h).st = .off :=
  ⟨upS, 3, by decide +kernel⟩

theorem witness_HeadCommands_6 : ∃ s : State, ∃ h : Fin 4, ∃ k, k < 7 ∧ blockUp s (headBase h + (4 + 4 * k)) = true :=
  ⟨upS, 3, 6, by decide +kernel⟩

theorem witness_HeadCommands_7 : ∃ s : State, ∃ h : Fin 4, blockUp s (headBase h) = true ∧ (head s h).st ≠ .off ∧ (head s h).failed =
    false ∧ bitOf (dispCtrl s h) 0 = true :=
  ⟨hdS .linkFailed true, 3, by decide +kernel⟩

theorem witness_HeadCommands_8 : ∃ s : State, ∃ h : Fin 4, canTrain s h = true :=
  ⟨hdS .training true, 3, by decide +kernel⟩

theorem witness_HeadCommands_9 : ∃ s : State, ∃ h : Fin 4, timingRuns s h = true ∧ (head s h).hpd = true ∧ (head s h).st = .active :=
  ⟨hdS .active true, 3, by decide +kernel⟩

theorem witness_HeadCommands_10 : ∃ s : State, ∃ h : Fin 4, headUp s h = true ∧ (head s h).hpd = true :=
  ⟨hdS .active true, 3, by decide +kernel⟩

theorem witness_HeadCommands_11 : ∃ s : State, ∃ h : Fin 4, headUp s h = true ∧ (head s h).hpd = false :=
  ⟨upS, 3, by decide +kernel⟩

theorem witness_HeadCommands_12 : ∃ s : State, ∃ h : Fin 4, blockUp s (headBase h + 0x080) = true :=
  ⟨upS, 3, by decide +kernel⟩

theorem witness_HeadCommands_13 : ∃ s : State, ∃ h : Fin 4, headUp s h = true ∧ (head s h).auxStatus = 1 :=
  ⟨{ upS with heads := [(3, { auxStatus := 1 })] }, 3, by decide +kernel⟩

/-- Head 3 enabled and active, its queue 16 holding a descriptor in this phase and the commit of this record waiting. -/
def relD : Desc := { phase := .released }
def cmtS (d : Desc) (cs : List Commit) : State :=
  { srvD d with
    now := 1000
    heads := [(3, { st := .active, hpd := true, next := cs })]
    regs := [(0x074000, 9#32)] }
def cmt (raw : List Byte) (ok : Bool) : Commit := { q := 16, i := 0, ctx := 1, raw := raw, ok := ok }
def actS (c : Commit) : State :=
  { cmtS {} [] with heads := [(3, { st := .active, hpd := true, active := some c, shown := some ⟨c, []⟩ })] }
def wb1 : WbWork := ⟨16, 1, 0, 0, 0, 0, 0, []⟩
theorem witness_FrameCommands_1 : ∃ s : State, ∃ h : Fin 4, timingRuns s h = true :=
  ⟨cmtS {} [], 3, by decide +kernel⟩

theorem witness_FrameCommands_2 : ∃ s : State, ∃ h : Fin 4, ∃ c : Commit, feRuns s = true ∧ (head s h).failed = false ∧ (waitingCommits s
    h).find? (fun c => !c.ok) = some c :=
  ⟨cmtS {} [cmt [] false], 3, cmt [] false, by decide +kernel⟩

theorem witness_FrameCommands_3 : ∃ s : State, ∃ h : Fin 4, timingRuns s h = true :=
  ⟨cmtS relD [cmt [] true], 3, by decide +kernel⟩

theorem witness_FrameCommands_4 : ∃ s : State, ∃ h : Fin 4, ∃ w : WbWork, ∃ c : Ctx, (head s h).wb = some w ∧ s.flt.safe = false ∧ (head s
    h).failed = false ∧ s.ctx? w.ctx = some c ∧ recordPage s w.ctx w.fence = none :=
  ⟨{ upS with heads := [(3, { st := .active, wb := some wb1 })] }, 3, wb1, ctx1, by decide +kernel⟩

theorem witness_FrameCommands_5 : ∃ s : State, ∃ h : Fin 4, ∃ r : Fin 16, ∃ f, (head s h).shown = some f ∧ timingRuns s h = true ∧
    s.flt.safe = false ∧ r.val < sigCount f.commit :=
  ⟨actS (cmt [0, 1] true), 3, 0, ⟨cmt [0, 1] true, []⟩, by decide +kernel⟩

/-- Queue 16 serves a descriptor of this opcode whose record of this many bytes lies at local address 0; engine 0 is ready, and one
object covers the first 600 pages. -/
def rcdD (op n : Nat) : Desc := { dsc [(0, op), (48, n)] with engine := some 0 }
def rcdS (op n r : Nat) : State :=
  { srvD (rcdD op n) with
    fe := { (srvD (rcdD op n)).fe with objs := [(2 ^ 23, ⟨600, 0, true, 0⟩)] }
    engines := [(0, { st := .ready })]
    devMem := putBytes [] 0 (leBytes n r) }
def flushR : Nat := 4 * 2 ^ 0 + 0x10000 * 2 ^ 192 + 8192 * 2 ^ 256 + 1 * 2 ^ 288 + 32 * 2 ^ 296 + 2 * 2 ^ 320 + 1 * 2 ^ 336 + 256 * 2 ^ 352 + 0x20000 * 2 ^ 128
def decR : Nat := 64 * 2 ^ 32 + 4096 * 2 ^ 64 + 0x10000 * 2 ^ 192 + 8192 * 2 ^ 256 + 1 * 2 ^ 288 + 32 * 2 ^ 296 + 2 * 2 ^ 320 + 1 * 2 ^ 336 + 256 * 2 ^ 352 + 0x20000 * 2 ^ 128
def encR : Nat := 0x10000 * 2 ^ 64 + 0x18000 * 2 ^ 128 + 256 * 2 ^ 192 + 32 * 2 ^ 224 + 64 * 2 ^ 256 + 64 * 2 ^ 272 + 0x20000 * 2 ^ 320 + 0x1C000 * 2 ^ 384 + 1024 * 2 ^ 448
/-- An AV1 Main picture of 2 x 1 samples without references, its own slot next in display order. -/
def report : DecodeReport := ⟨.av1Main, 40, 8, .c420, false, 2, 1, false, 0, 0xFF, 0, 0⟩
theorem witness_MediaCommands_1 : ∃ s : State, ∃ q : Nat, ∃ i : Nat, ∃ y : Queue, ∃ c : Ctx, ∃ d : Desc, ∃ e : Nat, ∃ r : Nat, MediaServes
    s q i 0x400 decodeBad y c d e r ∧ mediaRanges s y.ctx (decodeRanges r) = none :=
  ⟨rcdS 0x400 128 flushR, 16, 0, que (rcdD 0x400 128), ctx1, rcdD 0x400 128, 0, flushR, by decide +kernel⟩

theorem witness_MediaCommands_2 : ∃ s : State, ∃ q : Nat, ∃ i : Nat, ∃ y : Queue, ∃ c : Ctx, ∃ d : Desc, ∃ e : Nat, ∃ r : Nat, MediaServes
    s q i 0x400 decodeBad y c d e r ∧ mediaRanges s y.ctx (decodeRanges r) = none ∧ bitOf r 2 = false :=
  ⟨rcdS 0x400 128 decR, 16, 0, que (rcdD 0x400 128), ctx1, rcdD 0x400 128, 0, decR, by decide +kernel⟩

theorem witness_MediaCommands_4 : ∃ s : State, ∃ q : Nat, ∃ i : Nat, ∃ y : Queue, ∃ c : Ctx, ∃ d : Desc, ∃ e : Nat, ∃ r : Nat, ∃ ps : List
    (Nat × Nat), MediaServes s q i 0x401 encodeBad y c d e r ∧ mediaRanges s y.ctx (encodeRanges r) = none ∧ rowWalks s c (userDesc q i)
    false (sourceRows r) = .ok ps :=
  ⟨rcdS 0x401 128 encR, 16, 0, que (rcdD 0x401 128), ctx1, rcdD 0x401 128, 0, encR, (List.range 64).map (fun y => (0x10000 + 256 * y,
    64)) ++ (List.range 32).map (fun y => (0x18000 + 256 * y, 64)), by decide +kernel⟩

theorem witness_CaravanRecords_1 : ∃ s : State, ∃ q : Nat, ∃ i : Nat, ∃ x : Queue, ∃ d : Desc, ∃ r : Nat, CaravanServes s q i 1 x d r :=
  ⟨rcdS 0x500 64 (1 * 2 ^ 0 + 2 * 2 ^ 16 + 9 * 2 ^ 32 + 32 * 2 ^ 96), 16, 0, que (rcdD 0x500 64), rcdD 0x500 64, 1 * 2 ^ 0 + 2 * 2 ^ 16
    + 9 * 2 ^ 32 + 32 * 2 ^ 96, by decide +kernel⟩

theorem witness_CaravanRecords_2 : ∃ s : State, ∃ q : Nat, ∃ i : Nat, ∃ x : Queue, ∃ d : Desc, ∃ r : Nat, ∃ n : Node, CaravanServes s q i
    2 x d r ∧ node? s (field r 32 32) = some n :=
  ⟨{ rcdS 0x500 16 (2 * 2 ^ 0 + 9 * 2 ^ 32) with net := { nodes := [(9, {})] } }, 16, 0, que (rcdD 0x500 16), rcdD 0x500 16, 2 * 2 ^ 0 +
    9 * 2 ^ 32, {}, by decide +kernel⟩

theorem witness_CaravanRecords_3 : ∃ s : State, ∃ q : Nat, ∃ i : Nat, ∃ x : Queue, ∃ d : Desc, ∃ r : Nat, ∃ n : Node, CaravanServes s q i
    3 x d r ∧ node? s (field r 32 32) = some n :=
  ⟨{ rcdS 0x500 16 (3 * 2 ^ 0 + 9 * 2 ^ 32) with net := { nodes := [(9, {})] } }, 16, 0, que (rcdD 0x500 16), rcdD 0x500 16, 3 * 2 ^ 0 +
    9 * 2 ^ 32, {}, by decide +kernel⟩

theorem witness_CaravanRecords_4 : ∃ s : State, ∃ q : Nat, ∃ i : Nat, ∃ x : Queue, ∃ d : Desc, ∃ r : Nat, CaravanServes s q i 4 x d r :=
  ⟨rcdS 0x500 32 (4 * 2 ^ 0 + 4096 * 2 ^ 128), 16, 0, que (rcdD 0x500 32), rcdD 0x500 32, 4 * 2 ^ 0 + 4096 * 2 ^ 128, by decide +kernel⟩

theorem witness_CaravanRecords_5 : ∃ s : State, ∃ q : Nat, ∃ i : Nat, ∃ x : Queue, ∃ d : Desc, ∃ r : Nat, CaravanServes s q i 5 x d r ∧
    (exportEnt s (field r 32 16)).live = true ∧ (exportEnt s (field r 32 16)).gen = field r 48 16 ∧ (exportEnt s (field r 32 16)).ctx =
    x.ctx :=
  ⟨{ rcdS 0x500 16 (5 * 2 ^ 0 + 7 * 2 ^ 32 + 3 * 2 ^ 48) with net := { exports := [(7, { live := true, gen := 3, ctx := 1 })] } }, 16,
    0, que (rcdD 0x500 16), rcdD 0x500 16, 5 * 2 ^ 0 + 7 * 2 ^ 32 + 3 * 2 ^ 48, by decide +kernel⟩

theorem witness_CaravanRecords_6 : ∃ s : State, ∃ q : Nat, ∃ i : Nat, ∃ x : Queue, ∃ d : Desc, ∃ r : Nat, CaravanServes s q i 6 x d r :=
  ⟨rcdS 0x500 64 (6 * 2 ^ 0 + 256 * 2 ^ 64), 16, 0, que (rcdD 0x500 64), rcdD 0x500 64, 6 * 2 ^ 0 + 256 * 2 ^ 64, by decide +kernel⟩

theorem witness_CaravanRecords_7 : ∃ s : State, ∃ q : Nat, ∃ i : Nat, ∃ x : Queue, ∃ d : Desc, ∃ r : Nat, ∃ y : Qp, CaravanServes s q i 7
    x d r ∧ qp? s (field r 32 32) = some y ∧ y.ctx = x.ctx :=
  ⟨{ rcdS 0x500 16 (7 * 2 ^ 0 + 256 * 2 ^ 32) with net := { qps := [(256, { ctx := 1 })] } }, 16, 0, que (rcdD 0x500 16), rcdD 0x500 16,
    7 * 2 ^ 0 + 256 * 2 ^ 32, { ctx := 1 }, by decide +kernel⟩

theorem witness_CaravanRecords_8 : ∃ s : State, ∃ q : Nat, ∃ i : Nat, ∃ x : Queue, ∃ d : Desc, ∃ r : Nat, CaravanServes s q i 2 x d r ∧
    node? s (field r 32 32) = none :=
  ⟨rcdS 0x500 16 (2 + 9 * 2 ^ 32), 16, 0, que (rcdD 0x500 16), rcdD 0x500 16, 2 + 9 * 2 ^ 32, by decide +kernel⟩

theorem witness_CaravanRecords_9 : ∃ s : State, ∃ q : Nat, ∃ i : Nat, ∃ x : Queue, ∃ d : Desc, ∃ r : Nat, CaravanServes s q i 3 x d r ∧
    node? s (field r 32 32) = none :=
  ⟨rcdS 0x500 16 (3 + 9 * 2 ^ 32), 16, 0, que (rcdD 0x500 16), rcdD 0x500 16, 3 + 9 * 2 ^ 32, by decide +kernel⟩

theorem witness_CaravanRecords_10 : ∃ s : State, ∃ q : Nat, ∃ i : Nat, ∃ x : Queue, ∃ d : Desc, ∃ r : Nat, CaravanServes s q i 5 x d r ∧
    (exportEnt s (field r 32 16)).live = false ∨ (exportEnt s (field r 32 16)).gen ≠ field r 48 16 ∨ (exportEnt s (field r 32 16)).ctx ≠
    x.ctx :=
  ⟨rcdS 0x500 16 (5 + 7 * 2 ^ 32 + 3 * 2 ^ 48), 16, 0, que (rcdD 0x500 16), rcdD 0x500 16, 5 + 7 * 2 ^ 32 + 3 * 2 ^ 48, by decide +kernel⟩

theorem witness_CaravanRecords_11 : ∃ s : State, ∃ q : Nat, ∃ i : Nat, ∃ x : Queue, ∃ d : Desc, ∃ r : Nat, CaravanServes s q i 7 x d r ∧
    ((qp? s (field r 32 32)).any (fun y => y.ctx == x.ctx)) = false :=
  ⟨rcdS 0x500 16 (7 + 256 * 2 ^ 32), 16, 0, que (rcdD 0x500 16), rcdD 0x500 16, 7 + 256 * 2 ^ 32, by decide +kernel⟩

/-- Sub-port 2 up toward node 9, this module being node 7. -/
def netS : State :=
  { upS with
    net := { nodeId := some 7, nodes := [(9, { sub := 2, hops := 3, credits := 64, st := .up, ip := List.replicate 16 0, mac := List.replicate 6 0 }), (11, { sub := 1, hops := 3 })]
             subs := [(2, { linkUp := true })] }
    regs := [(0x090300, 0x21#32)] }
def node9 : Node := { sub := 2, hops := 3, credits := 64, st := .up, ip := List.replicate 16 0, mac := List.replicate 6 0 }
/-- A packet of a type from a node to a node: no payload unless lines are given. -/
def pkt (t src dst lines code off : Nat) (bs : List Byte) : QPacket :=
  { hdr := BitVec.ofNat 256 (1 + 16 * t + 2 * 2 ^ 16 + src * 2 ^ 32 + dst * 2 ^ 64 + lines * 2 ^ 160 + code * 2 ^ 176 + off * 2 ^ 192)
    payload := bs, srcIp := 0, srcMac := 0 }
theorem witness_QanatPackets_1 : ∃ s : State, ∃ p : Fin 4, ∃ k : QPacket, ∃ n : Node, FromUpNode s p k 0 n ∧ pkLines k ≤ n.credits ∧ pkPsn
    k = n.rxPsn :=
  ⟨netS, 2, pkt 0 9 7 1 0 0 (List.replicate 64 5), node9, by decide +kernel⟩

theorem witness_QanatPackets_2 : ∃ s : State, ∃ p : Fin 4, ∃ k : QPacket, ∃ n : Node, FromUpNode s p k 1 n ∧ pkLines k ≤ n.credits ∧ pkPsn
    k = n.rxPsn :=
  ⟨netS, 2, pkt 1 9 7 1 0 0 [], node9, by decide +kernel⟩

theorem witness_QanatPackets_3 : ∃ s : State, ∃ p : Fin 4, ∃ k : QPacket, ∃ n : Node, FromUpNode s p k 2 n :=
  ⟨netS, 2, pkt 2 9 7 1 0 0 (List.replicate 64 5), node9, by decide +kernel⟩

theorem witness_QanatPackets_4 : ∃ s : State, ∃ p : Fin 4, ∃ k : QPacket, ∃ n : Node, FromUpNode s p k 3 n :=
  ⟨netS, 2, pkt 3 9 7 0 0 0 [], node9, by decide +kernel⟩

theorem witness_QanatPackets_5 : ∃ s : State, ∃ p : Fin 4, ∃ k : QPacket, ∃ n : Node, FromUpNode s p k 4 n ∧ pkCode k = 2 :=
  ⟨netS, 2, pkt 4 9 7 0 2 0 [], node9, by decide +kernel⟩

theorem witness_QanatPackets_6 : ∃ s : State, ∃ p : Fin 4, ∃ k : QPacket, ∃ n : Node, FromUpNode s p k 4 n ∧ pkCode k = 3 :=
  ⟨netS, 2, pkt 4 9 7 0 3 0 [], node9, by decide +kernel⟩

theorem witness_QanatPackets_7 : ∃ s : State, ∃ p : Fin 4, ∃ k : QPacket, ∃ n : Node, FromUpNode s p k 5 n ∧ fromEntry n k = true ∧ bitOf
    (pkFlags k) 2 = false :=
  ⟨netS, 2, pkt 5 9 7 0 0 64 [], node9, by decide +kernel⟩

theorem witness_QanatPackets_8 : ∃ s : State, ∃ p : Fin 4, ∃ k : QPacket, ∃ n : Node, FromUpNode s p k 6 n :=
  ⟨netS, 2, pkt 6 9 7 0 0 0 [], node9, by decide +kernel⟩

theorem witness_QanatPackets_9 : ∃ s : State, ∃ p : Fin 4, ∃ k : QPacket, ∃ n : Node, canReceive s p = true ∧ saOk s p = true ∧ pkOk k =
    true ∧ pkSrc k ≠ myNode s ∧ pkDst k ≠ myNode s ∧ subSwitched s p = false ∧ node? s (pkDst k) = some n ∧ 1 < pkHops k :=
  ⟨netS, 2, pkt 3 9 11 0 0 0 [], { sub := 1, hops := 3 }, by decide +kernel⟩

theorem witness_QanatPackets_11 : ∃ s : State, ∃ p : Fin 4, ∃ k : QPacket, ∃ n : Node, FromUpNode s p k 4 n ∧ pkCode k = 1 :=
  ⟨netS, 2, pkt 4 9 7 0 1 0 [], node9, by decide +kernel⟩

theorem witness_QanatPackets_12 : ∃ s : State, ∃ p : Fin 4, ∃ k : QPacket, ∃ n : Node, FromUpNode s p k 4 n ∧ pkCode k = 4 :=
  ⟨netS, 2, pkt 4 9 7 0 4 0 [], node9, by decide +kernel⟩

theorem witness_QanatPackets_13 : ∃ s : State, ∃ p : Fin 4, ∃ k : QPacket, ∃ n : Node, FromUpNode s p k 4 n ∧ pkCode k ∉ [1, 2, 3, 4] :=
  ⟨netS, 2, pkt 4 9 7 0 5 0 [], node9, by decide +kernel⟩

theorem witness_QanatPackets_14 : ∃ s : State, ∃ p : Fin 4, ∃ k : QPacket, ∃ n : Node, FromUpNode s p k 5 n ∧ fromEntry n k = true ∧ bitOf
    (pkFlags k) 2 = true :=
  ⟨netS, 2, { pkt 5 9 7 0 0 64 [] with hdr := (pkt 5 9 7 0 0 64 []).hdr ||| 1024 }, node9, by decide +kernel⟩

theorem witness_QanatPackets_15 : ∃ s : State, ∃ p : Fin 4, ∃ k : QPacket, ∃ n : Node, FromUpNode s p k 5 n ∧ fromEntry n k = false :=
  ⟨netS, 2, { pkt 5 9 7 0 0 64 [] with srcMac := 1 }, node9, by decide +kernel⟩

theorem witness_RoceCommands_1 : ∃ s : State, ∃ q : Nat, ∃ i : Nat, ∃ x : Queue, ∃ d : Desc, ∃ r : Nat, ∃ y : Qp, ∃ op : Nat, op < 3 ∧
    PostServes s q i op x d r y ∧ (op = 2 → (y.sends.filter (fun o => o.op == 2)).length < 16) :=
  ⟨{ rcdS 0x501 32 (256 * 2 ^ 0 + 0 * 2 ^ 32 + 64 * 2 ^ 64 + 4096 * 2 ^ 128) with net := { qps := [(256, { ctx := 1 })] } }, 16, 0, que
    (rcdD 0x501 32), rcdD 0x501 32, 256 * 2 ^ 0 + 0 * 2 ^ 32 + 64 * 2 ^ 64 + 4096 * 2 ^ 128, { ctx := 1 }, 0, by decide +kernel⟩

theorem witness_RoceCommands_2 : ∃ s : State, ∃ q : Nat, ∃ i : Nat, ∃ x : Queue, ∃ d : Desc, ∃ r : Nat, ∃ y : Qp, PostServes s q i 3 x d r
    y :=
  ⟨{ rcdS 0x501 32 (256 * 2 ^ 0 + 3 * 2 ^ 32 + 64 * 2 ^ 64 + 4096 * 2 ^ 128) with net := { qps := [(256, { ctx := 1 })] } }, 16, 0, que
    (rcdD 0x501 32), rcdD 0x501 32, 256 * 2 ^ 0 + 3 * 2 ^ 32 + 64 * 2 ^ 64 + 4096 * 2 ^ 128, { ctx := 1 }, by decide +kernel⟩

/-- QP 256 with a read of 64 bytes outstanding, its sub-port up. -/
def qp1 (op : Nat) : Qp := { ctx := 1, sends := [⟨16, 0, op, 64, 4096, 0, 0, [(4096, 64)]⟩] }
def qpS (op : Nat) : State :=
  { rcdS 0x501 32 0 with
    net := { subs := [(0, { linkUp := true })], qps := [(256, qp1 op)] }
    regs := [(0x090100, 0x1#32)] }
theorem witness_RoceCommands_3 : ∃ s : State, ∃ n : Nat, ∃ y : Qp, ∃ p : Post, ∃ ps : List Post, qp? s n = some y ∧ y.sends = p :: ps ∧
    y.error = false ∧ canReceive s (qpSub y) = true ∧ saOk s (qpSub y) = true :=
  ⟨qpS 2, 256, qp1 2, ⟨16, 0, 2, 64, 4096, 0, 0, [(4096, 64)]⟩, [], by decide +kernel⟩

theorem witness_RoceCommands_4 : ∃ s : State, ∃ n : Nat, ∃ y : Qp, qp? s n = some y ∧ y.error = false ∧ y.sends ≠ [] ∧ s.flt.safe = false
    :=
  ⟨qpS 2, 256, qp1 2, by decide +kernel⟩

theorem witness_RoceCommands_5 : ∃ s : State, ∃ p : Fin 4, ∃ x : RoceReq, ∃ y : Qp, canReceive s p = true ∧ saOk s p = true ∧ x.icrcOk =
    true ∧ x.ce = false ∧ qp? s x.qpn = some y ∧ y.error = false :=
  ⟨qpS 0, 0, ⟨0, 256, 0, 0, 64, [], false, true⟩, qp1 0, by decide +kernel⟩

theorem witness_RoceCommands_6 : ∃ s : State, ∃ p : Fin 4, saOk s p = true :=
  ⟨netS, 2, by decide +kernel⟩

theorem witness_PortCommands_1 : ∃ s : State, ∃ p : Fin 4, blockUp s (subBase p) = true ∧ p.val % 2 = 1 :=
  ⟨upS, 1, by decide +kernel⟩

theorem witness_PortCommands_2 : ∃ s : State, ∃ p : Fin 4, blockUp s (subBase p) = true ∧ p.val % 2 = 0 ∧ subEnabled s p = false ∧
    subEnabled s (p + 1) = false :=
  ⟨upS, 2, by decide +kernel⟩

theorem witness_PortCommands_3 : ∃ s : State, ∃ p : Fin 4, blockUp s (subBase p) = true ∧ subEnabled s p = true :=
  ⟨netS, 2, by decide +kernel⟩

theorem witness_PortCommands_4 : ∃ s : State, ∃ p : Fin 4, ∃ v : W32, blockUp s (subBase p + 0x50) = true ∧ bitOf v.toNat 4 = true ∧ bitOf
    v.toNat 2 = true :=
  ⟨upS, 2, 0x14#32, by decide +kernel⟩

theorem witness_PortCommands_5 : ∃ s : State, ∃ p : Fin 4, subEnabled s p = true ∧ subExists s p = true ∧ isReady s (36 + p / 2) = true ∧
    bitOf s.clk.locks (9 + p / 2) = true ∧ s.clk.xtalOk = true ∧ s.oas.latched = false ∧ bar0Up s = true ∧ s.flt.safe = false :=
  ⟨netS, 2, by decide +kernel⟩

theorem witness_PortCommands_7 : ∃ s : State, ∃ p : Fin 4, canReceive s p = true :=
  ⟨netS, 2, by decide +kernel⟩

theorem witness_PortCommands_8 : ∃ s : State, ∃ p : Fin 4, ∃ pri : Fin 8, canReceive s p = true ∧ bitOf (netCtrl s p) 5 = true ∧ field
    (netCtrl s p) 6 3 = pri.val :=
  ⟨netS, 2, 0, by decide +kernel⟩

theorem witness_PortCommands_9 : ∃ s : State, ∃ p : Fin 4, ∃ pri : Fin 8, (bitOf (netCtrl s p) 5 = false ∨ field (netCtrl s p) 6 3 ≠
    pri.val) :=
  ⟨upS, 0, 0, by decide +kernel⟩

theorem witness_PortCommands_10 : ∃ s : State, s.flt.safe = false :=
  ⟨netS, by decide +kernel⟩

theorem witness_PortCommands_11 : ∃ s : State, ∃ id : W32, ∃ n : Node, node? s id.toNat = some n ∧ n.st = .up ∧ s.flt.safe = false :=
  ⟨netS, 9, node9, by decide +kernel⟩

theorem witness_PortCommands_12 : ∃ s : State, ∃ p : Fin 4, blockUp s (subBase p) = true ∧ p.val % 2 = 0 ∧ (subEnabled s p = true ∨
    subEnabled s (p + 1) = true) :=
  ⟨netS, 2, by decide +kernel⟩

theorem witness_PortCommands_13 : ∃ s : State, ∃ p : Fin 4, blockUp s (subBase p) = true ∧ subEnabled s p = false :=
  ⟨upS, 2, by decide +kernel⟩

theorem witness_PortCommands_14 : ∃ s : State, ∃ p : Fin 4, ∃ v : W32, blockUp s (subBase p + 0x50) = true ∧ bitOf v.toNat 4 = false :=
  ⟨upS, 2, by decide +kernel⟩

theorem witness_PortCommands_15 : ∃ s : State, ∃ p : Fin 4, ∃ v : W32, blockUp s (subBase p + 0x50) = true ∧ bitOf v.toNat 4 = true ∧
    bitOf v.toNat 3 = true :=
  ⟨upS, 2, 0x18#32, by decide +kernel⟩

/-- A core instruction word from its fields of R98. -/
def cw (cls op dst a b c fmt mod imm pred : Nat) : W128 :=
  BitVec.ofNat 128 (cls * 2 ^ 124 + op * 2 ^ 116 + pred * 2 ^ 113 + dst * 2 ^ 104 + a * 2 ^ 96 + b * 2 ^ 88 + c * 2 ^ 80 + fmt * 2 ^ 72
    + mod * 2 ^ 64 + imm)
/-- A word without operands. -/
def cw0 (cls op mod imm : Nat) : W128 := cw cls op 0xFF 0xFF 0xFF 0xFF 0 mod imm 7
def planC (w : W128) (p : PassRec) : Plan :=
  { plan1 with
    steps := [{ wcet := 20000, graphics := wCls w != 5 }]
    code := [List.replicate 32 { words := [w], lgs := 1 }]
    passes := [p]
    dirs := [{ xfers := [{ auto := true, afterEn := true, after := 5 }] }] }
def beC : Launch := { q := 16, ctx := 1, regions := [0], phase := .running }
/-- One launch on region 0 whose every core runs this word; core 0 and its first lane group in these states. -/
def coreP (w : W128) (x : Lg) (y : Region) (z : Core) (p : PassRec) : State :=
  { upS with
    fe := { upS.fe with vers := [(0, ⟨1, 0, 1, planC w p, 0, 1, true⟩)], nextVer := 1, resident := [0], launches := [(0, beC)], nextLaunch := 1 }
    rgns := [(0, { y with st := .inService, launch := some 0 })]
    cores := [(0, { z with lgs := [(0, x)] })] }
/-- Lane group 0 with lane 0 alone under p0. -/
def lane0 : Lg := { p := [(0, 1#32)] }
def coreS (w : W128) : State := coreP w lane0 {} {} {}
def itemC (w : W128) (it : GItem) : State := coreP w { lane0 with item := some it } {} {} {}
def gfxS (y : Geo) (z : CoreGfx) (p : PassRec) : State := coreP 0 {} { geo := y } { gfx := z } p
/-- The words of the tests. -/
def nopW : W128 := cw0 0 0 0 0

theorem witness_ControlAndScalarRows_1 : ∃ s : State, ∃ c : Fin 512, ∃ g : Fin 32, ∃ w : W128, Issues s c g 0 0 w :=
  ⟨coreS (nopW), 0, 0, nopW, by decide +kernel⟩

theorem witness_ControlAndScalarRows_2 : ∃ s : State, ∃ c : Fin 512, ∃ g : Fin 32, ∃ w : W128, Issues s c g 0 1 w ∧ brTaken (getLg s c g)
    w = true ∧ (getLg s c g).pc < field (wImm w) 0 32 :=
  ⟨coreS (cw0 0 1 0 5), 0, 0, cw0 0 1 0 5, by decide +kernel⟩

theorem witness_ControlAndScalarRows_3 : ∃ s : State, ∃ c : Fin 512, ∃ g : Fin 32, ∃ w : W128, Issues s c g 0 1 w ∧ brTaken (getLg s c g)
    w = true ∧ field (wImm w) 0 32 ≤ (getLg s c g).pc ∧ mget (getLg s c g).loops 0 (getLg s c g).pc < field (wImm w) 32 32 :=
  ⟨coreS (cw0 0 1 0 (3 * 2 ^ 32)), 0, 0, cw0 0 1 0 (3 * 2 ^ 32), by decide +kernel⟩

theorem witness_ControlAndScalarRows_4 : ∃ s : State, ∃ c : Fin 512, ∃ g : Fin 32, ∃ w : W128, Issues s c g 0 1 w ∧ brTaken (getLg s c g)
    w = true ∧ field (wImm w) 0 32 ≤ (getLg s c g).pc ∧ field (wImm w) 32 32 ≤ mget (getLg s c g).loops 0 (getLg s c g).pc :=
  ⟨coreS (cw0 0 1 0 0), 0, 0, cw0 0 1 0 0, by decide +kernel⟩

theorem witness_ControlAndScalarRows_5 : ∃ s : State, ∃ c : Fin 512, ∃ g : Fin 32, ∃ w : W128, Issues s c g 0 1 w ∧ brTaken (getLg s c g)
    w = false :=
  ⟨coreS (cw 0 1 0xFF 0x40 0xFF 0xFF 0 1 5 7), 0, 0, cw 0 1 0xFF 0x40 0xFF 0xFF 0 1 5 7, by decide +kernel⟩

theorem witness_ControlAndScalarRows_6 : ∃ s : State, ∃ c : Fin 512, ∃ g : Fin 32, ∃ w : W128, Issues s c g 0 2 w ∧ unpPending s c g =
    false :=
  ⟨coreS (cw0 0 2 0 0), 0, 0, cw0 0 2 0 0, by decide +kernel⟩

theorem witness_ControlAndScalarRows_7 : ∃ s : State, ∃ c : Fin 512, ∃ g : Fin 32, ∃ w : W128, Issues s c g 0 3 w :=
  ⟨coreS (cw0 0 3 0 0), 0, 0, cw0 0 3 0 0, by decide +kernel⟩

theorem witness_ControlAndScalarRows_8 : ∃ s : State, ∃ c : Fin 512, ∃ g : Fin 32, ∃ w : W128, Issues s c g 0 4 w :=
  ⟨coreS (cw0 0 4 0 0), 0, 0, cw0 0 4 0 0, by decide +kernel⟩

theorem witness_IntegerAndCompareRows_3 : ∃ s : State, ∃ c : Fin 512, ∃ g : Fin 32, ∃ w : W128, Issues s c g 2 0x41 w :=
  ⟨coreS (cw 2 0x41 1 2 3 0x52 0 0 0 0), 0, 0, cw 2 0x41 1 2 3 0x52 0 0 0 0, by decide +kernel⟩

theorem witness_IntegerAndCompareRows_4 : ∃ s : State, ∃ c : Fin 512, ∃ g : Fin 32, ∃ w : W128, Issues s c g 2 0x42 w :=
  ⟨coreS (cw 2 0x42 1 2 3 0xFF 0 0 0 0), 0, 0, cw 2 0x42 1 2 3 0xFF 0 0 0 0, by decide +kernel⟩

theorem witness_IntegerAndCompareRows_5 : ∃ s : State, ∃ c : Fin 512, ∃ g : Fin 32, ∃ w : W128, Issues s c g 2 0x43 w :=
  ⟨coreS (cw 2 0x43 1 2 0xFF 0xFF 0 0 0 0), 0, 0, cw 2 0x43 1 2 0xFF 0xFF 0 0 0 0, by decide +kernel⟩

theorem witness_FloatAndConversionRows_2 : ∃ s : State, ∃ c : Fin 512, ∃ g : Fin 32, ∃ w : W128, Issues s c g 4 0 w :=
  ⟨coreS (cw 4 0 1 2 3 0xFF 1 0 0 0), 0, 0, cw 4 0 1 2 3 0xFF 1 0 0 0, by decide +kernel⟩

theorem witness_FloatAndConversionRows_3 : ∃ s : State, ∃ c : Fin 512, ∃ g : Fin 32, ∃ w : W128, Issues s c g 4 1 w :=
  ⟨coreS (cw 4 1 2 4 0xFF 0xFF 0x0A 0 0 0), 0, 0, cw 4 1 2 4 0xFF 0xFF 0x0A 0 0 0, by decide +kernel⟩

theorem witness_TileStoreRows_1 : ∃ s : State, ∃ c : Fin 512, ∃ g : Fin 32, ∃ w : W128, Issues s c g 5 0 w ∧ ownStoreWaits s c g w = false
    ∧ tsCheck s c g w false = none :=
  ⟨coreS (cw 5 0 1 0x40 0xFF 0xFF 0 8 0 0), 0, 0, cw 5 0 1 0x40 0xFF 0xFF 0 8 0 0, by decide +kernel⟩

theorem witness_TileStoreRows_2 : ∃ s : State, ∃ c : Fin 512, ∃ g : Fin 32, ∃ w : W128, Issues s c g 5 1 w ∧ storeBlocked s c g w = false
    ∧ ownStoreWaits s c g w = false ∧ tsCheck s c g w true = none :=
  ⟨coreS (cw 5 1 0xFF 0x40 0xFF 1 0 8 0 0), 0, 0, cw 5 1 0xFF 0x40 0xFF 1 0 8 0 0, by decide +kernel⟩

theorem witness_TileStoreRows_3 : ∃ s : State, ∃ c : Fin 512, ∃ g : Fin 32, ∃ w : W128, ∃ e : Nat × Nat, Issues s c g 5 0 w ∧
    ownStoreWaits s c g w = false ∧ tsCheck s c g w false = some e :=
  ⟨coreP (cw 5 0 1 0x40 0xFF 0xFF 0 8 0 0) { lane0 with s := [(0, 1)] } {} {} {}, 0, 0, cw 5 0 1 0x40 0xFF 0xFF 0 8 0 0, (tsCheck (coreP
    (cw 5 0 1 0x40 0xFF 0xFF 0 8 0 0) { lane0 with s := [(0, 1)] } {} {} {}) 0 0 (cw 5 0 1 0x40 0xFF 0xFF 0 8 0 0) false).getD (0, 0),
    by decide +kernel⟩

theorem witness_TileStoreRows_4 : ∃ s : State, ∃ c : Fin 512, ∃ g : Fin 32, ∃ w : W128, ∃ e : Nat × Nat, Issues s c g 5 1 w ∧ storeBlocked
    s c g w = false ∧ ownStoreWaits s c g w = false ∧ tsCheck s c g w true = some e :=
  ⟨coreP (cw 5 1 0xFF 0x40 0xFF 1 0 8 0 0) { lane0 with s := [(0, 1)] } {} {} {}, 0, 0, cw 5 1 0xFF 0x40 0xFF 1 0 8 0 0, (tsCheck (coreP
    (cw 5 1 0xFF 0x40 0xFF 1 0 8 0 0) { lane0 with s := [(0, 1)] } {} {} {}) 0 0 (cw 5 1 0xFF 0x40 0xFF 1 0 8 0 0) true).getD (0, 0),
    by decide +kernel⟩

theorem witness_MatrixRows_2 : ∃ s : State, ∃ c : Fin 512, ∃ g : Fin 32, ∃ w : W128, Issues s c g 7 2 w ∧ woFull (s.core c) = false :=
  ⟨coreS (cw 7 2 0xFF 0x58 0x41 0x42 0 0 0 7), 0, 0, cw 7 2 0xFF 0x58 0x41 0x42 0 0 0 7, by decide +kernel⟩

def matO (w : W128) : MatOp := { seq := 0, lg := 0, w := w, a := 0, b := 0, c := 0, d := 0 }
theorem witness_MatrixRows_4 : ∃ s : State, ∃ c : Fin 512, ∃ l : Nat, ∃ x : Launch, ∃ o : MatOp, ∃ rest : List MatOp, s.flt.safe = false ∧
    coreLaunch s c = some (l, x) ∧ (x.phase = .running ∨ x.phase = .yielding) ∧ (s.core c).matQ = o :: rest ∧ matReady (s.core c) = true
    :=
  ⟨coreP 0 lane0 {} { matQ := [matO (cw 6 0 0x58 0x41 0x42 0xFF 1 1 1 7)] } {}, 0, 0, beC, matO (cw 6 0 0x58 0x41 0x42 0xFF 1 1 1 7),
    [], by decide +kernel⟩

theorem witness_MatrixRows_5 : ∃ s : State, ∃ c : Fin 512, ∃ l : Nat, ∃ x : Launch, ∃ o : MatOp, ∃ rest : List MatOp, s.flt.safe = false ∧
    coreLaunch s c = some (l, x) ∧ (x.phase = .running ∨ x.phase = .yielding) ∧ (s.core c).woQ = o :: rest ∧ woReady (s.core c) = true :=
  ⟨coreP 0 lane0 {} { woQ := [matO (cw 7 2 0xFF 0x58 0x41 0x42 0 0 0 7)] } {}, 0, 0, beC, matO (cw 7 2 0xFF 0x58 0x41 0x42 0 0 0 7), [],
    by decide +kernel⟩

theorem witness_SemaphoreRows_1 : ∃ s : State, ∃ c : Fin 512, ∃ g : Fin 32, ∃ w : W128, Issues s c g 8 0 w ∧ unpPending s c g = false ∧
    mget (s.rgn (c / 32)).sems 0 (semId w) + semN w ≤ 65535 :=
  ⟨coreS (cw0 8 0 0 0x10000), 0, 0, cw0 8 0 0 0x10000, by decide +kernel⟩

theorem witness_SemaphoreRows_2 : ∃ s : State, ∃ c : Fin 512, ∃ g : Fin 32, ∃ w : W128, Issues s c g 8 0 w ∧ unpPending s c g = false ∧
    65535 < mget (s.rgn (c / 32)).sems 0 (semId w) + semN w :=
  ⟨coreP (cw0 8 0 0 0x10000) lane0 { sems := [(0, 65535)] } {} {}, 0, 0, cw0 8 0 0 0x10000, by decide +kernel⟩

theorem witness_SemaphoreRows_3 : ∃ s : State, ∃ c : Fin 512, ∃ g : Fin 32, ∃ w : W128, Issues s c g 8 1 w ∧ semN w ≤ mget (s.rgn (c /
    32)).sems 0 (semId w) ∧ (s.rgn (c / 32)).waiters.any (fun y => y.sem == semId w) = false :=
  ⟨coreP (cw0 8 1 0 0x10000) lane0 { sems := [(0, 5)] } {} {}, 0, 0, cw0 8 1 0 0x10000, by decide +kernel⟩

theorem witness_SemaphoreRows_4 : ∃ s : State, ∃ c : Fin 512, ∃ g : Fin 32, ∃ w : W128, Issues s c g 8 1 w ∧ (mget (s.rgn (c / 32)).sems 0
    (semId w) < semN w ∨ (s.rgn (c / 32)).waiters.any (fun y => y.sem == semId w) = true) :=
  ⟨coreS (cw0 8 1 0 0x10000), 0, 0, cw0 8 1 0 0x10000, by decide +kernel⟩

theorem witness_SemaphoreRows_5 : ∃ s : State, ∃ c : Fin 512, ∃ g : Fin 32, ∃ w : W128, Issues s c g 8 2 w :=
  ⟨coreS (cw 8 2 0x50 0xFF 0xFF 0xFF 0 0 0x10000 7), 0, 0, cw 8 2 0x50 0xFF 0xFF 0xFF 0 0 0x10000 7, by decide +kernel⟩

theorem witness_TransferCommands_1 : ∃ s : State, ∃ c : Fin 512, ∃ g : Fin 32, ∃ w : W128, ∃ l, ∃ x : Launch, Issues s c g 0xA 0 w ∧
    coreLaunch s c = some (l, x) ∧ (s.rgn (c / 32)).started.contains (field (wImm w) 0 32) = false :=
  ⟨coreS (cw0 0xA 0 0 0), 0, 0, cw0 0xA 0 0 0, 0, beC, by decide +kernel⟩

theorem witness_TransferCommands_2 : ∃ s : State, ∃ c : Fin 512, ∃ g : Fin 32, ∃ w : W128, ∃ l, ∃ x : Launch, Issues s c g 0xA 0 w ∧
    coreLaunch s c = some (l, x) ∧ (s.rgn (c / 32)).started.contains (field (wImm w) 0 32) = true :=
  ⟨coreP (cw0 0xA 0 0 0) lane0 { started := [0] } {} {}, 0, 0, cw0 0xA 0 0 0, 0, beC, by decide +kernel⟩

theorem witness_TransferCommands_3 : ∃ s : State, ∃ c : Fin 512, ∃ g : Fin 32, ∃ w : W128, Issues s c g 0xA 1 w ∧ (s.rgn (c /
    32)).done.contains (field (wImm w) 0 32) = true :=
  ⟨coreP (cw0 0xA 1 0 0) lane0 { done := [0] } {} {}, 0, 0, cw0 0xA 1 0 0, by decide +kernel⟩

theorem witness_TransferCommands_4 : ∃ s : State, ∃ c : Fin 512, ∃ g : Fin 32, ∃ w : W128, Issues s c g 0xA 1 w ∧ (s.rgn (c /
    32)).done.contains (field (wImm w) 0 32) = false :=
  ⟨coreS (cw0 0xA 1 0 0), 0, 0, cw0 0xA 1 0 0, by decide +kernel⟩

theorem witness_TransferCommands_5 : ∃ s : State, ∃ r : Fin 16, ∃ n, ∃ l, ∃ x : Launch, ∃ e : XferRec, launchAt s r = some (l, x) ∧
    (stepTable s x).xfers[n]? = some e ∧ s.flt.safe = false ∧ e.auto = true ∧ e.rel = (s.rgn r).rel ∧ (s.rgn r).started.contains n = false
    ∧ (s.rgn r).offset ≤ e.startAt ∧ (s.rgn r).held = none ∧ (x.phase = .running ∨ x.phase = .yielding) :=
  ⟨coreS 0, 0, 0, 0, beC, { auto := true, afterEn := true, after := 5 }, by decide +kernel⟩

theorem witness_TransferCommands_6 : ∃ s : State, ∃ r : Fin 16, ∃ l, ∃ x : Launch, ∃ st : Started, ∃ rest : List Started, ∃ e : XferRec,
    launchAt s r = some (l, x) ∧ (s.rgn r).fifo = st :: rest ∧ (stepTable s x).xfers[st.entry]? = some e ∧ s.flt.safe = false :=
  ⟨coreP 0 lane0 { fifo := [{ entry := 0 }] } {} {}, 0, 0, beC, { entry := 0 }, [], { auto := true, afterEn := true, after := 5 }, by decide +kernel⟩

theorem witness_UnplannedAccesses_2 : ∃ s : State, ∃ c : Fin 512, ∃ g : Fin 32, ∃ w : W128, ∃ l : Nat, ∃ x : Launch, ∃ hs : List Nat,
    UnpIssues s c g 0 none false false true w l x hs :=
  ⟨coreS (cw 9 0 1 2 0xFF 0xFF 0 2 0 0), 0, 0, cw 9 0 1 2 0xFF 0xFF 0 2 0 0, 0, beC, [0], by decide +kernel⟩

theorem witness_UnplannedAccesses_3 : ∃ s : State, ∃ c : Fin 512, ∃ g : Fin 32, ∃ w : W128, ∃ l : Nat, ∃ x : Launch, ∃ hs : List Nat,
    UnpIssues s c g 1 none false true true w l x hs :=
  ⟨coreS (cw 9 1 0xFF 2 4 0xFF 0 2 0 0), 0, 0, cw 9 1 0xFF 2 4 0xFF 0 2 0 0, 0, beC, [0], by decide +kernel⟩

theorem witness_UnplannedAccesses_4 : ∃ s : State, ∃ c : Fin 512, ∃ g : Fin 32, ∃ w : W128, ∃ l : Nat, ∃ x : Launch, ∃ hs : List Nat,
    UnpIssues s c g 3 none false false false w l x hs :=
  ⟨coreS (cw 9 3 0xFF 2 0xFF 0xFF 0 0 0 0), 0, 0, cw 9 3 0xFF 2 0xFF 0xFF 0 0 0 0, 0, beC, [0], by decide +kernel⟩

theorem witness_CacheEvents_1 : ∃ s : State, ∃ k : Fin 128, ∃ line : Nat, ∃ home : Nat, (s.cdc k).miss = some (line, home) ∧ ((s.cdc
    k).queue.filter (fun a => a.va / 64 == line && a.home == home)).all (·.old) = false ∧ (s.cdc k).queue.all (fun a => a.kind != 2) =
    true ∧ findWay (s.cdc k) line = none ∧ evictFull (s.cdc k) (victim (s.cdc k) line).1 line = false ∧ piecesRun s [(home, 64)] = true ∧
    rgnRuns s (k / 8) = true :=
  ⟨{ upS with cdcs := [(0, { miss := some (0, 0), queue := [{ src := 0, lg := 0, kind := 0, va := 0, home := 0, size := 4, lanes := [0], dst := 1 }] })] },
    0, 0, 0, by decide +kernel⟩

theorem witness_CacheEvents_2 : ∃ s : State, ∃ k : Fin 128, ∃ e : CLine, ∃ rest : List CLine, (s.cdc k).evict = e :: rest ∧ piecesRun s
    [(e.home, 64)] = true ∧ rgnRuns s (k / 8) = true :=
  ⟨{ upS with cdcs := [(0, { evict := [{ line := 0 }] })] }, 0, { line := 0 }, [], by decide +kernel⟩

theorem witness_GraphicsRows_1 : ∃ s : State, ∃ c : Fin 512, ∃ g : Fin 32, ∃ w : W128, ∃ l : Nat, ∃ x : Launch, ∃ pl : Plan, ∃ k : Ctx,
    Issues s c g 0xB 0 w ∧ gfxEnv s (c / 32) = some (l, x, pl, k) :=
  ⟨coreS (cw0 0xB 0 0 0), 0, 0, cw0 0xB 0 0 0, 0, beC, planC (cw0 0xB 0 0 0) {}, ctx1, by decide +kernel⟩

theorem witness_GraphicsRows_2 : ∃ s : State, ∃ c : Fin 512, ∃ g : Fin 32, ∃ w : W128, ∃ it : GItem, ItemIssues s c g 1 0 w it ∧ (itemPass
    s c it).vout ≤ 256 :=
  ⟨itemC (cw 0xB 1 0xFF 4 8 0xFF 0 0 0 0) { kind := 0, pass := 0 }, 0, 0, cw 0xB 1 0xFF 4 8 0xFF 0 0 0 0, { kind := 0, pass := 0 }, by decide +kernel⟩

theorem witness_GraphicsRows_3 : ∃ s : State, ∃ c : Fin 512, ∃ g : Fin 32, ∃ w : W128, ∃ it : GItem, ItemIssues s c g 2 1 w it :=
  ⟨itemC (cw 0xB 2 1 0xFF 0xFF 0xFF 0 0 0 0) { kind := 1, pass := 0 }, 0, 0, cw 0xB 2 1 0xFF 0xFF 0xFF 0 0 0 0,
    { kind := 1, pass := 0 }, by decide +kernel⟩

theorem witness_GraphicsRows_4 : ∃ s : State, ∃ c : Fin 512, ∃ g : Fin 32, ∃ w : W128, ∃ it : GItem, ItemIssues s c g 3 1 w it :=
  ⟨itemC (cw 0xB 3 0xFF 4 0xFF 0xFF 0 0 0 0) { kind := 1, pass := 0 }, 0, 0, cw 0xB 3 0xFF 4 0xFF 0xFF 0 0 0 0,
    { kind := 1, pass := 0 }, by decide +kernel⟩

theorem witness_GraphicsRows_5 : ∃ s : State, ∃ c : Fin 512, ∃ g : Fin 32, ∃ w : W128, ∃ it : GItem, ItemIssues s c g 4 1 w it :=
  ⟨itemC (cw 0xB 4 0xFF 0xFF 0xFF 0xFF 0 0 0 0) { kind := 1, pass := 0 }, 0, 0, cw 0xB 4 0xFF 0xFF 0xFF 0xFF 0 0 0 0,
    { kind := 1, pass := 0 }, by decide +kernel⟩

def frag : GItem := { kind := 1, pass := 0 }
def smp1 : Sampler := ⟨0, 1, 0, 0, 0, true, 1, 64, 64, 0, 0, 0, 0⟩
def smpP : PassRec := { samplers := [smp1] }
theorem witness_GraphicsRows_7 : ∃ s : State, ∃ c : Fin 512, ∃ g : Fin 32, ∃ w : W128, ∃ y, y = getLg s c g ∧ wDst w ≤ 60 :=
  ⟨coreS nopW, 0, 0, cw 0xB 5 4 0xFF 0xFF 0xFF 0 0 0 0, getLg (coreS nopW) 0 0, by decide +kernel⟩

theorem witness_GraphicsRows_8 : ∃ s : State, ∃ c : Fin 512, ∃ g : Fin 32, ∃ w : W128, ∃ it : GItem, ItemIssues s c g 7 1 w it ∧ it.wrote
    = [] ∧ (gfxOn s c).active = [] ∧ (s.core c).lgs = [(g.val, getLg s c g)] :=
  ⟨itemC (cw0 0xB 7 0 0) { kind := 1, pass := 0 }, 0, 0, cw0 0xB 7 0 0, { kind := 1, pass := 0 }, by decide +kernel⟩

def wroteF : GItem := { kind := 1, pass := 0, wrote := [(0, 1#32)] }
theorem witness_GraphicsRows_9 : ∃ s : State, ∃ c : Fin 512, ∃ g : Fin 32, ∃ w : W128, ∃ it : GItem, ItemIssues s c g 7 1 w it ∧ it.wrote
    ≠ [] ∧ mfind (s.core c).lgs g = some (getLg s c g) :=
  ⟨itemC (cw0 0xB 7 0 0) wroteF, 0, 0, cw0 0xB 7 0 0, wroteF, by decide +kernel⟩

theorem witness_RenderingEvents_1 : ∃ s : State, ∃ c : Fin 512, ∃ l : Nat, ∃ x : Launch, ∃ pl : Plan, ∃ k : Ctx, ∃ i : Nat, ∃ rest : List
    Nat, gfxEnv s (c / 32) = some (l, x, pl, k) ∧ (s.rgn (c / 32)).geo.passes = i :: rest :=
  ⟨gfxS { passes := [0] } {} {}, 0, 0, beC, planC 0 {}, ctx1, 0, [], by decide +kernel⟩

theorem witness_RenderingEvents_2 : ∃ s : State, ∃ c : Fin 512, ∃ l : Nat, ∃ x : Launch, ∃ pl : Plan, ∃ k : Ctx, ∃ i : Nat, gfxEnv s (c /
    32) = some (l, x, pl, k) ∧ (s.rgn (c / 32)).geo.passes = [] ∧ pausing x = false ∧ curPass (gfxOn s c) = some (i, false) ∧ (gfxOn s
    c).started = false ∧ passArgsLocal x (passAt pl i) = true ∧ geoReady s x i (passAt pl i) = true :=
  ⟨gfxS {} { passes := [0] } { binned := true }, 0, 0, beC, planC 0 { binned := true }, ctx1, 0, by decide +kernel⟩

/-- A draw list of one draw of one primitive, no vertex of it in range, its batch shaded. -/
def drawS : State :=
  { gfxS { passes := [0], active := true } {} { submitMax := 1 } with
    devMem := putBytes (putBytes [] 0 (leBytes 4 1)) 32 (leBytes 32 (256 + 2 ^ 64 + 512 * 2 ^ 128)) }
theorem witness_RenderingEvents_3 : ∃ s : State, ∃ r : Fin 16, ∃ l : Nat, ∃ x : Launch, ∃ y, ∃ pl : Plan, ∃ k : Ctx, ∃ i : Nat, ∃ rest :
    List Nat, ∃ b : Batch, ∃ t : State, gfxEnv s r = some (l, x, pl, k) ∧ (s.rgn r).geo.passes = i :: rest ∧ (s.rgn r).geo.active = true ∧
    (s.rgn r).geo.items = [] ∧ (s.rgn r).geo.outstanding = 0 ∧ (passAt pl i).binned = false ∨ lowerBatch s x i r (s.rgn r).geo.batch =
    false ∧ (batchesOf (drawsOf s k x (passAt pl i)))[(s.rgn r).geo.batch]? = some b ∧ binBatch l pl k i r ((drawsOf s k x (passAt pl
    i)).getD b.1 ⟨0, 0, false, false, 0, 0⟩) b b.2.2.1 0 s = (t, false) ∧ t.launch? l = some y :=
  ⟨drawS, 0, 0, beC, beC, planC 0 { submitMax := 1 }, ctx1, 0, [], (0, 0, 1, 0), (binBatch 0 (planC 0 { submitMax := 1 }) ctx1 0 0 ⟨256,
    1, false, false, 512, 0⟩ (0, 0, 1, 0) 1 0 drawS).1, by decide +kernel⟩

theorem witness_RenderingEvents_4 : ∃ s : State, ∃ r : Fin 16, ∃ l : Nat, ∃ x : Launch, ∃ pl : Plan, ∃ k : Ctx, ∃ i : Nat, ∃ rest : List
    Nat, gfxEnv s r = some (l, x, pl, k) ∧ (s.rgn r).geo.passes = i :: rest ∧ (s.rgn r).geo.full = true ∧ (s.rgn r).geo.wait = true ∧ (∀ n
    ∈ x.regions, (s.rgn n).geo.passes.head? = some i → (s.rgn n).geo.round = false ∧ (s.rgn n).geo.begun = false) :=
  ⟨gfxS { passes := [0], full := true, wait := true } {} {}, 0, 0, beC, planC 0 {}, ctx1, 0, [], by decide +kernel⟩

theorem witness_RenderingEvents_5 : ∃ s : State, ∃ c : Fin 512, ∃ l : Nat, ∃ x : Launch, ∃ pl : Plan, ∃ k : Ctx, ∃ i : Nat, ∃ b : Bool, ∃
    t : Nat, ∃ rest : List Nat, gfxEnv s (c / 32) = some (l, x, pl, k) ∧ curPass (gfxOn s c) = some (i, b) ∧ (gfxOn s c).tiles = t :: rest
    ∧ (gfxOn s c).started = true ∧ (gfxOn s c).next = none :=
  ⟨gfxS {} { passes := [0], tiles := [0], started := true } {}, 0, 0, beC, planC 0 {}, ctx1, 0, false, 0, [], by decide +kernel⟩

def doneF : GItem := { kind := 1, pass := 0, done := true }
theorem witness_RenderingEvents_6 : ∃ s : State, ∃ c : Fin 512, ∃ l : Nat, ∃ x : Launch, ∃ pl : Plan, ∃ k : Ctx, ∃ i : Nat, ∃ b : Bool, ∃
    it : GItem, gfxEnv s (c / 32) = some (l, x, pl, k) ∧ curPass (gfxOn s c) = some (i, b) ∧ nextBlend s c (gfxOn s c).active = some (it,
    none) ∧ it.blended = false :=
  ⟨gfxS {} { passes := [0], active := [doneF] } {}, 0, 0, beC, planC 0 {}, ctx1, 0, false, doneF, by decide +kernel⟩

theorem witness_RenderingEvents_7 : ∃ s : State, ∃ c : Fin 512, ∃ l : Nat, ∃ x : Launch, ∃ pl : Plan, ∃ k : Ctx, ∃ i : Nat, ∃ b : Bool, ∃
    t : Nat, gfxEnv s (c / 32) = some (l, x, pl, k) ∧ curPass (gfxOn s c) = some (i, b) ∧ (gfxOn s c).writing = some t ∧ rangeBad s k
    ((passAt pl i).attach.flatMap (storeRanges x (passAt pl i) b t)) = none :=
  ⟨gfxS {} { passes := [0], writing := some 0 } {}, 0, 0, beC, planC 0 {}, ctx1, 0, false, 0, by decide +kernel⟩

theorem witness_IdleStepIsATick_1 : ∃ s : State, s.pending = [] :=
  ⟨upS, by decide +kernel⟩

theorem witness_PhysicalMemory_1 : ∃ pa : Nat, ∃ bs : List Byte, (pa < hostBase → pa + bs.length ≤ hostBase) :=
  ⟨0, [1#8], by decide +kernel⟩

theorem witness_DlDownIsAHotReset_1 : ∃ s : State, linkUp s = true :=
  ⟨upS, by decide +kernel⟩

theorem witness_FetchBudgetOfAHead_1 : ∃ s : State, ∃ h : Nat, 0 < headHtotal s h ∧ 0 < headVtotal s h :=
  ⟨{ upS with regs := [(0x071004, 0x08000780#32), (0x07100C, 0x04650438#32)] }, 0, by decide +kernel⟩

theorem witness_FuseVerificationFailure_1 : ∃ s : State, ∃ c : Change, ∃ v : Nat, s.sec.change = some c ∧ 1 ≤ c.setting ∧ c.setting ≤ 6 ∧
    otpReachable c v = true ∧ v ≠ c.goal ∧ v < 2 ^ 32 :=
  ⟨{ upS with sec := { change := some ⟨3, 1, 7⟩ } }, ⟨3, 1, 7⟩, 3, by decide +kernel⟩

theorem witness_AuxComparator_1 : ∃ s : State, ∃ mv : Nat, s.oas.powered = true ∧ mv < s.oas.thresh ∧ 2700 ≤ mv :=
  ⟨upS, 2800, by decide +kernel⟩

theorem witness_AuxComparator_2 : ∃ s : State, ∃ mv : Nat, s.oas.powered = true ∧ mv < s.oas.thresh ∧ mv < 2700 :=
  ⟨upS, 2000, by decide +kernel⟩

theorem witness_AuxComparator_3 : ∃ s : State, ∃ mv : Nat, s.oas.thresh ≤ mv ∧ 2700 ≤ mv :=
  ⟨upS, 3000, by decide +kernel⟩

theorem witness_AuxComparator_4 : ∃ s : State, ∃ mv : Nat, s.oas.powered = true ∧ s.oas.thresh ≤ mv ∧ mv < 2700 :=
  ⟨{ upS with oas := { upS.oas with thresh := 0 } }, 2000, by decide +kernel⟩

theorem witness_ClassCEventsFold_1 : ∃ s : State, ∃ source : Nat, ∃ unit : Nat, ∃ code : Nat, ∃ k : Nat, ∃ r : FltRec, s.flt.safe = false
    ∧ mfind s.flt.hist k = some r ∧ k = r.seq % 32 ∧ r.source = source ∧ r.unit = unit ∧ r.code = code ∧ unacked s.flt r = true ∧ (∀ p ∈
    s.flt.hist, p.2.source = source → p.2.unit = unit → p.2.code = code → unacked s.flt p.2 = true → p.2 = r ∨ 0 < diff32 r.seq p.2.seq)
    :=
  ⟨{ upS with flt := { hist := [(1, ⟨33, 1, false, 1, 0, 2, 1, 0, 0, 0, true⟩)], seq := 33, ack := 32 } }, 1, 0, 2, 1, ⟨33, 1, false, 1,
    0, 2, 1, 0, 0, 0, true⟩, by decide +kernel⟩

theorem witness_ClassCEventsFold_2 : ∃ s : State, ∃ source : Nat, ∃ unit : Nat, ∃ code : Nat, s.flt.safe = false ∧ (∀ p ∈ s.flt.hist, ¬
    (p.2.source = source ∧ p.2.unit = unit ∧ p.2.code = code ∧ unacked s.flt p.2 = true)) :=
  ⟨upS, 1, 0, 2, by decide +kernel⟩

theorem witness_IdentityCommands_1 : spdmRequests ≠ [] ∧ upS.link.dlUp = true ∧ upS.link.doe.request = none := by
  refine ⟨by simp [spdmRequests], ?_⟩; decide +kernel

theorem witness_IdentityCommands_1_long : upS.link.dlUp = true ∧ upS.link.doe.request = none ∧ ∃ m : List Byte, 4096 < m.length := by
  refine ⟨by decide +kernel, by decide +kernel, List.replicate 4097 0, by rw [List.length_replicate]; omega⟩

theorem witness_ResetAndPower_7 : linkUp upS = true := by decide +kernel

theorem witness_ResetAndPower_6_power : upS.pwr.dev ≠ .oasis ∧ upS.pwr.mainPower = true := by decide +kernel

theorem witness_ClockTripsAndReturns_5_lost :
    bar0Up { upS with clk := { upS.clk with xtalOk := false } } = true
    ∧ { upS with clk := { upS.clk with xtalOk := false } }.clk.xtalOk = false := by decide +kernel

theorem witness_IdentityCommands_7 : { upS with sec := { keys := true } }.sec.keys = true ∧ upS.sec.keys = false
    ∧ (ide { upS with link := { upS.link with ide := [(3, { st := .keyed })] } } 3).st = .keyed := by decide +kernel

theorem witness_MemoryEvents_5_room : mget { upS with mem := { upS.mem with mirrorMissing := [1] } }.mem.mirrorNeed 0 1 ≤ 0 := by
  decide +kernel

theorem witness_HeadCommands_8_fails : (head (hdS .training true) 3).fails < 2
    ∧ 2 ≤ (head { hdS .training true with heads := [(3, { st := .training, hpd := true, fails := 2 })] } 3).fails := by decide +kernel

theorem witness_HeadCommands_13_defer : (head { upS with heads := [(3, { auxStatus := 1, auxTries := 6 })] } 3).auxTries < 7 := by
  decide +kernel

theorem witness_FrameCommands_2_refused : commitCheck (cmtS {} [cmt [8] false]) 3 (cmt [8] false) = some 0x0C02
    ∧ (waitingCommits (cmtS {} [cmt [8] false]) 3).find? (fun c => !c.ok) = some (cmt [8] false)
    ∧ commitCheck (cmtS {} [cmt [] false]) 3 (cmt [] false) = none := by decide +kernel

theorem witness_RoceCommands_3_data : (localBytes (qpS 2) 1 (userDesc 16 0) 4096 64 true).pieces = [(4096, 64)]
    ∧ (List.replicate 64 (0 : Byte)).length = 64 := by decide +kernel

theorem witness_PortCommands_11_unacked : ({ node9 with unacked := [⟨0, 1, 1, .copy 16 0, 0, 0, 0, 0, 0, []⟩] } : Node).unacked ≠ []
    ∧ (0 : Nat) < netRetries netS ∧ netRetries netS ≤ 15 := by decide +kernel

theorem witness_ControlAndScalarRows_9 : ∀ e ∈ scalarRows, Issues (coreS (cw 1 e.2.1 0x41 0x42 0x43 0xFF 0 0 0 7)) 0 0 1 e.2.1 (cw 1 e.2.1 0x41 0x42 0x43 0xFF 0 0 0 7) := by decide +kernel

theorem witness_IntegerAndCompareRows_1 : ∀ e ∈ intRows, Issues (coreS (cw 2 e.2.1 1 2 3 4 0 0 0 0)) 0 0 2 e.2.1 (cw 2 e.2.1 1 2 3 4 0 0 0 0) := by decide +kernel

theorem witness_IntegerAndCompareRows_2 : ∀ e ∈ byteRows, Issues (coreS (cw 2 e.2.1 1 2 3 4 0 0 0 0)) 0 0 2 e.2.1 (cw 2 e.2.1 1 2 3 4 0 0 0 0) := by decide +kernel

theorem witness_IntegerAndCompareRows_6 : ∀ e ∈ predRows, Issues (coreS (cw 2 e.2.1 0x51 2 3 4 0 0 0 0)) 0 0 2 e.2.1 (cw 2 e.2.1 0x51 2 3 4 0 0 0 0) := by decide +kernel

theorem witness_FloatAndConversionRows_1 : ∀ e ∈ floatRows, Issues (coreS (cw e.2.1 e.2.2.1 1 2 3 4 0 0 0 0)) 0 0 e.2.1 e.2.2.1 (cw e.2.1 e.2.2.1 1 2 3 4 0 0 0 0) := by decide +kernel

theorem witness_MatrixRows_1_6_0 : matFull (State.core (coreS (cw 6 0 0x58 0x41 0x42 0xFF 1 1 1 7)) 0) = false ∧ Issues (coreS (cw 6 0 0x58 0x41 0x42 0xFF 1 1 1 7)) 0 0 6 0 (cw 6 0 0x58 0x41 0x42 0xFF 1 1 1 7) := by decide +kernel

theorem witness_MatrixRows_1_7_0 : matFull (State.core (coreS (cw 7 0 0x58 0xFF 0xFF 0xFF 0 0 0 7)) 0) = false ∧ Issues (coreS (cw 7 0 0x58 0xFF 0xFF 0xFF 0 0 0 7)) 0 0 7 0 (cw 7 0 0x58 0xFF 0xFF 0xFF 0 0 0 7) := by decide +kernel

theorem witness_MatrixRows_1_7_1 : matFull (State.core (coreS (cw 7 1 0x58 0x41 0xFF 0xFF 0 0 0 7)) 0) = false ∧ Issues (coreS (cw 7 1 0x58 0x41 0xFF 0xFF 0 0 0 7)) 0 0 7 1 (cw 7 1 0x58 0x41 0xFF 0xFF 0 0 0 7) := by decide +kernel

theorem witness_MatrixRows_3_6_0 : matFull (State.core (coreP (cw 6 0 0x58 0x41 0x42 0xFF 1 1 1 7) lane0 {} { matQ := List.replicate 5 (matO (cw 6 0 0x58 0x41 0x42 0xFF 1 1 1 7)) } {}) 0) = true
    ∧ Issues (coreP (cw 6 0 0x58 0x41 0x42 0xFF 1 1 1 7) lane0 {} { matQ := List.replicate 5 (matO (cw 6 0 0x58 0x41 0x42 0xFF 1 1 1 7)) } {}) 0 0 6 0 (cw 6 0 0x58 0x41 0x42 0xFF 1 1 1 7) := by decide +kernel

theorem witness_MatrixRows_3_7_0 : matFull (State.core (coreP (cw 7 0 0x58 0xFF 0xFF 0xFF 0 0 0 7) lane0 {} { matQ := List.replicate 5 (matO (cw 7 0 0x58 0xFF 0xFF 0xFF 0 0 0 7)) } {}) 0) = true
    ∧ Issues (coreP (cw 7 0 0x58 0xFF 0xFF 0xFF 0 0 0 7) lane0 {} { matQ := List.replicate 5 (matO (cw 7 0 0x58 0xFF 0xFF 0xFF 0 0 0 7)) } {}) 0 0 7 0 (cw 7 0 0x58 0xFF 0xFF 0xFF 0 0 0 7) := by decide +kernel

theorem witness_MatrixRows_3_7_1 : matFull (State.core (coreP (cw 7 1 0x58 0x41 0xFF 0xFF 0 0 0 7) lane0 {} { matQ := List.replicate 5 (matO (cw 7 1 0x58 0x41 0xFF 0xFF 0 0 0 7)) } {}) 0) = true
    ∧ Issues (coreP (cw 7 1 0x58 0x41 0xFF 0xFF 0 0 0 7) lane0 {} { matQ := List.replicate 5 (matO (cw 7 1 0x58 0x41 0xFF 0xFF 0 0 0 7)) } {}) 0 0 7 1 (cw 7 1 0x58 0x41 0xFF 0xFF 0 0 0 7) := by decide +kernel

theorem witness_MatrixRows_3_7_2 : woFull (State.core (coreP (cw 7 2 0xFF 0x58 0x41 0x42 0 0 0 7) lane0 {} { woQ := List.replicate 5 (matO (cw 7 2 0xFF 0x58 0x41 0x42 0 0 0 7)) } {}) 0) = true
    ∧ Issues (coreP (cw 7 2 0xFF 0x58 0x41 0x42 0 0 0 7) lane0 {} { woQ := List.replicate 5 (matO (cw 7 2 0xFF 0x58 0x41 0x42 0 0 0 7)) } {}) 0 0 7 2 (cw 7 2 0xFF 0x58 0x41 0x42 0 0 0 7) := by decide +kernel

theorem witness_UnplannedAccesses_5_4 : UnpIssues (coreS (cw 9 4 0xFF 2 0xFF 0xFF 0 0 0 0)) 0 0 4 none false false false (cw 9 4 0xFF 2 0xFF 0xFF 0 0 0 0) 0 beC [0] := by decide +kernel

theorem witness_UnplannedAccesses_5_5 : UnpIssues (coreS (cw 9 5 0xFF 2 0xFF 0xFF 0 0 0 0)) 0 0 5 none false false false (cw 9 5 0xFF 2 0xFF 0xFF 0 0 0 0) 0 beC [0] := by decide +kernel

theorem witness_UnplannedAccesses_6 : ∀ e ∈ atomRows, UnpIssues (coreS (cw 9 2 1 2 4 6 0 (2 + 16 * e.2.1) 0 0)) 0 0 2 (some e.2.1) true true true (cw 9 2 1 2 4 6 0 (2 + 16 * e.2.1) 0 0) 0 beC [0]
    ∧ (State.cdc (coreS (cw 9 2 1 2 4 6 0 (2 + 16 * e.2.1) 0 0)) 0).evict = []
    ∧ (∀ lane ∈ unpLanes (getLg (coreS (cw 9 2 1 2 4 6 0 (2 + 16 * e.2.1) 0 0)) 0 0) (cw 9 2 1 2 4 6 0 (2 + 16 * e.2.1) 0 0),
      findWay (State.cdc (coreS (cw 9 2 1 2 4 6 0 (2 + 16 * e.2.1) 0 0)) 0) (unpVa (getLg (coreS (cw 9 2 1 2 4 6 0 (2 + 16 * e.2.1) 0 0)) 0 0) (cw 9 2 1 2 4 6 0 (2 + 16 * e.2.1) 0 0) lane / 64) = none) := by decide +kernel

theorem witness_GraphicsRows_10_1 : (getLg (coreS (cw 0xB 1 0xFF 4 8 0xFF 0 0 0 0)) 0 0).item = none ∧ Issues (coreS (cw 0xB 1 0xFF 4 8 0xFF 0 0 0 0)) 0 0 0xB 1 (cw 0xB 1 0xFF 4 8 0xFF 0 0 0 0) := by decide +kernel

theorem witness_GraphicsRows_10_2 : (getLg (coreS (cw 0xB 2 1 0xFF 0xFF 0xFF 0 0 0 0)) 0 0).item = none ∧ Issues (coreS (cw 0xB 2 1 0xFF 0xFF 0xFF 0 0 0 0)) 0 0 0xB 2 (cw 0xB 2 1 0xFF 0xFF 0xFF 0 0 0 0) := by decide +kernel

theorem witness_GraphicsRows_10_3 : (getLg (coreS (cw 0xB 3 0xFF 4 0xFF 0xFF 0 0 0 0)) 0 0).item = none ∧ Issues (coreS (cw 0xB 3 0xFF 4 0xFF 0xFF 0 0 0 0)) 0 0 0xB 3 (cw 0xB 3 0xFF 4 0xFF 0xFF 0 0 0 0) := by decide +kernel

theorem witness_GraphicsRows_10_4 : (getLg (coreS (cw 0xB 4 0xFF 0xFF 0xFF 0xFF 0 0 0 0)) 0 0).item = none ∧ Issues (coreS (cw 0xB 4 0xFF 0xFF 0xFF 0xFF 0 0 0 0)) 0 0 0xB 4 (cw 0xB 4 0xFF 0xFF 0xFF 0xFF 0 0 0 0) := by decide +kernel

theorem witness_WellFormedCommandsRun_1 : ∃ i : Instr, i.wf = true := ⟨.ctrlNop 0 0 nopW, by decide +kernel⟩

theorem witness_WellFormedCommandsRun_2 : ∃ i : Instr, i.wf = false := ⟨.ctrlNop 0 0 0, by decide +kernel⟩

theorem witness_WellFormedCommandsRun_3 : (Instr.ctrlNop 0 0 nopW).wf = true ∧ canIssue upS 0 0 nopW = false := by decide +kernel

theorem witness_CommandsLeaveTheQueue : exec (.cnpReceived 0) { upS with pending := [.hotReset] } = .next { upS with pending := [.hotReset] } :=
  rfl

theorem witness_MemoryStaysCanonical : Memory.wf { upS with devMem := [(5, 1#8)] } = true
    ∧ ∃ t, step { upS with devMem := [(5, 1#8)], pending := [.cnpReceived 0] } = .next t := ⟨by decide +kernel, _, rfl⟩

theorem witness_LedgerAndSeedsHold : FuseLedger { upS with sec := { otp := { seeds := [.destroyed, .written, .empty, .empty] } } }
    ∧ ∃ t, step { upS with sec := { otp := { seeds := [.destroyed, .written, .empty, .empty] } }, pending := [.cnpReceived 0] } = .next t :=
  ⟨⟨by decide +kernel, by decide +kernel⟩, _, rfl⟩

theorem witness_SafeStateHolds : mayReset (.cnpReceived 0) = false
    ∧ ∃ t, exec (.cnpReceived 0) { upS with flt := { safe := true } } = .next t := ⟨rfl, _, rfl⟩

theorem witness_LaneGroupRowFrames : ∃ t, exec (.ctrlNop 0 0 nopW) (coreS nopW) = .next t := by
  simp only [exec, execCtrlNop, lgRow, coreRow]
  rw [if_neg (by decide +kernel), if_pos (by decide +kernel)]
  exact ⟨_, rfl⟩

/-! ### Words that the form check refuses -/

/-- A reserved bit of the word. -/
theorem test_wf_common : rowWord 0 0 none (nopW ||| BitVec.ofNat 128 (2 ^ 77)) = false := by decide +kernel

/-- A reserved operand code. -/
theorem test_wf_code : rowWord 1 1 none (cw 1 1 0x41 0x5C 0x43 0xFF 0 0 0 7) = false := by decide +kernel

/-- A word of the whole lane group under p0. -/
theorem test_wf_pred : rowWord 0 0 none (cw 0 0 0xFF 0xFF 0xFF 0xFF 0 0 0 0) = false := by decide +kernel

/-- NOP with a MOD. -/
theorem test_wf_ctrl : rowWord 0 0 none (cw0 0 0 1 0) = false := by decide +kernel

/-- A scalar result in a vector register. -/
theorem test_wf_scalar : rowWord 1 1 none (cw 1 1 0x01 0x42 0x43 0xFF 0 0 0 7) = false := by decide +kernel

/-- A vector result in a scalar register. -/
theorem test_wf_valu : rowWord 2 0x20 none (cw 2 0x20 0x41 2 3 0xFF 0 0 0 0) = false := by decide +kernel

/-- A reserved OP. -/
theorem test_wf_vfunc : rowWord 3 9 none (cw 3 9 1 2 0xFF 0xFF 0 0 0 0) = false := by decide +kernel

/-- CVT to a block format. -/
theorem test_wf_vcvt : rowWord 4 0 none (cw 4 0 1 2 3 0xFF 0x0A 0 0 0) = false := by decide +kernel

/-- Address form 3. -/
theorem test_wf_ts : rowWord 5 0 none (cw 5 0 1 0x40 0xFF 0xFF 0 11 0 0) = false := by decide +kernel

/-- KB of 0. -/
theorem test_wf_mat : rowWord 6 0 none (cw 6 0 0x58 0x41 0x42 0xFF 1 1 0 7) = false := by decide +kernel

/-- CLEAR of a scalar register. -/
theorem test_wf_acc : rowWord 7 0 none (cw 7 0 0x40 0xFF 0xFF 0xFF 0 0 0 7) = false := by decide +kernel

/-- SIG of 0. -/
theorem test_wf_sem : rowWord 8 0 none (cw0 8 0 0 0) = false := by decide +kernel

/-- An odd address register. -/
theorem test_wf_unp : rowWord 9 0 none (cw 9 0 1 3 0xFF 0xFF 0 2 0 0) = false := by decide +kernel

/-- START with a MOD. -/
theorem test_wf_xfer : rowWord 0xA 0 none (cw0 0xA 0 1 0) = false := by decide +kernel

/-- Four registers from v62. -/
theorem test_wf_gfx : rowWord 0xB 1 none (cw 0xB 1 0xFF 62 8 0xFF 0 0 0 0) = false := by decide +kernel

/-- A reserved CLASS. -/
theorem test_wf_class : rowWord 0xC 0 none (cw0 0xC 0 0 0) = false := by decide +kernel

theorem test_ill_formed_is_refused : exec (.ctrlNop 0 0 0) upS = .refused .reservedWord := by
  simp only [exec, execCtrlNop, lgRow, coreRow]
  rw [if_pos (by decide +kernel)]

/-! ### Single commands, expected values by hand from the rules -/

/-- The state a command answers. -/
def after (r : Host.Outcome State Fault Refusal) : State :=
  match r with
  | .next t => t
  | _ => State.reset

def row (w : W128) (x : Lg) (i : CoreRow) : Lg := getLg (after (exec (i 0 0 w) (coreP w x {} {} {}))) 0 0
def sW (op mod : Nat) : W128 := cw 1 op 0x41 0x42 0x43 0xFF 0 mod 0 7
def vW (op : Nat) : W128 := cw 2 op 1 2 3 4 0 0 0 7
/-- Lane 0 of v2, v3 and v4. -/
def v3 (a b c : W32) : Lg := { v := [(64, a), (96, b), (128, c)] }

/-- R103: 64-bit sums wrap. -/
theorem test_sadd_wraps : lgS (row (sW 1 0) { s := [(2, BitVec.ofNat 64 (2 ^ 64 - 1)), (3, 3)] } .scalarSadd) 1 = 2 := by decide +kernel
/-- R103: a shift takes its amount modulo 64. -/
theorem test_ssar_sign : lgS (row (sW 0xA 0) { s := [(2, BitVec.ofNat 64 (2 ^ 63)), (3, 65)] } .scalarSsar) 1 = 3 * 2 ^ 62 := by decide +kernel
/-- R425: IMM[31:0] is sign-extended as a scalar source. -/
theorem test_scalar_imm_signed : lgS (row (cw 1 0 0x41 0xFE 0xFF 0xFF 0 0 0xFFFFFFFF 7) {} .scalarSmov) 1 = 2 ^ 64 - 1 := by decide +kernel
/-- R96: p7 reads all ones whatever is written. -/
theorem test_p7_keeps : lgP (row (cw 2 0x2E 0x57 2 3 0xFF 0 1 0 7) (v3 1 2 0) .valuIcmp) 7 = 0xFFFFFFFF#32 := by decide +kernel
/-- R103: the high half of a signed product. -/
theorem test_imulhi_signed : lgV (row (vW 0x23) (v3 0xFFFFFFFF 2 0) .valuImulhi) 1 0 = 0xFFFFFFFF := by decide +kernel
/-- R103: a saturating sum. -/
theorem test_iadds_saturates : lgV (row (vW 0x25) (v3 0x7FFFFFFF 1 0) .valuIadds) 1 0 = 0x7FFFFFFF := by decide +kernel
/-- R103: byte lanes carry nothing into each other. -/
theorem test_iadd4_lanes : lgV (row (vW 0x30) (v3 0x00FF00FF 0x00010001 0) .valuIadd4) 1 0 = 0 := by decide +kernel
/-- R89: FP32 sums round to nearest, ties to even: 1 + 2^-24 is 1. -/
theorem test_fadd_tie : lgV (row (vW 0) (v3 0x3F800000 0x33800000 0) .valuFadd) 1 0 = 0x3F800000 := by decide +kernel
/-- R103: a fused product and sum rounds once: (1 + 2^-23) * (1 + 2^-23) - (1 + 2^-22) is 2^-46. -/
theorem test_ffma_once : lgV (row (vW 3) (v3 0x3F800001 0x3F800001 0xBF800002) .valuFfma) 1 0 = 0x28800000 := by decide +kernel
/-- R104: the reciprocal of 0 is infinity. -/
theorem test_rcp_zero : lgV (row (cw 3 0 1 2 0xFF 0xFF 0 0 0 7) {} .vfuncRcp) 1 0 = 0x7F800000 := by decide +kernel
/-- R102: a taken branch goes to its target. -/
theorem test_br_target : (row (cw0 0 1 0 5) {} .ctrlBr).pc = 5 := by decide +kernel
/-- R106: the highest-numbered lane's bytes stand. -/
theorem test_ts_st_highest_lane : mget ((after (exec (.tsSt 0 0 (cw 5 1 0xFF 0x40 6 1 0 9 0 7))
    (coreP (cw 5 1 0xFF 0x40 6 1 0 9 0 7) { v := [(32, 9#32), (63, 7#32)] } {} {} {}))).core 0).ts 0 0 = 7 := by decide +kernel
/-- R171: a write is read back. -/
theorem test_host_memory : readPhys (writePhys State.reset (hostBase + 70) [1, 2]) (hostBase + 70) 2 = [1, 2] := by decide +kernel
/-- R8: a register reads its table's reset value. -/
theorem test_fe_groups_reset : rd State.reset 0x010404 = 0x0101 := by decide +kernel
/-- R400: a class C event opens record 1. -/
theorem test_first_event : (faultEvent State.reset 0 0xC 0 3 0xFFFF 0).flt.seq = 1 := by decide +kernel
/-- R212: a fence has reached a value across the wrap. -/
theorem test_diff64_wraps : 0 < diff64 1 (2 ^ 64 - 1) := by decide +kernel

/-! ### Cases within a statement that it gives conditions of their own -/

theorem witness_GraphicsRows_6 : ∀ e ∈ sampleRows, SampleIssues (coreP (cw 0xB e.2.1 4 (if e.2.2 then 0xFF else 8) 0xFF 0xFF 0 0 0 0) { p := [(0, 0#32)], item := some frag } {} {} smpP) 0 0 e.2.1 (cw 0xB e.2.1 4 (if e.2.2 then 0xFF else 8) 0xFF 0xFF 0 0 0 0) frag 0 beC ctx1 smp1
    ∧ (getLg (coreP (cw 0xB e.2.1 4 (if e.2.2 then 0xFF else 8) 0xFF 0xFF 0 0 0 0) { p := [(0, 0#32)], item := some frag } {} {} smpP) 0 0).smp = none
    ∧ unpPending (coreP (cw 0xB e.2.1 4 (if e.2.2 then 0xFF else 8) 0xFF 0xFF 0 0 0 0) { p := [(0, 0#32)], item := some frag } {} {} smpP) 0 0 = false := by decide +kernel

/-- One texel of a sample queued by another access of the lane group. -/
def smpWait (w : W128) : State :=
  { coreP w { item := some frag } {} {} smpP with
    cdcs := [(0, { queue := [{ src := 0, lg := 0, kind := 0, va := 0, home := 0, size := 4, lanes := [0], dst := 63 }] })] }
theorem witness_GraphicsRows_6_waits : unpPending (smpWait (cw 0xB 6 4 8 0xFF 0xFF 0 0 0 7)) 0 0 = true
    ∧ Issues (smpWait (cw 0xB 6 4 8 0xFF 0xFF 0 0 0 7)) 0 0 0xB 6 (cw 0xB 6 4 8 0xFF 0xFF 0 0 0 7)
    ∧ (activeLanes (getLg (smpWait (cw 0xB 6 4 8 0xFF 0xFF 0 0 0 7)) 0 0) (cw 0xB 6 4 8 0xFF 0xFF 0 0 0 7)) ≠ [] := by decide +kernel

theorem witness_GraphicsRows_6_done : (getLg (coreP 0 { smp := some [some 1] } {} {} {}) 0 0).smp = some [some 1] := by decide +kernel

theorem witness_RenderingEvents_1_rest :
    let s := gfxS { passes := [0] } {} {}
    gfxEnv s 0 = some (0, beC, planC 0 {}, ctx1) ∧ (s.rgn 0).geo.passes = [0] ∧ (s.rgn 0).geo.active = false ∧ (s.rgn 0).geo.wait = false
      ∧ passArgsLocal beC (passAt (planC 0 {}) 0) = true ∧ ((drawsOf s ctx1 beC (passAt (planC 0 {}) 0)).map (·.prims)).sum ≤ 0
      ∧ (gatherBatch s ctx1 beC {} 0 { (s.rgn 0).geo with batch := (s.rgn 0).rel }).toOption.isSome = true := by decide +kernel

theorem witness_RenderingEvents_5_rest :
    let s := gfxS {} { passes := [0], tiles := [0], started := true } {}
    gfxEnv s 0 = some (0, beC, planC 0 {}, ctx1) ∧ curPass (gfxOn s 0) = some (0, false) ∧ (gfxOn s 0).next = none
      ∧ (tileFoot s ctx1 beC (planC 0 {}) 0 0).length ≤ 0 ∧ (tilePrims s ctx1 beC (planC 0 {}) 0 0).length ≤ 0 := by decide +kernel

theorem witness_TileStoreRows_5_store : storeBlocked (coreP (cw 5 1 0xFF 0x40 0xFF 1 0 8 0 0) lane0 {}
      { matQ := [matO (cw 7 1 0x58 0x41 0xFF 0xFF 0 0 0 7)] } {}) 0 0 (cw 5 1 0xFF 0x40 0xFF 1 0 8 0 0) = true := by decide +kernel

theorem witness_TileStoreRows_5_load : ownStoreWaits (coreP (cw 5 0 1 0x40 0xFF 0xFF 0 8 0 0) lane0 {}
      { woQ := [matO (cw 7 2 0xFF 0x58 0x41 0x42 0 0 0 7)] } {}) 0 0 (cw 5 0 1 0x40 0xFF 0xFF 0 8 0 0) = true
    ∧ Issues (coreP (cw 5 0 1 0x40 0xFF 0xFF 0 8 0 0) lane0 {} { woQ := [matO (cw 7 2 0xFF 0x58 0x41 0x42 0 0 0 7)] } {}) 0 0 5 0
      (cw 5 0 1 0x40 0xFF 0xFF 0 8 0 0) := by decide +kernel

/-- DORMANT with one FREE frame. -/
def dozeS : State := { upS with pwr := { upS.pwr with dev := .dormant }, mem := { upS.mem with frames := [(0, .free)] } }
theorem witness_ModuleResetLeaves_3 : (0, FrameState.free) ∈ (moduleReset false dozeS).mem.frames := by decide +kernel

theorem witness_HeadCommands_6_off : (head upS 3).st = .off ∧ (head (hdS .active true) 3).st ≠ .off := by decide +kernel

/-- A descriptor list past the bank that runs: bank 0 is barred. -/
def bankS : State := { upS with sec := { imageLoaded := true, bank := 0 } }
theorem witness_FlashAndFuseCommands_4_barred : blockUp bankS 0x060044 = true
    ∧ flashBarred bankS (field (rd bankS 0x060040) 0 26 / 256 * 256) = true
    ∧ flashBarred bankS (field (rd bankS 0x060040) 0 26 / 65536 * 65536) = true := by decide +kernel

theorem witness_FlashAndFuseCommands_4_busy : { upS with sec := { flashOp := some ⟨0, 0, none⟩ } }.sec.flashOp ≠ none := by decide +kernel

/-- The device up with its pads latched, so that the blower keeps its duty. -/
def latS : State := { upS with oas := { latched := true } }
theorem witness_HeatAndBrake_4 : bar0Up latS = true ∧ limitC latS ≤ (105 : Byte).toNat
    ∧ ∃ t, exec (.thermalLimitReached 1 105 900) latS = .next t := by
  refine ⟨by decide +kernel, by decide +kernel, _, rfl⟩

theorem witness_FrameCommands_2_coefficients :
    readCoefs (cmtS {} [cmt [] false]) (cmt [] false) (layersOn (cmt [] false)) [] = .ok [] := by decide +kernel

theorem witness_FrameCommands_3_none : timingRuns (cmtS {} []) 3 = true
    ∧ waitingCommits (dropGone 3 (captureFrame 3 (cmtS {} []))) 3 = [] := by decide +kernel

theorem witness_FrameCommands_3_applied : timingRuns (cmtS relD [cmt [] true]) 3 = true ∧ feRuns (cmtS relD [cmt [] true]) = true
    ∧ waitingCommits (dropGone 3 (captureFrame 3 (cmtS relD [cmt [] true]))) 3 = [cmt [] true]
    ∧ (dropGone 3 (captureFrame 3 (cmtS relD [cmt [] true]))).desc? 16 0 = some relD
    ∧ bitOf (cField (cmt [] true) 0 1) 2 = false ∧ relD.stamp + 800 ≤ (cmtS relD [cmt [] true]).now := by decide +kernel

/-- A commit that waits for frame 9. -/
def laterC : Commit := cmt [4, 0, 0, 0, 9] true
theorem witness_FrameCommands_3_later : waitingCommits (dropGone 3 (captureFrame 3 (cmtS relD [laterC]))) 3 = [laterC]
    ∧ bitOf (cField laterC 0 1) 2 = true
    ∧ diff32 ((head (dropGone 3 (captureFrame 3 (cmtS relD [laterC]))) 3).frame + 1) (cField laterC 4 4) < 0 := by decide +kernel

theorem witness_FrameCommands_3_repeat : waitingCommits (dropGone 3 (captureFrame 3 (cmtS relD [cmt [] false]))) 3 = [cmt [] false]
    ∧ (dropGone 3 (captureFrame 3 (cmtS relD [cmt [] false]))).desc? 16 0 = some relD
    ∧ bitOf (cField (cmt [] false) 0 1) 2 = false ∧ (cmt [] false).ok = false := by decide +kernel

/-- `rcdS` in a context of 600 pages, all mapped. -/
def medC : Ctx := { ctx1 with ltaCount := 600 }
def medS (op n r : Nat) : State :=
  { rcdS op n r with
    mem := { (rcdS op n r).mem with lta := (List.range 600).map (fun k => (k, 0x1800000#32 + BitVec.ofNat 32 k)) }
    fe := { (rcdS op n r).fe with ctxs := [(1, medC)] } }
theorem witness_MediaCommands_1_flush : MediaServes (medS 0x400 128 flushR) 16 0 0x400 decodeBad (que (rcdD 0x400 128)) medC (rcdD 0x400 128) 0 flushR
    ∧ mediaRanges (medS 0x400 128 flushR) 1 (decodeRanges flushR) = none
    ∧ (walkVa (medS 0x400 128 flushR) medC false (userDesc 16 0) (rField flushR 16 8) (2 ^ 18) true).stop = none
    ∧ bitOf flushR 2 = true := by decide +kernel
theorem witness_MediaCommands_1_picture : MediaServes (medS 0x400 128 decR) 16 0 0x400 decodeBad (que (rcdD 0x400 128)) medC (rcdD 0x400 128) 0 decR
    ∧ mediaRanges (medS 0x400 128 decR) 1 (decodeRanges decR) = none
    ∧ (walkVa (medS 0x400 128 decR) medC false (userDesc 16 0) (rField decR 16 8) (2 ^ 18) true).stop = none
    ∧ bitOf decR 2 = false ∧ pictureOk decR report = true ∧ freeSlot decR 0 [] = some 0
    ∧ refSlots (decodeStream (medS 0x400 128 decR) 1 decR) report.refs = []
    ∧ (walkVa (medS 0x400 128 decR) medC false (userDesc 16 0) (rField decR 8 8) (rField decR 4 4) false).stop = none
    ∧ (rowWalks (medS 0x400 128 decR) medC (userDesc 16 0) true (slotRows decR 0 2 1)).toOption.isSome = true
    ∧ nearestRef report [] = none := by decide +kernel
theorem witness_MediaCommands_2_refused : pictureOk decR { report with level := 62 } = false ∧ pictureOk decR { report with depth := 10 } = false
    ∧ pictureOk decR { report with profile := .avcHigh } = false := by decide +kernel
theorem witness_MediaCommands_2_full : freeSlot decR 1 [] = none := by decide +kernel
theorem media_out_fits : ∀ n < 1025, (walkVa (medS 0x401 128 encR) medC false (userDesc 16 0) (rField encR 48 8) n true).stop = none := by decide +kernel
theorem witness_MediaCommands_4_base : MediaServes (medS 0x401 128 encR) 16 0 0x401 encodeBad (que (rcdD 0x401 128)) medC (rcdD 0x401 128) 0 encR
    ∧ mediaRanges (medS 0x401 128 encR) 1 (encodeRanges encR) = none
    ∧ (rowWalks (medS 0x401 128 encR) medC (userDesc 16 0) false (sourceRows encR)).toOption.isSome = true
    ∧ (walkVa (medS 0x401 128 encR) medC false (userDesc 16 0) (rField encR 40 8) (2 ^ 25) true).stop = none := by decide +kernel
theorem witness_MediaCommands_4_level : encodeSupported encR = Config.withinLevel 0 53 64 64 0 0 := by
  have h0 : field encR 0 2 = 0 := by decide +kernel
  have h1 : rField encR 32 2 = 64 := by decide +kernel
  have h2 : rField encR 34 2 = 64 := by decide +kernel
  have h3 : bitOf encR 8 = false := by decide +kernel
  simp [encodeSupported, codecTable, h0, h1, h2, h3]
theorem witness_MediaCommands_4_fits (bs : List Byte) (h : bs.length ≤ rField encR 56 4) :
    (walkVa (medS 0x401 128 encR) medC false (userDesc 16 0) (rField encR 48 8) bs.length true).stop = none :=
  media_out_fits _ (Nat.lt_succ_of_le (Nat.le_trans h (Nat.le_of_eq (by decide +kernel))))

theorem witness_CaravanRecords_1_room : creditsOn upS 0 9 + 32 ≤ 262144 ∧ (upS.net.nodes.length < 65536)
    ∧ 262144 < creditsOn { upS with net := { nodes := [(8, { credits := 262144 })] } } 0 9 + 32 := by decide +kernel
theorem witness_CaravanRecords_1_full (l : List (Nat × Node)) (h : l = List.replicate 65536 (9, {})) : 65536 ≤ l.length := by
  rw [h, List.length_replicate]
theorem witness_CaravanRecords_3_waits : bitOf (3 + 2 ^ 8) 8 = true ∧ nodeCode {} = field (3 + 2 ^ 8) 16 2 := by decide +kernel
theorem witness_CaravanRecords_4_free : inObject (rcdS 0x500 32 0) 1 0 4096 = true ∧ freeExport (rcdS 0x500 32 0) 65535 1 = some 1
    ∧ inObject (rcdS 0x500 32 0) 1 0 (2 ^ 30) = false := by decide +kernel
theorem witness_CaravanRecords_6_room : upS.net.qps.length < 4096 ∧ mfresh upS.net.qps 4096 0x100 = some 0x100 := by decide +kernel
theorem witness_CaravanRecords_6_full (l : List (Nat × Qp)) (h : l = List.replicate 4096 (256, { ctx := 1 })) : 4096 ≤ l.length := by
  rw [h, List.length_replicate]

theorem witness_RoceCommands_3_runs : piecesRun (qpS 2) [(4096, 64)] = true := by decide +kernel

theorem witness_UnplannedAccesses_1 : ∃ t, UnpIssues (coreS (cw 9 0 1 2 0xFF 0xFF 0 2 0 0)) 0 0 0 none false false true (cw 9 0 1 2 0xFF 0xFF 0 2 0 0) 0 beC [0]
    ∧ exec (.unpLd 0 0 (cw 9 0 1 2 0xFF 0xFF 0 2 0 0)) (coreS (cw 9 0 1 2 0xFF 0xFF 0 2 0 0)) = .next t
    ∧ (State.cdc (coreS (cw 9 0 1 2 0xFF 0xFF 0 2 0 0)) 0).evict = [] := by
  refine ⟨_, by decide +kernel, rfl, by decide +kernel⟩


theorem witness_DataCommands_2_bus : hostBar (admS [(0, 3), (40, 4096), (48, 1)]) 0 4096 = none
    ∧ hostBar { admS [(0, 3), (40, 4096), (48, 1)] with link := {} } 0 4096 = some 0x0A02 := by decide +kernel

theorem witness_AdminCommands_3_taken :
    let s := { mkS [(0, 3842), (40, 4096)] (1 + 4 * 2 ^ 32 + 2 ^ 48) with fe := { upS.fe with
      queues := [(16, que {}), (adminQid, admQ [(0, 3842), (40, 4096)])] } }
    Serves s adminQid 0 0xF02 (admQ [(0, 3842), (40, 4096)]) (dsc [(0, 3842), (40, 4096)]) ∧ (s.queue? 16).isSome = true := by decide +kernel

theorem witness_QueueAndDescriptorCommands_14 : feRuns chnS = true ∧ chnS.queue? 16 = some (cpyQ chnD) ∧ chnS.desc? 16 0 = some chnD
    ∧ lateBreach chnD chnS = none ∧ signalPage chnS (cpyQ chnD) chnD.cur = none ∧ dChain chnD.cur = true ∧ chains (dOpcode chnD.cur) = true
    ∧ (signalCur 16 (cpyQ chnD) chnD 0 chnS).2 = 0
    ∧ chainWord ((countDesc 16 (cpyQ chnD) chnD.cur 0 chnS).setDesc 16 0 chnD) (cpyQ chnD) chnD.cur
      = some (w512 [(0, 513), (3, 1), (40, 64), (56, 16)])
    ∧ chainOk ((countDesc 16 (cpyQ chnD) chnD.cur 0 chnS).setDesc 16 0 chnD) 16 (cpyQ chnD) (w512 [(0, 513), (3, 1), (40, 64), (56, 16)])
      = true := by decide +kernel

/-- A packet with a sequence number. -/
def pktN (t lines psn : Nat) (bs : List Byte) : QPacket :=
  { pkt t 9 7 lines 0 0 bs with hdr := (pkt t 9 7 lines 0 0 bs).hdr ||| BitVec.ofNat 256 (psn * 2 ^ 96) }
theorem witness_QanatPackets_10 : FromUpNode netS 2 (pktN 1 65 0 []) 1 node9 ∧ node9.credits < pkLines (pktN 1 65 0 [])
    ∧ FromUpNode netS 2 (pktN 0 1 1 (List.replicate 64 5)) 0 node9 ∧ 0 < diff32 (pkPsn (pktN 0 1 1 (List.replicate 64 5))) node9.rxPsn
    ∧ node9.nakAt = none ∧ FromUpNode netS 2 (pktN 1 1 (2 ^ 32 - 1) []) 1 node9
    ∧ diff32 (pkPsn (pktN 1 1 (2 ^ 32 - 1) [])) node9.rxPsn < 0
    ∧ netS.now < netS.now + netRto netS := by decide +kernel

theorem witness_CollectorCommands_9 (r : FltRec) (h : mfind upS.flt.hist (33 % 32) = some r) : r.seq ≠ 33 := by
  have e : mfind upS.flt.hist (33 % 32) = none := by decide +kernel
  rw [e] at h
  cases h

theorem witness_CaravanRecords_12 : Serves (rcdS 0x500 16 0) 16 0 0x500 (que (rcdD 0x500 16)) (rcdD 0x500 16)
    ∧ netRecord (rcdS 0x500 16 0) (que (rcdD 0x500 16)) 16 0 (rcdD 0x500 16).cur = .ok 0
    ∧ caravanOk (que (rcdD 0x500 16)) (dField (rcdD 0x500 16).cur 48 4) 0 = false := by decide +kernel

/-- A record past the context's pages. -/
def lostD : Desc := dsc [(0, 0x500), (40, 2 ^ 20), (48, 16)]
theorem witness_CaravanRecords_13 : Serves (srvD lostD) 16 0 0x500 (que lostD) lostD
    ∧ (netRecord (srvD lostD) (que lostD) 16 0 lostD.cur).toOption = none := by decide +kernel


end Sys2Proof.Tests
end

section
/-! SUPPORT. Proofs about the set-up registers (O54) and about accesses of the host and errors on the link (O21). -/

namespace Sys2Proof.Machine

/-! ### Which part of the state a read of a register shows (R421) -/

/-- Offsets outside the blocks of heads, sub-ports, power, faults and security whose read answers the stored value: the plain registers
and the kept ones of the link, the front end and the clocks. -/
def readsStored (off : Nat) : Bool :=
  (headOff off).isNone && (subOff off).isNone && !inMsix 0 off && !inPba 0 off
    && (((plainMask off).isSome && !between 0x040000 0x070000 off)
      || (keptReg off && (decide (off < 0x020000) || between 0x030000 0x040000 off)))

theorem readReg_of_readsStored {off : Nat} (h : readsStored off = true) (s : State) : readReg s off = rd s off := by
  rw [readsStored, Bool.and_eq_true, Bool.or_eq_true] at h
  obtain ⟨hPlace, hBlock⟩ := h
  simp only [Bool.and_eq_true, Option.isNone_iff_eq_none, Bool.not_eq_true'] at hPlace
  obtain ⟨⟨⟨hHead, hSub⟩, hMsix⟩, hPba⟩ := hPlace
  simp only [readReg, hHead, hSub, hMsix, hPba, Bool.false_eq_true, if_false]
  rcases hBlock with hPlain | hKept
  · rw [if_pos hPlain]
  · simp only [Bool.and_eq_true, Bool.or_eq_true, decide_eq_true_eq, between] at hKept
    obtain ⟨hKept, hLow | hClk⟩ := hKept
    · simp [hKept, hLow]
    · have hAbove : ¬ off < 0x010000 ∧ ¬ off < 0x020000 ∧ ¬ off < 0x030000 := by omega
      simp [hKept, hAbove, hClk]

/-- Clock registers that are neither kept nor plain: they show the clocks (R370). -/
def showsClk (off : Nat) : Bool :=
  decide (0x030000 ≤ off) && decide (off < 0x040000) && !keptReg off && (plainMask off).isNone

section Blocks
variable {off : Nat} (s : State)

/-- Below the blocks of the heads no offset is in a head's block, in a sub-port's, in the MSI-X table or in the PBA. -/
theorem below_heads (h : off < 0x071000) : headOff off = none ∧ subOff off = none ∧ inMsix 0 off = false ∧ inPba 0 off = false := by
  have hSub : ¬ 0x090100 ≤ off := by omega
  have hMsix : ¬ 0xF00000 ≤ off := by omega
  have hPba : ¬ 0xF10000 ≤ off := by omega
  simp [headOff, subOff, inMsix, inPba, msixBase, between, Nat.not_le.mpr h, hSub, hMsix, hPba]

theorem readReg_of_showsClk (h : showsClk off = true) : readReg s off = clkStatus s off := by
  simp only [showsClk, Bool.and_eq_true, decide_eq_true_eq, Bool.not_eq_true', Option.isNone_iff_eq_none] at h
  obtain ⟨⟨⟨hLo, hHi⟩, hKept⟩, hPlain⟩ := h
  obtain ⟨hHead, hSub, hMsix, hPba⟩ := below_heads (off := off) (by omega)
  have hAbove : ¬ off < 0x010000 ∧ ¬ off < 0x020000 ∧ ¬ off < 0x030000 := by omega
  simp [readReg, hHead, hSub, hMsix, hPba, hKept, hPlain, hAbove, hHi]

theorem readReg_of_pwrBlock (hLo : 0x040000 ≤ off) (hHi : off < 0x050000) : readReg s off = pwrStatus s off := by
  obtain ⟨hHead, hSub, hMsix, hPba⟩ := below_heads (off := off) (by omega)
  have hAbove : ¬ off < 0x010000 ∧ ¬ off < 0x020000 ∧ ¬ off < 0x030000 ∧ ¬ off < 0x040000 ∧ off < 0x070000 := by omega
  simp [readReg, between, hHead, hSub, hMsix, hPba, hLo, hAbove, hHi]

theorem readReg_of_fltBlock (hLo : 0x050000 ≤ off) (hHi : off < 0x060000) : readReg s off = fltStatus s off := by
  obtain ⟨hHead, hSub, hMsix, hPba⟩ := below_heads (off := off) (by omega)
  have hAbove : ¬ off < 0x010000 ∧ ¬ off < 0x020000 ∧ ¬ off < 0x030000 ∧ ¬ off < 0x040000 ∧ ¬ off < 0x050000 ∧ 0x040000 ≤ off
    ∧ off < 0x070000 := by omega
  simp [readReg, between, hHead, hSub, hMsix, hPba, hAbove, hHi]

theorem readReg_of_secBlock (hLo : 0x060000 ≤ off) (hHi : off < 0x070000) : readReg s off = secStatus s off := by
  obtain ⟨hHead, hSub, hMsix, hPba⟩ := below_heads (off := off) (by omega)
  have hAbove : ¬ off < 0x010000 ∧ ¬ off < 0x020000 ∧ ¬ off < 0x030000 ∧ ¬ off < 0x040000 ∧ ¬ off < 0x050000 ∧ ¬ off < 0x060000
    ∧ 0x040000 ≤ off := by omega
  simp [readReg, between, hHead, hSub, hMsix, hPba, hAbove, hHi]

theorem readReg_of_head {h o : Nat} (hOff : headOff off = some (h, o)) : readReg s off = headStatus s h o off := by
  simp [readReg, hOff]

theorem readReg_of_sub {q o : Nat} (hHead : headOff off = none) (hOff : subOff off = some (q, o)) :
    readReg s off = subStatus s q o off := by
  simp [readReg, hHead, hOff]

end Blocks

/-! ### The values after a module reset (R8, R34) -/

/-- Registers of power, of the security block, of a head and of a sub-port whose read answers the stored value. -/
theorem readReg_of_blockStored {off : Nat} (h : off ∈ [0x040000, 0x040008, 0x060014, 0x071000, 0x090100]) (s : State) :
    readReg s off = rd s off := by
  simp only [List.mem_cons, List.not_mem_nil, or_false] at h
  rcases h with rfl | rfl | rfl | rfl | rfl
  · simp [readReg_of_pwrBlock, pwrStatus]
  · simp [readReg_of_pwrBlock, pwrStatus]
  · simp [readReg_of_secBlock, secStatus, between]
  · simp [readReg_of_head s (show headOff 0x071000 = some (0, 0) from rfl), headStatus, between]
  · simp [readReg_of_sub s (show headOff 0x090100 = none from rfl) (show subOff 0x090100 = some (0, 0) from rfl), subStatus, between]

/-- FLT_CTRL reads its stored bits with the two enables that are always 1 (R399). -/
theorem readReg_fltCtrl (s : State) : readReg s 0x050000 = rd s 0x050000 ||| 0x88 := by
  simp [readReg_of_fltBlock, fltStatus]

/-- A module reset discards every stored value, so a stored register reads its reset value. -/
@[simp] theorem rd_moduleReset (lost : Bool) (s : State) (off : Nat) : rd (moduleReset lost s) off = (regReset off).toNat := rfl

/-- Every part of the clocks that a register shows is back at its start after a module reset. -/
theorem clkStatus_moduleReset (lost : Bool) (s : State) (off : Nat) : clkStatus (moduleReset lost s) off = clkStatus {} off := rfl

/-- Settles O54: each register listed reads its stored value, whose reset value is the table's; or it shows the clocks; or it is FLT_CTRL. -/
theorem registerResetValues : Obligations.RegisterResetValues := by
  intro s lost p hp
  have hKind : (readsStored p.1 = true ∨ p.1 ∈ [0x040000, 0x040008, 0x060014, 0x071000, 0x090100]) ∧ (regReset p.1).toNat = p.2
      ∨ showsClk p.1 = true ∧ clkStatus {} p.1 = p.2
      ∨ p = (0x050000, 0xEC) := by
    revert p
    decide
  rcases hKind with ⟨hStored | hStored, hReset⟩ | ⟨hShown, hReset⟩ | rfl
  · rw [readReg_of_readsStored hStored, rd_moduleReset, hReset]
  · rw [readReg_of_blockStored hStored, rd_moduleReset, hReset]
  · rw [readReg_of_showsClk _ hShown, clkStatus_moduleReset, hReset]
  · rw [readReg_fltCtrl, rd_moduleReset]
    decide

end Sys2Proof.Machine

namespace Sys2Proof.Machine

/-! ### Accesses of the host (R6 to R8, R274, R275, R404, R421, R422) -/

section Accesses
variable (s : State)

theorem exec_bar4Read {off n : Nat} (h : inBar4 s off n = true) :
    exec (.bar4Read off n) s = .next ((bar4Get (n / 65536 + 2) off n s).1.send
      { kind := .tlpAnswer, a := off, b := n, bytes := (bar4Get (n / 65536 + 2) off n s).2 }) := by
  change execBar4Read off n s = _
  simp [execBar4Read, h]

theorem exec_bar4Write {off : Nat} {data : List (Option Byte)} (h : inBar4 s off data.length = true) :
    exec (.bar4Write off data) s = .next (bar4Put (data.length / 65536 + 2) off data s) := by
  change execBar4Write off data s = _
  simp [execBar4Write, h]

theorem badAccess_of_dlUp (hUp : s.link.dlUp = true) (fn off size : Nat) : badAccess s fn off size = logViol s 1 fn 0 off size := by
  simp [badAccess, hUp]

/-- An access that R6 does not accept is logged, whatever it is; a read is answered with zeros too. -/
theorem exec_unalignedBar0Access {f : Fin 64} {off size : Nat} (hUp : s.link.dlUp = true) (hFn : fnExists s f = true)
    (hBad : accessOk s f off size = false) (write : Bool) :
    exec (.unalignedBar0Access f off size write) s = .next (if write then logViol s 1 f 0 off size
      else (logViol s 1 f 0 off size).send { kind := .tlpAnswer, a := off, b := size, bytes := List.replicate size 0 }) := by
  change execUnalignedBar0Access f off size write s = _
  simp [execUnalignedBar0Access, hUp, hFn, hBad, badAccess_of_dlUp]

/-- An aligned write of the physical function outside its MSI-X table is a write of a register of its block. -/
theorem exec_registerWrite_pf {off : Nat} (v : W32) (hOff : off < 2 ^ 24) (hAlign : off % 4 = 0) (hMsix : inMsix 0 off = false)
    (hFn : fnExists s 0 = true) :
    exec (.registerWrite 0 off v) s = regWrite off (if inPba 0 off then id else writeReg off v.toNat) s := by
  change execRegisterWrite 0 off v s = _
  have hInside : ¬ 16777216 ≤ off := by omega
  simp [execRegisterWrite, hFn, hAlign, hMsix, hInside]

/-- An aligned write of a virtual function outside its MSI-X table. -/
theorem exec_registerWrite_vf {f : Fin 64} {off : Nat} (v : W32) (hVf : f.val ≠ 0) (hOff : off < 2 ^ 16) (hAlign : off % 4 = 0)
    (hMsix : inMsix f off = false) (hFn : fnExists s f = true) :
    exec (.registerWrite f off v) s = .next (writeVf f off v.toNat s) := by
  change execRegisterWrite f off v s = _
  have hInside : ¬ 65536 ≤ off := by omega
  simp [execRegisterWrite, hVf, hFn, hAlign, hMsix, hInside]

theorem regWrite_of_blockUp {off : Nat} (eff : State → State) (h : blockUp s off = true) : regWrite off eff s = .next (eff s) := by
  simp [regWrite, h]

theorem regWrite_of_blockDown {off : Nat} (eff : State → State) (hUp : s.link.dlUp = true) (h : blockUp s off = false) :
    regWrite off eff s = .next (logViol s 1 0 0 off 4) := by
  simp [regWrite, h, badAccess_of_dlUp, hUp]

/-- No register of a virtual function is written: VF_ID, VF_FUNC and the PBA are read only, any other offset is refused (R274). -/
theorem writeVf_of_answers {f off v : Nat} (hUp : blockUp s 0 = true) (hSafe : s.flt.safe = false) :
    writeVf f off v s = if off < 8 ∨ inPba f off = true then s else logViol s 2 f 0 off v := by
  simp [writeVf, hUp, hSafe, regRefused]

end Accesses

/-! ### Errors on the link (R269, R286, R288) -/

section LinkErrors
variable (s : State)

/-- An error that AER reports is sent with its severity and header, and logged under its status bit. -/
theorem pcieEvent_reported (req b : Nat) (sev : Byte) (hdr : List Byte) :
    pcieEvent req (some (b, sev)) hdr s = logViol (s.send { kind := .aer, a := req, b := b, bytes := sev :: hdr }) 0x0B 0xFF 4 req b := rfl

/-- One that AER does not report is logged alone. -/
theorem pcieEvent_unreported (req : Nat) (hdr : List Byte) : pcieEvent req none hdr s = logViol s 0x0B 0xFF 4 req 0 := rfl

theorem exec_malformedTlp (x : BadTlp) (hUp : s.link.dlUp = true) :
    exec (.malformedTlp x) s = .next (pcieEvent x.req.toNat (some (18, 2)) x.hdr s) :=
  congrArg _ (if_pos hUp)

theorem exec_poisonedWrite (x : BadTlp) (hUp : s.link.dlUp = true) :
    exec (.poisonedWrite x) s = .next (pcieEvent x.req.toNat (some (12, 1)) x.hdr s) :=
  congrArg _ (if_pos hUp)

theorem exec_unexpectedCompletion (x : BadTlp) (hUp : s.link.dlUp = true) :
    exec (.unexpectedCompletion x) s = .next (pcieEvent x.req.toNat (some (16, 1)) x.hdr s) :=
  congrArg _ (if_pos hUp)

theorem exec_unsupportedRequest (x : BadTlp) (atomic : Bool) (hUp : s.link.dlUp = true) :
    exec (.unsupportedRequest x atomic) s =
      .next ((pcieEvent x.req.toNat (some (20, 2)) x.hdr s).send { kind := .tlpAnswer, a := x.req.toNat, b := 1 }) :=
  congrArg _ (if_pos hUp)

theorem exec_poisonedCompletion (x : BadRead) (hRuns : feRuns s = true) :
    exec (.poisonedCompletion x) s = .next (readError 0x0702 (some (12, 1)) x.hdr x.user s) :=
  congrArg _ (if_pos hRuns)

theorem exec_errorCompletion (u : ReadUser) (hRuns : feRuns s = true) :
    exec (.errorCompletion u) s = .next (readError 0x0702 none [] u s) :=
  congrArg _ (if_pos hRuns)

theorem exec_completionTimeout (u : ReadUser) (hRuns : feRuns s = true) (hOn : s.link.ctoOff = false) :
    exec (.completionTimeout u) s = .next (readError 0x0A01 (some (14, 1)) [] u s) :=
  congrArg _ (if_pos (by rw [hRuns, hOn]; rfl))

theorem exec_ideCheckFailed (k : Fin 8) (x : LostReads) (hUp : s.link.dlUp = true) (hSecure : (ide s k).st = .secure) :
    exec (.ideCheckFailed k x) s =
      let t := logViol ((setIde k { ide s k with st := .insecure } s).send { kind := .aer, a := 0, b := 28, bytes := aerOwn :: x.hdr })
        0x0C 0xFF 4 k 0
      .next (if feRuns s then foldState x.users (failRead 0x0A03) t else t) := by
  change execIdeCheckFailed k x s = _
  simp [execIdeCheckFailed, hUp, hSecure]

/-- L1 is asked for when nothing is outstanding (R269). -/
theorem exec_aspmL1Entry (hUp : s.link.dlUp = true) (hRuns : feRuns s = true)
    (hDescs : s.fe.queues.all (fun e => e.2.descs.isEmpty) = true) (hLaunches : s.fe.launches = []) (hWaits : s.link.waits = [])
    (hPrgs : s.mem.prgs = []) (hHeld : s.link.held = []) : exec .aspmL1Entry s = .next (s.send { kind := .l1 }) := by
  change execAspmL1Entry s = _
  simp only [execAspmL1Entry, hUp, hRuns, hDescs, hLaunches, hWaits, hPrgs, hHeld, List.isEmpty_nil, Bool.and_self, if_true]

end LinkErrors

/-- Settles O21, command by command: each clause is the lemma above about its command, with the shared answer it calls opened once. -/
theorem hostAccessesAndErrors : Obligations.HostAccessesAndErrors := by
  refine ⟨fun s _ _ h => exec_bar4Read s h, fun s _ _ h => exec_bar4Write s h, ?refused, ?pf, ?pfDown, ?vf, ?bus, ?reads,
    fun s k users hdr hUp hSecure => exec_ideCheckFailed s k ⟨users, hdr⟩ hUp hSecure, exec_aspmL1Entry⟩
  case refused =>
    intro s f off size hUp hFn hBad
    exact ⟨exec_unalignedBar0Access s hUp hFn hBad true, exec_unalignedBar0Access s hUp hFn hBad false⟩
  case pf =>
    intro s off v hOff hAlign hMsix hFn hAnswers
    rw [exec_registerWrite_pf s v hOff hAlign hMsix hFn, regWrite_of_blockUp s _ hAnswers]
    split <;> rfl
  case pfDown =>
    intro s off v hOff hAlign hMsix hFn hUp hSilent
    rw [exec_registerWrite_pf s v hOff hAlign hMsix hFn, regWrite_of_blockDown s _ hUp hSilent]
  case vf =>
    intro s f off v hVf hFn hOff hAlign hMsix hAnswers hSafe
    rw [exec_registerWrite_vf s v hVf hOff hAlign hMsix hFn, writeVf_of_answers s hAnswers hSafe]
  case bus =>
    intro s req hdr hUp
    simp only [exec_malformedTlp s _ hUp, exec_poisonedWrite s _ hUp, exec_unexpectedCompletion s _ hUp,
      exec_unsupportedRequest s _ _ hUp, pcieEvent_reported, implies_true, and_self]
  case reads =>
    intro s u hdr hRuns
    refine ⟨?_, ?_, fun hOn => ?_⟩
    · rw [exec_poisonedCompletion s ⟨u, hdr⟩ hRuns, readError, pcieEvent_reported]
    · rw [exec_errorCompletion s u hRuns, readError, pcieEvent_unreported]
    · rw [exec_completionTimeout s u hRuns hOn, readError, pcieEvent_reported]

end Sys2Proof.Machine

end

section
/-! SUPPORT. Proofs about tile-store loads and stores (O36): what each lane's write leaves, folded over the active lanes. -/

namespace Sys2Proof.Machine

/-! ### Bytes of a value and bytes of a tile store -/

@[simp] theorem leBytes_length (n v : Nat) : (leBytes n v).length = n := by
  induction n generalizing v with
  | zero => rfl
  | succ n ih => simp [leBytes, ih]

/-- Byte `i` of a value, least significant first. -/
theorem leBytes_getD {n i : Nat} (v : Nat) (h : i < n) : (leBytes n v).getD i 0 = BitVec.ofNat 8 (v / 256 ^ i) := by
  induction n generalizing v i with
  | zero => omega
  | succ n ih =>
    cases i with
    | zero => simp [leBytes]
    | succ i => rw [leBytes, List.getD_cons_succ, ih _ (by omega), Nat.div_div_eq_div_mul, pow_succ']

/-- Whether the `n` bytes from a lane's address hold byte `a`. -/
def lanePuts (addr : Nat → Nat) (n a lane : Nat) : Bool := decide (addr lane ≤ a) && decide (a < addr lane + n)

/-- Where several lanes write one byte, the last in the list stands (R106). -/
theorem mget_foldl_putBytes (addr val : Nat → Nat) (n a : Nat) (ls : List Nat) (m : Map Byte) :
    mget (ls.foldl (fun m lane => putBytes m (addr lane) (leBytes n (val lane))) m) 0 a =
      (ls.filter (lanePuts addr n a)).getLast?.elim (mget m 0 a) (fun lane => BitVec.ofNat 8 (val lane / 256 ^ (a - addr lane))) := by
  induction ls using List.reverseRecOn with
  | nil => rfl
  | append_singleton ls lane ih =>
    rw [List.foldl_append, List.foldl_cons, List.foldl_nil, mget_putBytes, leBytes_length, List.filter_append]
    by_cases h : addr lane ≤ a ∧ a < addr lane + n
    · have hPuts : lanePuts addr n a lane = true := by simp [lanePuts, h]
      rw [if_pos h, leBytes_getD _ (by omega), List.filter_singleton, hPuts, cond_true, List.getLast?_concat, Option.elim_some]
    · have hPuts : lanePuts addr n a lane = false := by simpa [lanePuts] using h
      rw [if_neg h, ih, List.filter_singleton, hPuts, cond_false, List.append_nil]

/-! ### Registers of a lane -/

/-- A loaded value in its register, or for 8 bytes in a register pair, low word first (R106). -/
def putLane (n d : Nat) (x : Lg) (lane v : Nat) : Lg := if n = 8 then lgSetV64 x d lane v else lgSetV x d lane v

theorem putLane_only (n d : Nat) (x : Lg) (lane v : Nat) : putLane n d x lane v = { x with v := (putLane n d x lane v).v } := by
  unfold putLane
  split <;> rfl

theorem mget_putLane {l lane : Nat} (n d v q : Nat) (x : Lg) (hl : l < 32) (hLane : lane < 32) :
    mget (putLane n d x lane v).v 0 (32 * q + l) =
      if l ≠ lane then mget x.v 0 (32 * q + l)
      else if n = 8 ∧ q = d + 1 then BitVec.ofNat 32 (v / 2 ^ 32)
      else if q = d then BitVec.ofNat 32 v else mget x.v 0 (32 * q + l) := by
  have hKey : ∀ r, (32 * q + l = 32 * r + lane) ↔ q = r ∧ l = lane := by omega
  by_cases hWide : n = 8 <;> by_cases hSame : l = lane <;> simp [putLane, hWide, lgSetV64, lgSetV, mget_mset, hKey, hSame]

theorem foldl_putLane_only (n d : Nat) (f : Nat → Nat) (ls : List Nat) (x : Lg) :
    ls.foldl (fun y lane => putLane n d y lane (f lane)) x = { x with v := (ls.foldl (fun y lane => putLane n d y lane (f lane)) x).v } := by
  induction ls generalizing x with
  | nil => rfl
  | cons lane ls ih =>
    rw [List.foldl_cons, ih, putLane_only]

/-- Loaded values stand in the lanes of the list, and every other register and lane keeps its own. -/
theorem mget_foldl_putLane {l : Nat} (n d q : Nat) (f : Nat → Nat) {ls : List Nat} (x : Lg) (hl : l < 32) (hLs : ∀ lane ∈ ls, lane < 32) :
    mget (ls.foldl (fun y lane => putLane n d y lane (f lane)) x).v 0 (32 * q + l) =
      if l ∉ ls then mget x.v 0 (32 * q + l)
      else if n = 8 ∧ q = d + 1 then BitVec.ofNat 32 (f l / 2 ^ 32)
      else if q = d then BitVec.ofNat 32 (f l) else mget x.v 0 (32 * q + l) := by
  induction ls using List.reverseRecOn with
  | nil => simp
  | append_singleton ls lane ih =>
    rw [List.foldl_append, List.foldl_cons, List.foldl_nil, mget_putLane _ _ _ _ _ hl (hLs lane (by simp)),
      ih (fun k hk => hLs k (by simp [hk]))]
    by_cases hSame : l = lane
    · subst hSame
      simp only [ne_eq, not_true_eq_false, if_false, List.mem_append, List.mem_singleton, or_true]
      split_ifs <;> rfl
    · simp [hSame]

theorem mem_activeLanes {x : Lg} {w : W128} {lane : Nat} : lane ∈ activeLanes x w ↔ lane < 32 ∧ laneOn x w lane = true := by
  simp [activeLanes]

/-! ### The two rows -/

/-- Bytes an access of the row moves in each lane (R106). -/
def tsSize (w : W128) : Nat := 2 ^ field (wMod w) 2 2

/-- What a load reads for a lane. -/
def tsLoaded (s : State) (c : Nat) (x : Lg) (w : W128) (lane : Nat) : Nat :=
  ofLe (tsBytes s c (bitOf (wMod w) 4) (tsAddr x w lane) (tsSize w))

/-- What a store takes from a lane. -/
def tsStored (x : Lg) (w : W128) (lane : Nat) : Nat := if tsSize w = 8 then vsrc64 x w (wC w) lane else vsrc x w (wC w) lane

/-- The registers after a load. -/
def afterLoad (s : State) (c : Nat) (x : Lg) (w : W128) : Lg :=
  (activeLanes x w).foldl (fun y lane => putLane (tsSize w) (wDst w) y lane (tsLoaded s c x w lane)) x

/-- The bytes of a tile store or of the scratch after a store. -/
def afterStore (x : Lg) (w : W128) (m : Map Byte) : Map Byte :=
  (activeLanes x w).foldl (fun m lane => putBytes m (tsAddr x w lane) (leBytes (tsSize w) (tsStored x w lane))) m

section Rows
variable {s : State} {c : Fin 512} {g : Fin 32} {w : W128}

theorem exec_tsLd (h : Issues s c g 5 0 w) (hFree : ownStoreWaits s c g w = false) (hOk : tsCheck s c g w false = none) :
    exec (.tsLd c g w) s = .next (setLg s c g (stepPc (afterLoad s c (getLg s c g) w))) := by
  change execTsLd c g w s = _
  rw [execTsLd, coreRow_next h.1 h.2, hFree, hOk]
  rfl

theorem exec_tsLd_of_forbidden {e : Nat × Nat} (h : Issues s c g 5 0 w) (hFree : ownStoreWaits s c g w = false)
    (hBad : tsCheck s c g w false = some e) : exec (.tsLd c g w) s = .next (coreAbort s c e.1 e.2) := by
  change execTsLd c g w s = _
  rw [execTsLd, coreRow_next h.1 h.2, hFree, hBad]
  rfl

theorem exec_tsLd_waits (h : Issues s c g 5 0 w) (hWaits : ownStoreWaits s c g w = true) : exec (.tsLd c g w) s = .next s := by
  change execTsLd c g w s = _
  rw [execTsLd, coreRow_next h.1 h.2, if_pos hWaits]

theorem exec_tsSt (h : Issues s c g 5 1 w) (hRead : storeBlocked s c g w = false) (hFree : ownStoreWaits s c g w = false)
    (hOk : tsCheck s c g w true = none) :
    exec (.tsSt c g w) s = .next (setLg (if bitOf (wMod w) 4
      then s.setCdc (c / 4) { s.cdc (c / 4) with scratch := afterStore (getLg s c g) w (s.cdc (c / 4)).scratch }
      else s.setCore c { s.core c with ts := afterStore (getLg s c g) w (s.core c).ts }) c g (stepPc (getLg s c g))) := by
  change execTsSt c g w s = _
  rw [execTsSt, coreRow_next h.1 h.2, hRead, hFree, hOk]
  rfl

theorem exec_tsSt_of_forbidden {e : Nat × Nat} (h : Issues s c g 5 1 w) (hRead : storeBlocked s c g w = false)
    (hFree : ownStoreWaits s c g w = false) (hBad : tsCheck s c g w true = some e) :
    exec (.tsSt c g w) s = .next (coreAbort s c e.1 e.2) := by
  change execTsSt c g w s = _
  rw [execTsSt, coreRow_next h.1 h.2, hRead, hFree, hBad]
  rfl

theorem exec_tsSt_waits (h : Issues s c g 5 1 w) (hWaits : storeBlocked s c g w = true ∨ ownStoreWaits s c g w = true) :
    exec (.tsSt c g w) s = .next s := by
  change execTsSt c g w s = _
  rw [execTsSt, coreRow_next h.1 h.2, if_pos (by simpa using hWaits)]

end Rows

/-- The last active lane whose bytes hold byte `a`. -/
def lastPut (x : Lg) (w : W128) (a : Nat) : Option Nat := ((activeLanes x w).filter (lanePuts (tsAddr x w) (tsSize w) a)).getLast?

theorem mget_afterStore (x : Lg) (w : W128) (m : Map Byte) (a : Nat) :
    mget (afterStore x w m) 0 a =
      (lastPut x w a).elim (mget m 0 a) (fun lane => BitVec.ofNat 8 (tsStored x w lane / 256 ^ (a - tsAddr x w lane))) :=
  mget_foldl_putBytes _ _ _ _ _ _

theorem afterLoad_only (s : State) (c : Nat) (x : Lg) (w : W128) : afterLoad s c x w = { x with v := (afterLoad s c x w).v } :=
  foldl_putLane_only _ _ _ _ _

theorem mget_afterLoad (s : State) (c : Nat) (x : Lg) (w : W128) (q : Nat) {lane : Nat} (hLane : lane < 32) :
    mget (afterLoad s c x w).v 0 (32 * q + lane) =
      if laneOn x w lane = false then mget x.v 0 (32 * q + lane)
      else if tsSize w = 8 ∧ q = wDst w + 1 then BitVec.ofNat 32 (tsLoaded s c x w lane / 2 ^ 32)
      else if q = wDst w then BitVec.ofNat 32 (tsLoaded s c x w lane) else mget x.v 0 (32 * q + lane) := by
  have hOff : lane ∉ activeLanes x w ↔ laneOn x w lane = false := by simp [mem_activeLanes, hLane]
  rw [afterLoad, mget_foldl_putLane _ _ _ _ _ hLane (fun k hk => (mem_activeLanes.mp hk).1)]
  simp only [hOff]

/-- Settles O36: a load is its lanes' register writes folded over the active lanes, a store their byte writes; the other outcomes of the
two rows are those of the shared frame of core rows. -/
theorem tileStoreRows : Obligations.TileStoreRows := by
  refine ⟨?load, ?store, fun s c g w e => exec_tsLd_of_forbidden, fun s c g w e => exec_tsSt_of_forbidden,
    fun s c g w => ⟨exec_tsLd_waits, exec_tsSt_waits⟩⟩
  case load =>
    intro s c g w hIssues hFree hOk x n v
    refine ⟨stepPc (afterLoad s c x w), exec_tsLd hIssues hFree hOk, ?_, fun q lane hLane => mget_afterLoad s c x w q hLane⟩
    rw [afterLoad_only]
    rfl
  case store =>
    intro s c g w hIssues hRead hFree hOk x n v scratch old
    refine ⟨afterStore x w old, ?_, fun a => ?_⟩
    · rw [exec_tsSt hIssues hRead hFree hOk]
      cases hScratch : bitOf (wMod w) 4 <;> simp [old, scratch, hScratch, x]
    · rw [mget_afterStore]
      change _ = match lastPut x w a with
        | some lane => BitVec.ofNat 8 (v lane / 256 ^ (a - tsAddr x w lane))
        | none => mget old 0 a
      cases lastPut x w a <;> rfl

end Sys2Proof.Machine
end

section
/-! SUPPORT. Proofs about resets and power states (O18) and about the form of the reset state (O50). -/

namespace Sys2Proof.Machine

/-! ### Copies of the ready map change no power state -/

/-- A write to host memory on behalf of the device lands in a memory or waits among the held records. -/
theorem busWrite_power (s : State) (a : Nat) (bs : List Byte) :
    (busWrite s a bs).pwr = s.pwr ∧ (busWrite s a bs).link.d3hot = s.link.d3hot := by
  rcases busWrite_cases s a bs with e | e <;> rw [e]
  · rw [writePhys_only]
    exact ⟨rfl, rfl⟩
  · exact ⟨rfl, rfl⟩

theorem copyReady_power (s : State) : (copyReady s).pwr = s.pwr ∧ (copyReady s).link.d3hot = s.link.d3hot := by
  unfold copyReady
  split
  · exact ⟨rfl, rfl⟩
  · simp only [busWrite_power, and_self]

theorem clearUnitBits_power (s : State) : (clearUnitBits s).pwr = s.pwr ∧ (clearUnitBits s).link.d3hot = s.link.d3hot := by
  unfold clearUnitBits
  dsimp only
  split
  · exact ⟨rfl, rfl⟩
  · exact copyReady_power _

theorem clearUnitBits_keeps (s : State) : Keeps s (clearUnitBits s) := by
  unfold clearUnitBits
  dsimp only
  split
  · exact .refl s
  · exact (Keeps.same s _).trans (copyReady_keeps _)

/-! ### Commands of reset and power -/

section Commands
variable (s : State)

theorem exec_perstAssert_running (hOn : s.oas.powered = true) (hOasis : s.pwr.dev ≠ .oasis) (hDormant : s.pwr.dev ≠ .dormant) :
    exec .perstAssert s = .next (moduleReset false { s with pwr := { s.pwr with perst := true } }) := by
  change execPerstAssert s = _
  simp [execPerstAssert, hOn, hOasis, hDormant]

theorem exec_perstAssert_dormant (hOn : s.oas.powered = true) (hDormant : s.pwr.dev = .dormant) :
    exec .perstAssert s = .next (enterOasis { s with pwr := { s.pwr with perst := true } }) := by
  change execPerstAssert s = _
  simp [execPerstAssert, hOn, hDormant]

theorem exec_perstDeassert_held (x : Senses) (u : Option Nat) (hPin : s.pwr.perst = true) (hMain : s.pwr.mainPower = true)
    (hOn : s.oas.powered = true) (hHeld : s.pwr.dev = .held) :
    exec (.perstDeassert x u) s = .next (startUp (cisternUpset u (setConns x.a x.b
      { s with pwr := { s.pwr with perst := false }, oas := { s.oas with wakePin := false } }))) := by
  change execPerstDeassert x u s = _
  simp [execPerstDeassert, hPin, hMain, hOn, hHeld]

/-- From OASIS the rising edge of PERST# is a wake, of cause 2 (R357). -/
theorem exec_perstDeassert_oasis (x : Senses) (u : Option Nat) (hPin : s.pwr.perst = true) (hMain : s.pwr.mainPower = true)
    (hOn : s.oas.powered = true) (hOasis : s.pwr.dev = .oasis) :
    exec (.perstDeassert x u) s = .next (startUp (cisternUpset u (setConns x.a x.b
      { s with pwr := { s.pwr with perst := false }, oas := { s.oas with wakePin := false, wakeCause := 2 } }))) := by
  change execPerstDeassert x u s = _
  simp [execPerstDeassert, hPin, hMain, hOn, hOasis, setWake]

theorem exec_mainPowerUp_oasis (x : Senses) (u : Option Nat) (hMain : s.pwr.mainPower = false) (hPin : s.pwr.perst = false)
    (hOn : s.oas.powered = true) (hOasis : s.pwr.dev = .oasis) :
    exec (.mainPowerUp x u) s = .next (startUp (cisternUpset u (setConns x.a x.b
      { s with
        pwr := { s.pwr with mainPower := true }
        clk := { s.clk with xtalGone := false }
        oas := { s.oas with wakeCause := 0 } }))) := by
  change execMainPowerUp x u s = _
  simp [execMainPowerUp, hMain, hPin, hOn, hOasis, setWake]

theorem powerLoss_of_ne_oasis (h : s.pwr.dev ≠ .oasis) :
    powerLoss s = enterOasis { s with pwr := { s.pwr with mainPower := false } } := by
  simp [powerLoss, h]

theorem exec_mainPowerLoss : exec .mainPowerLoss s = .next (powerLoss s) := rfl

theorem exec_thermalTrip (hMain : s.pwr.mainPower = true) : exec .thermalTrip s = .next (powerLoss s) := by
  change execThermalTrip s = _
  rw [execThermalTrip, if_pos hMain]

theorem exec_linkReset {c : Instr} (hUp : linkUp s = true) (hc : c ∈ [Instr.hotReset, .linkDisable, .dlDown]) :
    exec c s = .next (resetStart s) := by
  have hReset : exec c s = .next (if linkUp s then resetStart s else s) := by
    simp only [List.mem_cons, List.not_mem_nil, or_false] at hc
    rcases hc with rfl | rfl | rfl <;> rfl
  rw [hReset, if_pos hUp]

theorem exec_safeExit (hAnswers : blockUp s 0x050000 = true) (hSafe : s.flt.safe = true) : exec .safeExit s = .next (resetStart s) := by
  change execSafeExit s = _
  rw [execSafeExit, regWrite_next hAnswers, safeExitBit, if_pos hSafe]

/-- The state that an entry to D3hot leaves, before the map shows the units that power down. -/
theorem exec_d3hotEntry (h : feRuns s = true) :
    exec .d3hotEntry s = .next (clearUnitBits (sleepRest (cisternSave (sleepUnits (sleepRegions (endAllForSleep s)))))) := by
  change execD3hotEntry s = _
  simp [execD3hotEntry, h]

/-- What DORMANT_EXIT does after D3hot is left and the wake's cause is noted (R358). -/
theorem exec_dormantExit (w : WakeUp) (hDormant : s.pwr.dev = .dormant) (hXtal : s.clk.xtalGone = false)
    (hWake : wakeSource s w.cause = true) :
    exec (.dormantExit w) s =
      let t := { s with
        link := { s.link with d3hot := false }
        clk := { s.clk with mon := 0 }
        pwr := { s.pwr with dev := .up }
        oas := { s.oas with wakeCause := w.cause } }
      .next (sendTripIrq (foldState (List.range 64) resumeFn ((setBlower (restoreFailed (foldState [0, 1] retarget
        (cisternRestore (cisternUpset w.upset (reloadLta (wakeClocks (resetPage t)))))))).send { kind := .frs }))) := by
  change execDormantExit w s = _
  simp [execDormantExit, hDormant, hXtal, hWake, setWake, setDev]

end Commands

/-- Settles O18, clause by clause from the lemma about each command. -/
theorem resetAndPower : Obligations.ResetAndPower := by
  refine ⟨exec_perstAssert_running, exec_perstAssert_dormant, fun s a b => exec_perstDeassert_held s ⟨a, b⟩,
    fun s a b => exec_perstDeassert_oasis s ⟨a, b⟩, fun s a b => exec_mainPowerUp_oasis s ⟨a, b⟩, ?loss,
    fun s hUp c hc => exec_linkReset s hUp hc, exec_safeExit, ?d3hot, fun s cause u => exec_dormantExit s ⟨cause, u⟩⟩
  case loss =>
    intro s h
    rw [exec_mainPowerLoss, powerLoss_of_ne_oasis s h]
    exact ⟨rfl, fun hMain => by rw [exec_thermalTrip s hMain, powerLoss_of_ne_oasis s h]⟩
  case d3hot =>
    intro s h
    refine ⟨_, exec_d3hotEntry s h, ?_⟩
    generalize hAsleep : sleepRest (cisternSave (sleepUnits (sleepRegions (endAllForSleep s)))) = asleep
    obtain ⟨hPwr, hD3hot⟩ := clearUnitBits_power asleep
    rw [hPwr, hD3hot, (clearUnitBits_keeps asleep).oas, ← hAsleep]
    exact ⟨rfl, rfl, rfl⟩

/-- Settles O50: both memories are empty, the ledger is empty with four seed slots, and nothing waits. -/
theorem resetIsInForm : Obligations.ResetIsInForm :=
  ⟨reset_memory_wf, ⟨by decide, by decide⟩, rfl, rfl⟩

end Sys2Proof.Machine
end

section
/-! SUPPORT. Proofs about hardware faults of units, cores and caches (O23). -/

namespace Sys2Proof.Machine

variable (s : State)

/-! ### Units -/

theorem exec_unitHardwareFault_safe (u : HwUnit) (hSafe : s.flt.safe = true) : exec (.unitHardwareFault u) s = .next s := by
  change execUnitHardwareFault u s = _
  rw [execUnitHardwareFault.eq_def, if_pos hSafe]

/-! ### Cores (R96) -/

section Cores
variable (c : Fin 512)

theorem exec_coreEccError_corrected (p : EccPlace) (hSafe : s.flt.safe = false) :
    exec (.coreEccError c true p) s =
      let x := s.rgn (c / 32)
      .next (faultEvent (s.setRgn (c / 32) { x with coreCerr := satInc32 x.coreCerr }) 0 1 c 1 (rgnCtx s (c / 32)) 0) := by
  change execCoreEccError c true p s = _
  simp [execCoreEccError, hSafe]

/-- An uncorrectable error in a register is its launch's. -/
theorem exec_coreEccError_register {l : Nat} {x : Launch} (hSafe : s.flt.safe = false) (hRuns : coreLaunch s c = some (l, x)) :
    exec (.coreEccError c false ⟨false, none⟩) s = .next (dataEnd l x 1 c (c / 4) 0x0401 s) := by
  change execCoreEccError c false ⟨false, none⟩ s = _
  simp [execCoreEccError, hSafe, hRuns]

/-- An uncorrectable error in a tile-store byte that is no launch's work: no launch runs, or a clear met it. -/
theorem exec_coreEccError_unowned {a : Nat} {clearing : Bool} (hSafe : s.flt.safe = false)
    (hUnowned : coreLaunch s c = none ∨ clearing = true) :
    exec (.coreEccError c false ⟨clearing, some a⟩) s =
      let zero := s.setCore c { s.core c with ts := zeroRange (s.core c).ts (a / 8 * 8) 8 }
      .next (match entryAt s (c / 32) a with
        | some e => faultEvent (evictModels (· == e) zero) 1 1 c 2 e.ctx 0
        | none => faultEvent zero 1 1 c 2 noCtx 0) := by
  change execCoreEccError c false ⟨clearing, some a⟩ s = _
  rcases hUnowned with hNone | rfl
  · cases hEntry : entryAt s (c / 32) a <;> simp [execCoreEccError, hSafe, hNone, hEntry]
  · cases hEntry : entryAt s (c / 32) a <;> simp [execCoreEccError, hSafe, hEntry]

end Cores

/-! ### Caches (R169) -/

section Caches
variable (cl : Fin 128) (c : Fin 512)

theorem parityEnd_of_launch {l : Nat} {x : Launch} (d : Nat) (hRuns : coreLaunch s c = some (l, x)) :
    parityEnd cl c d s = dataEnd l x 2 cl cl d s := by
  rw [parityEnd, hRuns]

@[simp] theorem coreLaunch_setCdc (k c : Nat) (x : Cdc) : coreLaunch (s.setCdc k x) c = coreLaunch s c := rfl

theorem exec_cdcParityError_scratch (hSafe : s.flt.safe = false) :
    exec (.cdcParityError cl c .scratch) s = .next (parityEnd cl c 0x0603 s) := by
  change execCdcParityError cl c .scratch s = _
  simp [execCdcParityError, hSafe]

variable {w e lg : Nat} {y : CLine}

/-- The first error in a CLEAN line fills it again from its home. -/
theorem exec_cdcParityError_clean (hSafe : s.flt.safe = false) (hLine : mfind (s.cdc cl).lines (256 * w + e) = some y)
    (hClean : y.dirty = false) (hFirst : (c.val, lg, y.line) ∉ (s.cdc cl).refetch) :
    exec (.cdcParityError cl c (.cleanData w e lg)) s =
      let x := s.cdc cl
      let t := tickLine cl (s.setCdc cl { x with
        lines := mins x.lines (256 * w + e) { y with data := readLine cl s y.home }, refetch := x.refetch ++ [(c.val, lg, y.line)] })
      let g := t.rgn (cl / 8)
      .next (faultEvent (t.setRgn (cl / 8) { g with cdcCerr := satInc32 g.cdcCerr }) 0 2 cl 1 (rgnCtx s (cl / 8)) 0) := by
  change execCdcParityError cl c (.cleanData w e lg) s = _
  simp [execCdcParityError, hSafe, hLine, hClean, hFirst]

/-- An error again, met by the same access, drops the line and ends as one in a DIRTY line. -/
theorem exec_cdcParityError_again (hSafe : s.flt.safe = false) (hLine : mfind (s.cdc cl).lines (256 * w + e) = some y)
    (hClean : y.dirty = false) (hAgain : (c.val, lg, y.line) ∈ (s.cdc cl).refetch) :
    exec (.cdcParityError cl c (.cleanData w e lg)) s =
      .next (parityEnd cl c 0x0601 (s.setCdc cl { s.cdc cl with lines := mdel (s.cdc cl).lines (256 * w + e) })) := by
  change execCdcParityError cl c (.cleanData w e lg) s = _
  simp [execCdcParityError, hSafe, hLine, hClean, hAgain]

end Caches

/-- Settles O23: each clause is the lemma about its command, with the shared end of a launch in error (`dataEnd`) opened by its definition. -/
theorem unitAndCoreErrors : Obligations.UnitAndCoreErrors := by
  refine ⟨?unit, exec_unitHardwareFault_safe, fun s c clearing ts => exec_coreEccError_corrected s c ⟨clearing, ts⟩, ?register, ?tile,
    ?scratch, fun s cl c w e lg y => exec_cdcParityError_clean s cl c, ?again⟩
  case unit =>
    intro s u hSafe
    change execUnitHardwareFault u s = _
    rw [execUnitHardwareFault.eq_def, hSafe]
    cases u <;> rfl
  case register =>
    intro s c l x hSafe hRuns
    exact exec_coreEccError_register s c hSafe hRuns
  case tile =>
    intro s c a clearing hSafe hUnowned
    rw [exec_coreEccError_unowned s c hSafe hUnowned]
    cases entryAt s (c / 32) a <;> rfl
  case scratch =>
    intro s cl c l x hSafe hRuns
    rw [exec_cdcParityError_scratch s cl c hSafe, parityEnd_of_launch s cl c _ hRuns]
    rfl
  case again =>
    intro s cl c w e lg y l x hSafe hLine hClean hAgain hRuns
    rw [exec_cdcParityError_again s cl c hSafe hLine hClean hAgain, parityEnd_of_launch _ cl c _ (by rwa [coreLaunch_setCdc])]
    rfl

end Sys2Proof.Machine
end

section
/-! SUPPORT. Proofs about scrubbing, memory errors and lost stacks (O24). -/

namespace Sys2Proof.Machine

variable (s : State)

theorem exec_frameScrubbed {f : Fin 4718592} (hSafe : s.flt.safe = false) (hScrub : frameAt s f = .scrubbing)
    (hReady : stackReady s (stackOf f) = true) :
    exec (.frameScrubbed f) s = .next (settleStacks (countHub 65536
      (setFrame { s with devMem := zeroRange s.devMem (f * 65536) 65536 } f .free))) := by
  change execFrameScrubbed f s = _
  simp [execFrameScrubbed, hSafe, hScrub, hReady]

theorem exec_memCorrectedError (k : Fin 8) (hSafe : s.flt.safe = false) :
    exec (.memCorrectedError k) s =
      .next (faultEvent (setStack s k { stackAt s k with cerr := satInc32 (stackAt s k).cerr }) 0 4 k 1 noCtx 0) := by
  change execMemCorrectedError k s = _
  simp [execMemCorrectedError, hSafe]

/-- An uncorrectable error counts, marks its frame, ends its user's work, and is recorded for the frame's owner (R174). -/
theorem exec_memUncorrectableError (f : Fin 4718592) (u : MemUser) (hSafe : s.flt.safe = false)
    (hReady : stackReady s (stackOf f) = true) :
    exec (.memUncorrectableError f u) s =
      let k := stackOf f
      let s1 := setStack s k { stackAt s k with uerr := satInc32 (stackAt s k).uerr }
      let s2 := { s1 with mem := { s1.mem with marked := if s1.mem.marked.contains f then s1.mem.marked else f :: s1.mem.marked } }
      let e := endMemUser u s2
      let s4 := if frameAt e.1 f == .scrubbing || frameAt e.1 f == .free then setFrame e.1 f .retired else e.1
      .next (settleStacks (faultEvent s4 1 4 k 2 ((frameOwner s f).getD noCtx) e.2)) := by
  change execMemUncorrectableError f u s = _
  rw [execMemUncorrectableError, hSafe, hReady]
  rfl

theorem exec_stackFailure (k : Fin 8) (hSafe : s.flt.safe = false) (hReady : stackReady s k = true) :
    exec (.stackFailure k) s = .next (failStack k s) := by
  change execStackFailure k s = _
  simp [execStackFailure, hSafe, hReady]

/-! ### Rebuilding a mirror (R178) -/

/-- The FREE frames of a die that a rebuild may take. -/
def mirrorFree (s : State) (die : Nat) : List Nat :=
  mkeys s.mem.frames (fun f x => x == .free && !inReserved s f && stackOf f / 4 == die && stackReady s (stackOf f))

/-- The state once a rebuild has reserved its frames. -/
def mirrorPlaced (s : State) (die : Nat) : State :=
  foldState ((mirrorFree s die).take (mget s.mem.mirrorNeed 0 die)) (fun f a => setFrame a f .reserved) s

/-- Reserving frames leaves what is missing of the mirrors as it was. -/
theorem mirrorPlaced_mirrors (die : Nat) :
    (mirrorPlaced s die).mem.mirrorMissing = s.mem.mirrorMissing ∧ (mirrorPlaced s die).mem.mirrorNeed = s.mem.mirrorNeed :=
  foldState_keeps (P := fun a => a.mem.mirrorMissing = s.mem.mirrorMissing ∧ a.mem.mirrorNeed = s.mem.mirrorNeed)
    (fun _ _ _ h => h) ⟨rfl, rfl⟩

theorem exec_mirrorRebuildDone (die : Fin 2) (hSafe : s.flt.safe = false) (hMissing : s.mem.mirrorMissing.contains die.val = true)
    (hRoom : mget s.mem.mirrorNeed 0 die ≤ (mirrorFree s die).length) :
    exec (.mirrorRebuildDone die) s =
      let t := mirrorPlaced s die
      let left := t.mem.mirrorMissing.filter (· != die.val)
      .next { t with mem := { t.mem with
        mirrorMissing := left, mirrorNeed := mdel t.mem.mirrorNeed die, mirrorLost := t.mem.mirrorLost && !left.isEmpty } } := by
  change execMirrorRebuildDone die s = _
  rw [execMirrorRebuildDone, hSafe, hMissing]
  exact if_neg (Nat.not_lt.mpr hRoom)

/-- Settles O24, clause by clause from the lemma about each event. -/
theorem memoryEvents : Obligations.MemoryEvents := by
  refine ⟨fun s frame => exec_frameScrubbed s, fun s k => exec_memCorrectedError s k,
    fun s frame u => exec_memUncorrectableError s frame u, fun s k => exec_stackFailure s k, ?mirror,
    fun s die entry => ⟨rfl, rfl⟩, fun s k above => rfl⟩
  case mirror =>
    intro s die hSafe hMissing free hRoom
    obtain ⟨hSameMissing, hSameNeed⟩ := mirrorPlaced_mirrors s die
    refine ⟨_, exec_mirrorRebuildDone s die hSafe hMissing hRoom, ?_, ?_⟩
    · exact congrArg (List.filter (· != die.val)) hSameMissing
    · exact congrArg (mdel · die.val) hSameNeed

end Sys2Proof.Machine
end

section
/-! SUPPORT. Proofs about the front-end and clock settings (O11): what each settings write takes, and what it refuses. -/

namespace Sys2Proof.Machine

variable {s : State}

/-- A settings write whose block answers leaves what its rule gives. -/
theorem regWrite_eq_next {off : Nat} {eff : State → State} {t : State} (hUp : blockUp s off = true) (h : eff s = t) :
    regWrite off eff s = .next t := by
  rw [regWrite_next hUp, h]

/-! ### The residency area (R258, R265) -/

theorem mget_of_not_mem_keys {α : Type} {m : Map α} {d : α} {k : Nat} (h : k ∉ mkeys m (fun _ _ => true)) : mget m d k = d := by
  induction m with
  | nil => rfl
  | cons e r ih =>
    obtain ⟨a, b⟩ := e
    simp only [mkeys, List.filter_true, List.map_cons, List.mem_cons, not_or] at h ih
    rw [mget, if_neg (Ne.symm h.1), ih h.2]

/-- A change of one core at a time that says nothing new when it is made twice is made once on each core of the list. -/
theorem core_foldState_setCore {f : Core → Core} (hTwice : ∀ x, f (f x) = f x) (cs : List Nat) (s : State) (c : Nat) :
    (foldState cs (fun k a => a.setCore k (f (a.core k))) s).core c = if c ∈ cs then f (s.core c) else s.core c := by
  induction cs generalizing s with
  | nil => rfl
  | cons k cs ih =>
    rw [foldState_cons, ih, core_setCore]
    by_cases hHere : c = k
    · subst hHere
      simp [hTwice]
    · simp [hHere]

/-- The tile store of a core with every byte at and above `top` zero. -/
def cutAbove (top : Nat) (x : Core) : Core := { x with ts := x.ts.filter (fun e => decide (e.1 < top)) }

theorem cutAbove_twice (top : Nat) (x : Core) : cutAbove top (cutAbove top x) = cutAbove top x := by
  simp [cutAbove]

theorem zeroArea_core (s : State) (c : Nat) : (zeroArea s).core c = cutAbove (usableTop s) (s.core c) := by
  change (foldState _ (fun k a => a.setCore k (cutAbove (usableTop s) (a.core k))) s).core c = _
  rw [core_foldState_setCore (cutAbove_twice _)]
  split_ifs with hKept
  · rfl
  · rw [State.core, mget_of_not_mem_keys hKept]
    rfl

/-! ### Front-end settings (R55, R57, R67, R244, R265) -/

variable {v : Nat}

theorem writeGroups_of_idle (h : lcIdle s = true) :
    writeGroups v s = (let t := wr s 0x010404 (setField (field v 0 16) 0 1 1); { t with fe := { t.fe with lostGroups := [] } }) :=
  if_pos h

theorem writeGroups_of_busy (h : lcIdle s = false) : writeGroups v s = logViol s 2 0 0 0x010404 v :=
  if_neg (by simp [h])

theorem writeAdmCtrl_of_allowed (h : bitOf v 0 = false ∨ clocksShort s = false) : writeAdmCtrl v s = wr s 0x010400 (v &&& 0xFF01) :=
  if_neg (by rcases h with h | h <;> simp [h])

theorem writeAdmCtrl_of_short (hEnables : bitOf v 0 = true) (hShort : clocksShort s = true) :
    writeAdmCtrl v s = logViol s 2 0 0 0x010400 v :=
  if_pos (by rw [hEnables, hShort]; rfl)

theorem writeResCtrl_of_free (h : residencyFree s = true) : writeResCtrl v s = zeroArea (wr s 0x010604 (field v 0 7)) := if_pos h

theorem writeResCtrl_of_held (h : residencyFree s = false) : writeResCtrl v s = logViol s 2 0 0 0x010604 v :=
  if_neg (by simp [h])

/-! ### The admin queue (R244) -/

theorem writeAdminCtrl_starts (hOff : bitOf (rd s 0x118) 0 = false) (hMin : 4 ≤ field v 8 5) (hMax : field v 8 5 ≤ 20) :
    writeAdminCtrl v s = startAdmin (wr s 0x118 (v &&& 0x07FF1F01)) := by
  have hSize : ¬ (field v 8 5 < 4 ∨ 20 < field v 8 5) := by omega
  simp [writeAdminCtrl, hOff, hSize]

/-- A size out of range leaves ENABLE clear. -/
theorem writeAdminCtrl_badSize (hOff : bitOf (rd s 0x118) 0 = false) (hSize : field v 8 5 < 4 ∨ 20 < field v 8 5) :
    writeAdminCtrl v s = startAdmin (wr s 0x118 (setField (v &&& 0x07FF1F01) 0 1 0)) := by
  simp [writeAdminCtrl, hOff, hSize]

theorem writeAdminCtrl_stops (hOn : bitOf (rd s 0x118) 0 = true) (hClear : bitOf v 0 = false) :
    writeAdminCtrl v s = stopAdmin (wr s 0x118 (setField (rd s 0x118) 0 1 0)) := by
  simp [writeAdminCtrl, hOn, hClear]

theorem writeAdminCtrl_keeps (hOn : bitOf (rd s 0x118) 0 = true) (hSet : bitOf v 0 = true) : writeAdminCtrl v s = s := by
  simp [writeAdminCtrl, hOn, hSet]

/-! ### Clock settings (R346, R353) -/

theorem writeCoreCtrl_of_allowed {die : Nat} (h : 2200 ≤ 25 * clampN 16 104 (field v 0 7) ∨ lcIdle s = true) :
    writeCoreCtrl die v s = retarget die (wr s (0x030010 + 4 * die) (v &&& 0x7F7F)) :=
  if_neg (by
    rcases h with hMax | hIdle
    · simp [Nat.not_lt.mpr hMax]
    · simp [hIdle])

theorem writeCoreCtrl_of_slow {die : Nat} (hMax : 25 * clampN 16 104 (field v 0 7) < 2200) (hBusy : lcIdle s = false) :
    writeCoreCtrl die v s = logViol s 2 0 0 (0x030010 + 4 * die) v :=
  if_pos (by simp [hMax, hBusy])

theorem writeFabCtrl_of_idle (h : lcIdle s = true) : writeFabCtrl v s = wr s 0x030020 (v &&& 0x7F7F) := if_pos h

theorem writeFabCtrl_of_busy (h : lcIdle s = false) : writeFabCtrl v s = logViol s 2 0 0 0x030020 v :=
  if_neg (by simp [h])

theorem writeFeCtrl_of_allowed (hIdle : lcIdle s = true) (hDiv : v % 4 ≠ 3) : writeFeCtrl v s = wr s 0x030024 (v % 4) :=
  if_pos (by simp [hIdle, hDiv])

theorem writeFeCtrl_of_refused (h : lcIdle s = false ∨ v % 4 = 3) : writeFeCtrl v s = logViol s 2 0 0 0x030024 v :=
  if_neg (by rcases h with h | h <;> simp [h])

/-- A write of CLK_SRC names a reserved source. -/
def clkReserved (v : Nat) : Bool := (List.range 11).any (fun k => field v (2 * k) 2 == 3) || field v 16 2 == 2

/-- The domains that a write of CLK_SRC switches: those whose source differs, and those that stand. -/
def clkSwitched (s : State) (v : Nat) : List Nat :=
  (List.range 11).filter (fun k => field v (2 * k) 2 != clkCur s k || s.clk.stopped.contains k)

theorem mem_clkSwitched {k : Nat} :
    k ∈ clkSwitched s v ↔ k < 11 ∧ (field v (2 * k) 2 ≠ clkCur s k ∨ s.clk.stopped.contains k = true) := by
  simp [clkSwitched]

/-- Every domain that a write of CLK_SRC switches may have its new source. -/
def clkSourcesOk (s : State) (v : Nat) : Bool := (clkSwitched s v).all (fun k => sourceOk s k (field v (2 * k) 2))

theorem writeClkSrc_eq : writeClkSrc v s =
    if (s.clk.switching || clkReserved v || !clkSourcesOk s v) = true then
      logViol { s with clk := { s.clk with mon := setField s.clk.mon 5 1 1 } } 2 0 0 0x030000 v
    else
      let t := foldState (clkSwitched s v) (fun k a => setSrc (field v (2 * k) 2) k a) { s with clk := { s.clk with sel := field v 0 22 } }
      if xtalSet.any (fun k => clkCur t k == 1 || t.clk.stopped.contains k) then t else endEmergency 3 t := rfl

theorem clkReserved_of_field {k : Nat} (hK : k < 11) (h : field v (2 * k) 2 = 3) : clkReserved v = true := by
  rw [clkReserved, Bool.or_eq_true]
  exact .inl (List.any_eq_true.mpr ⟨k, List.mem_range.mpr hK, beq_iff_eq.mpr h⟩)

theorem clkSourcesOk_iff : clkSourcesOk s v = true ↔ ∀ k, k < 11 →
    (field v (2 * k) 2 ≠ clkCur s k ∨ s.clk.stopped.contains k = true) → sourceOk s k (field v (2 * k) 2) = true := by
  simp only [clkSourcesOk, List.all_eq_true, mem_clkSwitched, and_imp]

theorem clkReserved_eq_false (hSix : field v 16 2 ≠ 2) (h : ∀ k, k < 11 → field v (2 * k) 2 ≠ 3) : clkReserved v = false := by
  simpa [clkReserved, hSix] using h

/-- A write of CLK_SRC is refused whole while a switch is under way, or when it names a reserved source or, for a domain whose source it
changes, one that does not run. -/
theorem writeClkSrc_of_refused (h : s.clk.switching = true ∨ field v 16 2 = 2
      ∨ ∃ k, k < 11 ∧ (field v (2 * k) 2 = 3 ∨ (field v (2 * k) 2 ≠ clkCur s k ∧ sourceOk s k (field v (2 * k) 2) = false))) :
    writeClkSrc v s = logViol { s with clk := { s.clk with mon := setField s.clk.mon 5 1 1 } } 2 0 0 0x030000 v := by
  rw [writeClkSrc_eq, if_pos]
  rcases h with hSwitching | hSix | ⟨k, hK, hThree | ⟨hNew, hDead⟩⟩
  · simp [hSwitching]
  · simp [clkReserved, hSix]
  · simp [clkReserved_of_field hK hThree]
  · have hNotOk : clkSourcesOk s v = false := by
      rw [Bool.eq_false_iff]
      intro hOk
      exact absurd (clkSourcesOk_iff.mp hOk k hK (.inl hNew)) (by simp [hDead])
    simp [hNotOk]

theorem writeClkSrc_of_sources (hFree : s.clk.switching = false) (hSix : field v 16 2 ≠ 2)
    (h : ∀ k, k < 11 → field v (2 * k) 2 ≠ 3 ∧
      (field v (2 * k) 2 ≠ clkCur s k ∨ s.clk.stopped.contains k = true → sourceOk s k (field v (2 * k) 2) = true)) :
    writeClkSrc v s =
      let t := foldState (clkSwitched s v) (fun k a => setSrc (field v (2 * k) 2) k a) { s with clk := { s.clk with sel := field v 0 22 } }
      if xtalSet.any (fun k => clkCur t k == 1 || t.clk.stopped.contains k) then t else endEmergency 3 t := by
  have hKnown : clkReserved v = false := clkReserved_eq_false hSix (fun k hK => (h k hK).1)
  have hOk : clkSourcesOk s v = true := clkSourcesOk_iff.mpr (fun k hK => (h k hK).2)
  rw [writeClkSrc_eq, if_neg (by simp [hFree, hKnown, hOk])]

/-- Settles O11: each clause is a branch of its register's write rule, once the register's block answers. -/
theorem frontEndAndClockSettings : Obligations.FrontEndAndClockSettings :=
  ⟨fun _ _ hUp hIdle => regWrite_eq_next hUp (writeGroups_of_idle hIdle),
    fun _ _ hUp hBusy => regWrite_eq_next hUp (writeGroups_of_busy hBusy),
    fun _ _ hUp h => regWrite_eq_next hUp (writeAdmCtrl_of_allowed h),
    fun _ _ hUp hEnables hShort => regWrite_eq_next hUp (writeAdmCtrl_of_short hEnables hShort),
    fun _ _ hUp hFree => regWrite_eq_next hUp (writeResCtrl_of_free hFree),
    fun s c => zeroArea_core s c,
    fun _ _ hUp hHeld => regWrite_eq_next hUp (writeResCtrl_of_held hHeld),
    fun _ _ hUp => regWrite_next hUp,
    fun _ _ hUp hOff hMin hMax => regWrite_eq_next hUp (writeAdminCtrl_starts hOff hMin hMax),
    fun _ _ hUp hOn hClear => regWrite_eq_next hUp (writeAdminCtrl_stops hOn hClear),
    fun _ _ hUp => regWrite_next hUp,
    fun _ _ hUp => regWrite_next hUp,
    fun _ _ _ hUp h => regWrite_eq_next hUp (writeCoreCtrl_of_allowed h),
    fun _ _ _ hUp hMax hBusy => regWrite_eq_next hUp (writeCoreCtrl_of_slow hMax hBusy),
    fun _ _ hUp hIdle => regWrite_eq_next hUp (writeFabCtrl_of_idle hIdle),
    fun _ _ hUp hBusy => regWrite_eq_next hUp (writeFabCtrl_of_busy hBusy),
    fun _ _ hUp hIdle hDiv => regWrite_eq_next hUp (writeFeCtrl_of_allowed hIdle hDiv),
    fun _ _ hUp h => regWrite_eq_next hUp (writeFeCtrl_of_refused h),
    fun _ _ hUp h => regWrite_eq_next hUp (writeClkSrc_of_refused h),
    fun _ _ hUp hFree hSix h => regWrite_eq_next hUp (writeClkSrc_of_sources hFree hSix h),
    fun _ _ hUp hOn hSet => regWrite_eq_next hUp (writeAdminCtrl_keeps hOn hSet),
    fun _ _ hUp hOff hSize => regWrite_eq_next hUp (writeAdminCtrl_badSize hOff hSize)⟩

end Sys2Proof.Machine
end

section
/-! SUPPORT. Proofs about regions that leave, join and nap (O9). -/

namespace Sys2Proof.Machine

variable {s : State}

/-! ### Commands of software (R61, R262) -/

section Software
variable {v r : Nat}

theorem drainRegion_of_inService (h : (s.rgn r).st = .inService) :
    drainRegion v r s = settleDraining (yieldBe r (setRgnState r .draining s)) :=
  if_pos (beq_iff_eq.mpr h)

theorem forceOut_of_serving (h : (s.rgn r).st = .inService ∨ (s.rgn r).st = .draining) :
    forceOut v r s = settleDraining (yieldBe r (setRgnState r .draining (forcedLoss r s))) :=
  if_pos (by simpa using h)

theorem returnRegion_of_out (h : (s.rgn r).st = .out) :
    returnRegion v r s = (let t := setRgnState r .testing (resetRegion r s); t.setRgn r { t.rgn r with returning := true }) :=
  if_pos (beq_iff_eq.mpr h)

end Software

/-! ### The power-up check (R33, R262) -/

section SelfTest
variable {r : Fin 16} (hSafe : s.flt.safe = false) (hTesting : (s.rgn r).st = .testing) (hDev : s.pwr.dev = .starting ∨ s.pwr.dev = .up)
include hSafe hTesting hDev

/-- A check that reports is taken while the region tests and the device starts or is up. -/
theorem exec_regionSelfTestDone (bad : BitVec 8) (unitFailed : Bool) :
    exec (.regionSelfTestDone r bad unitFailed) s =
      if bad = 0 ∧ unitFailed = false then .next (barStarted r (setRgnState r .inService s))
      else
        let t := foldState ((List.range 8).filter (fun k => bad.getLsbD k)) (fun k a => faultEvent a 2 2 (8 * r + k) 3 0xFFFF 0) s
        .next (regionFail r (if unitFailed then faultEvent t 2 3 r 1 0xFFFF 0 else t)) := by
  change execRegionSelfTestDone r bad unitFailed s = _
  rcases hDev with hDev | hDev <;> simp [execRegionSelfTestDone, hSafe, hTesting, hDev]

theorem exec_regionSelfTestDone_passed :
    exec (.regionSelfTestDone r 0 false) s = .next (barStarted r (setRgnState r .inService s)) := by
  rw [exec_regionSelfTestDone hSafe hTesting hDev, if_pos ⟨rfl, rfl⟩]

/-- Each cluster that failed has a record of its own, and the region is FAILED. -/
theorem exec_regionSelfTestDone_failed {bad : BitVec 8} (hBad : bad ≠ 0) :
    exec (.regionSelfTestDone r bad false) s =
      .next (regionFail r (foldState ((List.range 8).filter (fun k => bad.getLsbD k)) (fun k a => faultEvent a 2 2 (8 * r + k) 3 0xFFFF 0) s)) := by
  rw [exec_regionSelfTestDone hSafe hTesting hDev, if_neg (fun h => hBad h.1)]
  rfl

end SelfTest

/-! ### NAP (R356) -/

theorem exec_regionNap {r : Fin 16} (hRuns : feRuns s = true) (hOn : bitOf (rd s 0x040008) 0 = true)
    (hIdle : (s.rgn r).idleSince + 1024 * field (rd s 0x040008) 8 16 ≤ s.now) (hSt : (s.rgn r).st = .inService)
    (hAwake : (s.rgn r).napping = false) (hNoLaunch : (s.rgn r).launch = none)
    (hUnplaced : s.fe.launches.any (fun p => isAdmitted p.2 && p.2.regions.contains r.val) = false) :
    exec (.regionNap r) s =
      let s2 := foldState (coresOf r) (fun c a => a.setCore c { ts := (a.core c).ts }) (rgnFlush r s)
      let s3 := foldState (cdcsOf r) (fun k a => a.setCdc k {}) s2
      .next (setMap (12 + r) 0 (s3.setRgn r { s.rgn r with napping := true, sems := [] })) := by
  change execRegionNap r s = _
  have hNotEarly : ¬ s.now < (s.rgn r).idleSince + 1024 * field (rd s 0x040008) 8 16 := by omega
  rw [execRegionNap, if_neg (by simp only [hRuns, hOn, hNotEarly, hSt, hAwake, hNoLaunch, hUnplaced]; decide)]

theorem exec_napExit {r : Fin 16} (hSafe : s.flt.safe = false) (hNapping : (s.rgn r).napping = true) (hNeeded : needsRegion s r = true) :
    exec (.napExit r) s = .next (setMap (12 + r) 1 (s.setRgn r { s.rgn r with napping := false, idleSince := s.now })) := by
  change execNapExit r s = _
  rw [execNapExit, if_neg (by simp [hSafe, hNapping, hNeeded])]

/-- Settles O9: the commands of software are writes of a register of the FE block, and the others are the lemmas above. -/
theorem regionCommands : Obligations.RegionCommands :=
  ⟨fun _ _ hUp hSt => regWrite_eq_next hUp (drainRegion_of_inService hSt),
    fun _ _ hUp hSt => regWrite_eq_next hUp (forceOut_of_serving hSt),
    fun _ _ hUp hSt => regWrite_eq_next hUp (returnRegion_of_out hSt),
    fun _ _ hSafe hTesting hDev => exec_regionSelfTestDone_passed hSafe hTesting hDev,
    fun _ _ _ hSafe hTesting hDev hBad => exec_regionSelfTestDone_failed hSafe hTesting hDev hBad,
    fun _ _ hRuns hOn hIdle hSt hAwake hNoLaunch hUnplaced => exec_regionNap hRuns hOn hIdle hSt hAwake hNoLaunch hUnplaced,
    fun _ _ hSafe hNapping hNeeded => exec_napExit hSafe hNapping hNeeded⟩

end Sys2Proof.Machine
end

section
/-! SUPPORT. Proofs about launches cut short (O8). -/

namespace Sys2Proof.Machine

variable {s : State} {l : Nat} {x : Launch}

/-- The watch of R62 is over once the time since the step's stamp exceeds its limit, what is excluded aside. -/
theorem stepLate_iff {p : Plan} : stepLate s x p = true ↔
    feOf (stepOf p x.step).wcet + (stepOf p x.step).unplanned * 1120 + 1600 + x.excl + flightExcess s x p < s.now - x.stepStamp :=
  decide_eq_true_iff

theorem exec_stepOverrun {p : Plan} (hLaunch : s.launch? l = some x) (hPlan : s.planOf x.ver = some p) (hSafe : s.flt.safe = false)
    (hAdmitted : isAdmitted x = true) (hPhase : x.phase = .running ∨ x.phase = .yielding) (hExcused : x.excused = false)
    (hExcess : x.excess = 0) (hBoundary : atBoundary s x = false) (hLate : stepLate s x p = true) :
    exec (.stepOverrun l) s =
      .next (foldState x.regions (fun r a => regionFail r (faultEvent a 2 3 r 2 0xFFFF 0 true)) (countBreach x 5 0x0B05 (endLaunch l 5 0x0B05 s))) := by
  change execStepOverrun l s = _
  rcases hPhase with hPhase | hPhase <;>
    simp [execStepOverrun, hLaunch, hPlan, hSafe, hAdmitted, hPhase, hExcused, hExcess, hBoundary, hLate]

section HardStop
variable {r : Fin 16} (hAt : launchAt s r = some (l, x)) (hSafe : s.flt.safe = false)
include hAt hSafe

theorem exec_hardStop_asked {st d : Nat} (hStop : x.stop = some (st, d)) : exec (.hardStop r) s = .next (endLaunch l st d s) := by
  change execHardStop r s = _
  simp [execHardStop, hAt, hSafe, hStop]

/-- A yield that waits on a page request ends its launch with STATUS 5 (R193). -/
theorem exec_hardStop_pageWait (hStop : x.stop = none) (hPhase : x.phase = .yielding) (hBe : isBeRun x = true)
    (hWaits : s.link.waits.any (fun w => w.user == userLaunch l) = true) :
    exec (.hardStop r) s = .next (faultEvent (endLaunch l 5 0x0701 s) 0 7 0 2 x.ctx (endInfo x 5 0x0701)) := by
  change execHardStop r s = _
  simp only [execHardStop, hAt, hSafe, hStop, hPhase, hBe, hWaits]
  rfl

end HardStop

/-- Settles O8, clause by clause from the lemma about each command. -/
theorem launchesCutShort : Obligations.LaunchesCutShort :=
  ⟨fun _ _ _ _ hLaunch hPlan hSafe hAdmitted hPhase hExcused hExcess hBoundary hLate =>
      exec_stepOverrun hLaunch hPlan hSafe hAdmitted (.inl hPhase) hExcused hExcess hBoundary (stepLate_iff.mpr hLate),
    fun _ _ _ _ _ _ hAt hSafe hStop => exec_hardStop_asked hAt hSafe hStop,
    fun _ _ _ _ hAt hSafe hStop hPhase hBe hWaits => exec_hardStop_pageWait hAt hSafe hStop hPhase hBe hWaits⟩

end Sys2Proof.Machine
end

section
/-! SUPPORT. Proofs about the turns of launches and the points they pass (O7). -/

namespace Sys2Proof.Machine

variable {s : State} {l : Nat} {x : Launch} {p : Plan}

/-! ### Turns (R55, R247, R248, R250) -/

section Turn
variable {r : Fin 16} (hHead : edfHead s (groupOf s r) = some (l, x)) (hSafe : s.flt.safe = false) (hWaits : waits x = true)
include hHead hSafe hWaits

/-- The head of a group's turn starts with nothing in its way, and otherwise asks what is there to yield. -/
theorem exec_lcStart : exec (.lcStart r) s =
    if inTheWay s (groupOf s r) l x = [] then .next ((placeLaunch s l x.regions).getD s)
    else .next (foldState (inTheWay s (groupOf s r) l x) askYield s) := by
  change execLcStart r s = _
  simp [execLcStart, hHead, hSafe, hWaits]

theorem exec_lcStart_free {t : State} (hFree : inTheWay s (groupOf s r) l x = []) (hPlaced : placeLaunch s l x.regions = some t) :
    exec (.lcStart r) s = .next t := by
  rw [exec_lcStart hHead hSafe hWaits, if_pos hFree, hPlaced, Option.getD_some]

theorem exec_lcStart_blocked (hBlocked : inTheWay s (groupOf s r) l x ≠ []) :
    exec (.lcStart r) s = .next (foldState (inTheWay s (groupOf s r) l x) askYield s) := by
  rw [exec_lcStart hHead hSafe hWaits, if_neg hBlocked]

end Turn

theorem exec_beStart (hSafe : s.flt.safe = false) :
    exec .beStart s =
      let s1 := foldState (beList s) (fun p a => tryBe p.1 a) s
      .next (foldState (beList s1) (fun p a => tryDisplace p.1 a) s1) := by
  change execBeStart s = _
  rw [execBeStart, hSafe]
  rfl

/-- SLICE of FE_BE_SLICE is the low 24 bits of its register. -/
theorem beSlice_eq (s : State) : beSlice s = rd s 0x010600 % 2 ^ 24 := rfl

theorem exec_beSliceExpiry (hLaunch : s.launch? l = some x) (hSafe : s.flt.safe = false) (hSlice : beSlice s ≠ 0) (hBe : isBeRun x = true)
    (hPhase : x.phase = .running) :
    exec (.beSliceExpiry l) s =
      let s1 := s.setLaunch l { x with sliceOver := true }
      .next (foldState (beList s1) (fun p a => tryDisplace p.1 a) s1) := by
  change execBeSliceExpiry l s = _
  simp [execBeSliceExpiry, hLaunch, hSafe, hSlice, hBe, hPhase]

/-! ### Slip points (R118, R252) -/

section Slip
variable {r : Fin 16} {j : Nat} (hAt : launchAt s r = some (l, x)) (hPlan : s.planOf x.ver = some p) (hSlip : regionSlip s r = some j)
  (hSafe : s.flt.safe = false) (hReached : slipReached s p x r j = true) (hHeld : (s.rgn r).held = none) (hStop : x.stop = none)
  (hSems : semsZero s r = true) (hRuns : rgnRuns s r = true)
include hAt hPlan hSlip hSafe hReached hHeld hStop hSems hRuns

/-- A region passes its slip point, and is held there when its launch yields and no other region of it is past the point. -/
theorem exec_slipPoint (hPhase : x.phase = .running ∨ x.phase = .yielding) :
    exec (.slipPoint r) s = .next (slipRegion p l x j r (x.phase == .yielding
      && (x.regions.filter (· != r.val)).all (fun k => decide ((s.rgn k).passed ≤ j) || (s.rgn k).held == some j)) s) := by
  change execSlipPoint r s = _
  rcases hPhase with hPhase | hPhase <;>
    simp [execSlipPoint, hAt, hPlan, hSlip, hSafe, hReached, hHeld, hStop, hSems, hRuns, hPhase]

theorem exec_slipPoint_running (hPhase : x.phase = .running) : exec (.slipPoint r) s = .next (slipRegion p l x j r false s) := by
  rw [exec_slipPoint hAt hPlan hSlip hSafe hReached hHeld hStop hSems hRuns (.inl hPhase), hPhase]
  rfl

/-- A launch of one region that yields is held at the point. -/
theorem exec_slipPoint_yielding (hPhase : x.phase = .yielding) (hAlone : x.regions = [r.val]) :
    exec (.slipPoint r) s = .next (slipRegion p l x j r true s) := by
  rw [exec_slipPoint hAt hPlan hSlip hSafe hReached hHeld hStop hSems hRuns (.inr hPhase), hPhase, hAlone]
  simp

end Slip

/-! ### Saves, restores and step ends (R119, R252, R253, R260, R303) -/

section Points
variable (hLaunch : s.launch? l = some x) (hPlan : s.planOf x.ver = some p) (hSafe : s.flt.safe = false)
include hLaunch hPlan hSafe

theorem exec_saveComplete (hPhase : x.phase = .yielding) (hReady : x.regions.all (readyToSave s p x) = true) (hLost : x.lostUnits = 0)
    (hRuns : x.regions.all (rgnRuns s) = true) (hPool : poolRuns s = true) :
    exec (.saveComplete l) s =
      let saved := x.regions.flatMap (saveRegion s p x)
      let gs := if x.point == .graphics then x.regions.map (gfxOf s) else []
      let s1 := foldState x.regions (fun r a =>
        freeRegion x.ctx r (wipeRegion r (countRgnBytes r (savedBytes (saved.filter (fun e => e.rel == (s.rgn r).rel))) a))) s
      let s2 := tickCross (x.regions.all (fun r => coreRatio s (r / 8))) (savedBytes saved)
        (foldState x.regions (fun r a => a.setRgn r { a.rgn r with clear := true }) s1)
      .next (settleDraining (s2.setLaunch l { x with
        phase := .displaced, saved := saved, savedOn := stripeStacks x.unitsAt (savedBytes saved), gsaved := gs
        marks := x.regions.map (markOf s), leftAt := s.now })) := by
  change execSaveComplete l s = _
  simp only [execSaveComplete, hLaunch, hPlan, hSafe, hPhase, hReady, hLost, hRuns, hPool]
  rfl

theorem exec_restore (hPhase : x.phase = .restoring) (hRuns : x.regions.all (rgnRuns s) = true) (hPool : poolRuns s = true) :
    exec (.restore l) s =
      .next (resumeLaunch l x p (putSaved x (foldState x.regions.zipIdx (fun e a =>
        countRgnBytes e.1 (savedBytes (x.saved.filter (fun k => k.rel == e.2))) a) s))) := by
  change execRestore l s = _
  simp only [execRestore, hLaunch, hPlan, hSafe, hPhase, hRuns, hPool]
  rfl

theorem exec_stepEnd (hPhase : x.phase = .running ∨ x.phase = .yielding)
    (hFinished : x.regions.all (fun r => (s.rgn r).held == none && rgnRuns s r && regionFinished s x r) = true) (hStop : x.stop = none)
    (hSems : x.regions.all (semsZero s) = true) :
    exec (.stepEnd l) s =
      let s1 := foldState x.regions reportStep (settleFrames (foldState x.regions rgnFlush s))
      .next (if p.steps.length ≤ x.step + 1 then completeLaunch l x s1
        else if x.phase = .yielding then
          (foldState x.regions (fun r a => a.setRgn r { a.rgn r with held := some 0 }) s1).setLaunch l
            { x with step := x.step + 1, point := .boundary }
        else beginStep l (s1.setLaunch l { x with step := x.step + 1, point := .boundary })) := by
  change execStepEnd l s = _
  have hNoSems : x.regions.find? (fun r => !semsZero s r) = none := by simpa using hSems
  have hStands : (x.phase == .running || x.phase == .yielding) = true := by simpa using hPhase
  simp only [execStepEnd, hLaunch, hPlan, hSafe, hStands, hFinished, hStop, hNoSems]
  simp only [Bool.not_true, Bool.or_self, Bool.false_eq_true, if_false]
  split_ifs <;> rfl

theorem exec_crossModuleStepStart {t : State} (hPhase : x.phase = .peerWait) (hStop : x.stop = none)
    (hCame : (p.waits.filter (fun w => w.step == x.step)).foldl (takeWait x) (some s) = some t) :
    exec (.crossModuleStepStart l) s =
      let late := s.now - x.stepStamp - feOf (listMax ((p.waits.filter (fun w => w.step == x.step)).map (·.budget)))
      .next (t.setLaunch l { x with phase := .running, excl := x.excl + late, breach := if late ≠ 0 ∧ x.breach = 0 then 6 else x.breach }) := by
  change execCrossModuleStepStart l s = _
  simp [execCrossModuleStepStart, hLaunch, hPlan, hSafe, hPhase, hStop, hCame]

end Points

/-! ### Model loads (R260) -/

/-- A launch with one model that is not loaded yet loads it, then starts or is restored unless the load ended it. -/
theorem exec_modelLoadComplete {c : Ctx} {m : ModelRec} {y : ResEntry} (hLaunch : s.launch? l = some x) (hSafe : s.flt.safe = false)
    (hPhase : x.phase = .loading) (hCtx : s.ctx? x.ctx = some c) (hModels : modelsOf s x = [m])
    (hEntry : resFind s x.ctx m x.regions = some y) (hUnloaded : y.loaded = false) :
    exec (.modelLoadComplete l none) s =
      let s1 := loadNext l x c m none s
      .next (match s1.launch? l with
        | none => s1
        | some z => if z.phase != .loading || !modelsLoaded s1 z then s1
          else if z.started = 0 then beginStep l s1 else s1.setLaunch l { z with phase := .restoring }) := by
  change execModelLoadComplete l none s = _
  have hGoes : (s.flt.safe || x.phase != .loading) = false := by simp [hSafe, hPhase]
  simp only [execModelLoadComplete, hLaunch, hGoes, hCtx, hModels, List.find?_cons, hEntry, hUnloaded, Bool.not_false,
    Bool.false_eq_true, if_false]
  cases (loadNext l x c m none s).launch? l with
  | none => rfl
  | some z =>
    dsimp only
    split_ifs <;> rfl

/-- Settles O7, clause by clause from the lemma about each command. -/
theorem launchTurnsAndPoints : Obligations.LaunchTurnsAndPoints :=
  ⟨fun _ _ _ _ _ hHead hSafe hWaits hFree hPlaced => exec_lcStart_free hHead hSafe hWaits hFree hPlaced,
    fun _ _ _ _ hHead hSafe hWaits hBlocked => exec_lcStart_blocked hHead hSafe hWaits hBlocked,
    fun _ hSafe => exec_beStart hSafe,
    fun s _ _ hLaunch hSafe hSlice hBe hPhase => exec_beSliceExpiry hLaunch hSafe (beSlice_eq s ▸ hSlice) hBe hPhase,
    fun _ _ _ _ _ _ hAt hPlan hSlip hSafe hReached hHeld hPhase hStop hSems hRuns =>
      exec_slipPoint_running hAt hPlan hSlip hSafe hReached hHeld hStop hSems hRuns hPhase,
    fun _ _ _ _ _ _ hAt hPlan hSlip hSafe hReached hHeld hPhase hStop hSems hAlone hRuns =>
      exec_slipPoint_yielding hAt hPlan hSlip hSafe hReached hHeld hStop hSems hRuns hPhase hAlone,
    fun _ _ _ _ hLaunch hPlan hSafe hPhase hReady hLost hRuns hPool =>
      exec_saveComplete hLaunch hPlan hSafe hPhase hReady hLost hRuns hPool,
    fun _ _ _ _ hLaunch hPlan hSafe hPhase hRuns hPool => exec_restore hLaunch hPlan hSafe hPhase hRuns hPool,
    fun _ _ _ _ hLaunch hPlan hSafe hPhase hFinished hStop hSems => exec_stepEnd hLaunch hPlan hSafe hPhase hFinished hStop hSems,
    fun _ _ _ _ _ hLaunch hPlan hSafe hPhase hStop hCame => exec_crossModuleStepStart hLaunch hPlan hSafe hPhase hStop hCame,
    fun _ _ _ _ _ _ hLaunch hSafe hPhase hCtx hModels hEntry hUnloaded =>
      exec_modelLoadComplete hLaunch hSafe hPhase hCtx hModels hEntry hUnloaded⟩

end Sys2Proof.Machine
end

section
/-! SUPPORT. Proofs about the vector rows (O34, O35): a row's lanes, its predicate bits, and the integer functions of VALU as functions of
bit vectors. -/

namespace Sys2Proof.Machine

/-! ### Signed readings and fields as bit vectors -/

theorem signed_toNat {n : Nat} (x : BitVec n) : signed n x.toNat = x.toInt := by
  rw [signed, Nat.mod_eq_of_lt x.isLt, BitVec.toInt_eq_toNat_cond]
  norm_cast

theorem ofNat_unsignedOf (n : Nat) (v : Int) : BitVec.ofNat n (unsignedOf n v) = BitVec.ofInt n v :=
  BitVec.eq_of_toNat_eq (by
    have hPos : (0 : Int) < ((2 ^ n : Nat) : Int) := by positivity
    have hLt : unsignedOf n v < 2 ^ n := (Int.toNat_lt' (by positivity)).mpr (Int.emod_lt_of_pos _ hPos)
    rw [BitVec.toNat_ofNat, Nat.mod_eq_of_lt hLt, BitVec.toNat_ofInt, unsignedOf])

theorem ofInt_sub {n : Nat} (u v : Int) : BitVec.ofInt n (u - v) = BitVec.ofInt n u - BitVec.ofInt n v := by
  rw [Int.sub_eq_add_neg, BitVec.ofInt_add, BitVec.ofInt_neg, BitVec.sub_eq_add_neg]

theorem field_toNat (x : BitVec 32) (lo len : Nat) : field x.toNat lo len = (x.extractLsb' lo len).toNat := by
  rw [field, BitVec.extractLsb'_toNat, Nat.shiftRight_eq_div_pow]

theorem satI_eq (n : Nat) (v : Int) : satI n v = max (-((2 ^ (n - 1) : Nat) : Int)) (min (((2 ^ (n - 1) : Nat) : Int) - 1) v) := by
  have hPos : 0 < 2 ^ (n - 1) := by positivity
  simp only [satI]
  split_ifs <;> omega

theorem satI_32 (v : Int) : satI 32 v = max (-2147483648) (min 2147483647 v) := by
  rw [satI_eq]
  norm_num

theorem satI_8 (v : Int) : satI 8 v = max (-128) (min 127 v) := by
  rw [satI_eq]
  norm_num

theorem shiftI_neg (v : Int) (n : Nat) : shiftI v (-(n : Int)) = v / ((2 ^ n : Nat) : Int) := by
  cases n with
  | zero => simp [shiftI]
  | succ n => simp [shiftI, show ¬ (0 : Int) ≤ -1 + -(n : Int) by omega]

theorem ofInt_shiftI_neg (a : BitVec 32) (n : Nat) : BitVec.ofInt 32 (shiftI a.toInt (-(n : Int))) = a.sshiftRight n := by
  rw [shiftI_neg, BitVec.sshiftRight, Int.shiftRight_eq_div_pow]

/-! ### Bits of a predicate -/

/-- Replacing bit `l` leaves the other bits (R425). -/
theorem testBit_setField_one (n l j : Nat) (v : Bool) : (setField n l 1 (b2n v)).testBit j = if j = l then v else n.testBit j := by
  have hSplit : 2 ^ l * (n / 2 ^ l) + n % 2 ^ l = n := Nat.div_add_mod n (2 ^ l)
  have hSet : setField n l 1 (b2n v) = 2 ^ l * (2 * (n / 2 ^ l / 2) + b2n v) + n % 2 ^ l := by
    have hBit : 2 ^ l * (n / 2 ^ l) = 2 ^ l * (2 * (n / 2 ^ l / 2)) + n / 2 ^ l % 2 * 2 ^ l := by
      rw [Nat.mul_comm (n / 2 ^ l % 2), ← Nat.mul_add, Nat.div_add_mod]
    have hOne : b2n v % 2 ^ 1 = b2n v := by cases v <;> rfl
    rw [setField, field, hOne, Nat.mul_add, Nat.mul_comm (b2n v), pow_one]
    omega
  have hLow : n % 2 ^ l < 2 ^ l := Nat.mod_lt _ (by positivity)
  rw [hSet, Nat.testBit_two_pow_mul_add _ hLow]
  conv_rhs => rw [← hSplit, Nat.testBit_two_pow_mul_add _ hLow]
  rcases Nat.lt_trichotomy j l with hBelow | rfl | hAbove
  · rw [if_pos hBelow, if_neg hBelow.ne, if_pos hBelow]
  · cases v <;> simp [b2n]
  · obtain ⟨k, rfl⟩ := Nat.exists_eq_add_of_lt hAbove
    have hHalf : (2 * (n / 2 ^ l / 2) + b2n v) / 2 = n / 2 ^ l / 2 := by cases v <;> simp [b2n]; omega
    rw [if_neg (by omega), if_neg (by omega), if_neg (by omega), show l + k + 1 - l = k + 1 by omega, Nat.testBit_succ, Nat.testBit_succ,
      hHalf]

/-- Setting the bits of a list of lanes. -/
theorem getLsbD_foldl_setField {l : Nat} (f : Nat → Bool) (ls : List Nat) (m : W32) (hl : l < 32) :
    (ls.foldl (fun m lane => BitVec.ofNat 32 (setField m.toNat lane 1 (b2n (f lane)))) m).getLsbD l =
      if l ∈ ls then f l else m.getLsbD l := by
  induction ls using List.reverseRecOn with
  | nil => simp
  | append_singleton ls lane ih =>
    rw [List.foldl_append, List.foldl_cons, List.foldl_nil, BitVec.getLsbD_ofNat, testBit_setField_one, ← BitVec.getLsbD, ih]
    by_cases hSame : l = lane
    · simp [← hSame, hl]
    · simp [hSame, hl]

/-- A predicate result: the counter advances and the active lanes' bits of the destination take their values. -/
theorem mapPred_wrote (x : Lg) (w : W128) (p : Nat) (f : Nat → Bool) : WrotePred x (stepPc (mapPred x w p f)) w p f := by
  constructor
  · unfold stepPc mapPred lgSetP
    split <;> rfl
  · intro r lane hLane
    change (lgP (mapPred x w p f) r).getLsbD lane = _
    by_cases hOnes : r = 7
    · rw [if_pos hOnes, lgP, if_pos hOnes, show (0xFFFFFFFF#32) = BitVec.allOnes 32 from rfl, BitVec.getLsbD_allOnes, decide_eq_true hLane]
    · rw [if_neg hOnes]
      by_cases hSeven : p = 7
      · rw [mapPred, lgSetP, if_pos hSeven, if_neg (by omega)]
      · rw [mapPred, lgSetP, if_neg hSeven, lgP, if_neg hOnes, mget_mset]
        by_cases hDst : r = p
        · rw [if_pos hDst, getLsbD_foldl_setField _ _ _ hLane, hDst]
          simp [mem_activeLanes, hLane]
        · rw [if_neg hDst, if_neg (by simp [hDst]), lgP, if_neg hOnes]

/-! ### Results in the active lanes -/

theorem WroteLanes.congr {x y : Lg} {w : W128} {d : Nat} {f f' : Nat → BitVec 32} (h : WroteLanes x y w d f)
    (hf : ∀ lane, lane < 32 → f lane = f' lane) : WroteLanes x y w d f' := by
  obtain ⟨hRest, hLanes⟩ := h
  exact ⟨hRest, fun r lane hLane => by rw [hLanes r lane hLane, hf lane hLane]⟩

@[simp] theorem laneFlags_zero (x : Lg) (w : W128) : laneFlags x w (fun _ => 0) = 0 := by
  simp [laneFlags]

/-- A source of a lane is a 32-bit word. -/
theorem toNat_src32 (x : Lg) (w : W128) (code : Nat) {lane : Nat} (hLane : lane < 32) :
    (src32 x w code lane).toNat = vsrc x w code lane := by
  have hWord : vsrc x w code lane < 2 ^ 32 := by
    unfold vsrc
    split_ifs
    · exact BitVec.isLt _
    · exact Nat.mod_lt _ (by norm_num)
    · omega
    · exact Nat.mod_lt _ (by norm_num)
    · norm_num
  rw [src32, BitVec.toNat_ofNat, Nat.mod_eq_of_lt hWord]

section Rows
variable {s : State} {c : Fin 512} {g : Fin 32} {w : W128} {cls op : Nat}

/-- A row that writes one vector register. -/
theorem lgRow_wroteLanes (h : Issues s c g cls op w) (d : Nat) (val : Lg → Nat → Nat) (fl : Lg → AFlags) :
    ∃ y, lgRow cls op (fun x => (mapLanes x w d (val x), fl x)) c g w s = .next (setLg (coreFlags s c (fl (getLg s c g))) c g y)
      ∧ WroteLanes (getLg s c g) y w d (fun lane => BitVec.ofNat 32 (val (getLg s c g) lane)) :=
  ⟨_, lgRow_next h.1 h.2, mapLanes_wrote _ _ _ _⟩

/-- A vector row: a function of the three sources of each active lane, with its flags. -/
def vectorRow (cls op : Nat) (f : Nat → Nat → Nat → Nat × AFlags) (c g : Nat) (w : W128) (s : State) : Result :=
  lgRow cls op (fun x =>
    let r := fun lane => f (vsrc x w (wA w) lane) (vsrc x w (wB w) lane) (vsrc x w (wC w) lane)
    (mapLanes x w (wDst w) (fun lane => (r lane).1), laneFlags x w (fun lane => (r lane).2))) c g w s

theorem valuRow_eq_vectorRow (f : Nat → Nat → Nat → Nat × AFlags) : valuRow op f c g w s = vectorRow 2 op f c g w s := rfl

theorem vectorRow_wroteLanes (h : Issues s c g cls op w) (f : Nat → Nat → Nat → Nat × AFlags) :
    let x := getLg s c g
    let r := fun lane => f (vsrc x w (wA w) lane) (vsrc x w (wB w) lane) (vsrc x w (wC w) lane)
    ∃ y, vectorRow cls op f c g w s = .next (setLg (coreFlags s c (laneFlags x w (fun lane => (r lane).2))) c g y) ∧
      WroteLanes x y w (wDst w) (fun lane => BitVec.ofNat 32 (r lane).1) :=
  lgRow_wroteLanes h _ (fun x lane => (f (vsrc x w (wA w) lane) (vsrc x w (wB w) lane) (vsrc x w (wC w) lane)).1) _

/-- A row of VALU that raises no flag. -/
theorem valuRow_wroteLanes (h : Issues s c g 2 op w) (f : Nat → Nat → Nat → Nat) :
    let x := getLg s c g
    ∃ y, valuRow op (fun a b d => (f a b d, 0)) c g w s = .next (setLg (coreFlags s c 0) c g y) ∧
      WroteLanes x y w (wDst w)
        (fun lane => BitVec.ofNat 32 (f (vsrc x w (wA w) lane) (vsrc x w (wB w) lane) (vsrc x w (wC w) lane))) := by
  have hRow := vectorRow_wroteLanes h (fun a b d => (f a b d, 0))
  rw [← valuRow_eq_vectorRow] at hRow
  simpa only [laneFlags_zero] using hRow

/-- A row that writes one predicate. -/
theorem predRow_wrotePred (h : Issues s c g 2 op w) (f : Nat → Nat → Bool × AFlags) :
    let x := getLg s c g
    let r := fun lane => f (vsrc x w (wA w) lane) (vsrc x w (wB w) lane)
    ∃ y, predRow op f c g w s = .next (setLg (coreFlags s c (laneFlags x w (fun lane => (r lane).2))) c g y) ∧
      WrotePred x y w (wDst w - 0x50) (fun lane => (r lane).1) :=
  ⟨_, lgRow_next h.1 h.2, mapPred_wrote _ _ _ _⟩

end Rows

/-! ### Integer rows (R89, R103) -/

/-- The row raises no flag, and its result is the function `r` of its three sources as bit vectors. -/
def ComputesWord (i : CoreRow) (op : Nat) (r : BitVec 32 → BitVec 32 → BitVec 32 → BitVec 32) : Prop :=
  ∃ f : Nat → Nat → Nat → Nat, (∀ c g w s, exec (i c g w) s = valuRow op (fun a b d => (f a b d, 0)) c g w s) ∧
    ∀ a b d : BitVec 32, BitVec.ofNat 32 (f a.toNat b.toNat d.toNat) = r a b d

/-- An integer row computes `r` where its integer result does, modulo 2^32. -/
theorem computesWord_of_intRow {i : CoreRow} {op : Nat} {r : BitVec 32 → BitVec 32 → BitVec 32 → BitVec 32} {f : Nat → Nat → Int}
    (hExec : ∀ c g w s, exec (i c g w) s = intRow op f c g w s) (h : ∀ a b d : BitVec 32, BitVec.ofInt 32 (f a.toNat b.toNat) = r a b d) :
    ComputesWord i op r :=
  ⟨fun a b _ => unsignedOf 32 (f a b), hExec, fun a b d => (ofNat_unsignedOf _ _).trans (h a b d)⟩

theorem ofInt_not (a : BitVec 32) : BitVec.ofInt 32 ((4294967295 : Int) - a.toNat) = ~~~a :=
  BitVec.eq_of_toNat_eq (by
    rw [BitVec.toNat_ofInt, BitVec.toNat_not]
    omega)

theorem ofNat_shl (a b : BitVec 32) : BitVec.ofNat 32 (a.toNat * 2 ^ (b.toNat % 32)) = a <<< (b.toNat % 32) :=
  BitVec.eq_of_toNat_eq (by rw [BitVec.toNat_ofNat, BitVec.toNat_shiftLeft, Nat.shiftLeft_eq])

theorem ofNat_shr (a b : BitVec 32) : BitVec.ofNat 32 (a.toNat / 2 ^ (b.toNat % 32)) = a >>> (b.toNat % 32) := by
  rw [← Nat.shiftRight_eq_div_pow, ← BitVec.toNat_ushiftRight, BitVec.ofNat_toNat, BitVec.setWidth_eq]

theorem intRows_compute : ∀ e ∈ intRows, ComputesWord e.1 e.2.1 e.2.2 := by
  have hNat : ∀ n : Nat, BitVec.ofInt 32 (n : Int) = BitVec.ofNat 32 n := BitVec.ofInt_natCast 32
  have hSelf : ∀ a : BitVec 32, BitVec.ofNat 32 a.toNat = a := fun a => by simp
  simp only [intRows, List.forall_mem_cons, List.not_mem_nil, false_imp_iff, implies_true, and_true]
  refine ⟨?iadd, ?isub, ?imul, ?imulhi, ?imulhu, ?iadds, ?isubs, ?shl, ?shr, ?sar, ?and, ?or, ?xor, ?not, ?idot4, ?mov⟩
  case iadd =>
    refine computesWord_of_intRow (f := fun a b => (a + b : Nat)) (fun _ _ _ _ => rfl) fun a b _ => ?_
    rw [hNat, BitVec.ofNat_add, hSelf, hSelf]
  case isub =>
    refine computesWord_of_intRow (f := fun a b => (a : Int) - b) (fun _ _ _ _ => rfl) fun a b _ => ?_
    rw [ofInt_sub, hNat, hNat, hSelf, hSelf]
  case imul =>
    refine computesWord_of_intRow (f := fun a b => (a * b : Nat)) (fun _ _ _ _ => rfl) fun a b _ => ?_
    rw [hNat, BitVec.ofNat_mul, hSelf, hSelf]
  case imulhi =>
    refine computesWord_of_intRow (f := fun a b => signed 32 a * signed 32 b / 4294967296) (fun _ _ _ _ => rfl) fun a b _ => ?_
    rw [signed_toNat, signed_toNat]
  case imulhu => exact computesWord_of_intRow (f := fun a b => (a * b / 2 ^ 32 : Nat)) (fun _ _ _ _ => rfl) fun a b _ => hNat _
  case iadds =>
    refine computesWord_of_intRow (f := fun a b => satI 32 (signed 32 a + signed 32 b)) (fun _ _ _ _ => rfl) fun a b _ => ?_
    rw [satI_32, signed_toNat, signed_toNat]
  case isubs =>
    refine computesWord_of_intRow (f := fun a b => satI 32 (signed 32 a - signed 32 b)) (fun _ _ _ _ => rfl) fun a b _ => ?_
    rw [satI_32, signed_toNat, signed_toNat]
  case shl =>
    exact computesWord_of_intRow (f := fun a b => (a * 2 ^ (b % 32) : Nat)) (fun _ _ _ _ => rfl) fun a b _ => (hNat _).trans (ofNat_shl a b)
  case shr =>
    exact computesWord_of_intRow (f := fun a b => (a / 2 ^ (b % 32) : Nat)) (fun _ _ _ _ => rfl) fun a b _ => (hNat _).trans (ofNat_shr a b)
  case sar =>
    refine computesWord_of_intRow (f := fun a b => shiftI (signed 32 a) (-((b % 32 : Nat) : Int))) (fun _ _ _ _ => rfl) fun a b _ => ?_
    rw [signed_toNat, ofInt_shiftI_neg]
  case and =>
    refine computesWord_of_intRow (f := fun a b => (a &&& b : Nat)) (fun _ _ _ _ => rfl) fun a b _ => ?_
    rw [hNat, BitVec.ofNat_and, hSelf, hSelf]
  case or =>
    refine computesWord_of_intRow (f := fun a b => (a ||| b : Nat)) (fun _ _ _ _ => rfl) fun a b _ => ?_
    rw [hNat, BitVec.ofNat_or, hSelf, hSelf]
  case xor =>
    refine computesWord_of_intRow (f := fun a b => (a ^^^ b : Nat)) (fun _ _ _ _ => rfl) fun a b _ => ?_
    rw [hNat, BitVec.ofNat_xor, hSelf, hSelf]
  case not => exact computesWord_of_intRow (f := fun a _ => (4294967295 : Int) - a) (fun _ _ _ _ => rfl) fun a _ _ => ofInt_not a
  case idot4 => exact ⟨dot4, fun _ _ _ _ => rfl, fun _ _ _ => rfl⟩
  case mov => exact ⟨fun a _ _ => a, fun _ _ _ _ => rfl, fun a _ _ => hSelf a⟩

/-! ### Packed bytes (R103) -/

/-- Byte `k` of a packed result: the function of the sources' bytes. -/
def packedByte (f : Int → Int → Int) (a b : BitVec 32) (k : Nat) : BitVec 8 :=
  BitVec.ofInt 8 (f (a.extractLsb' (8 * k) 8).toInt (b.extractLsb' (8 * k) 8).toInt)

theorem packed4_toNat (f : Int → Int → Int) (a b : BitVec 32) :
    packed4 f a.toNat b.toNat = (List.range 4).foldl (fun r k => r + (packedByte f a b k).toNat * 2 ^ (8 * k)) 0 := by
  simp only [packed4, packedByte, field_toNat, signed_toNat, BitVec.toNat_ofInt, unsignedOf]

/-- The bytes of four packed bytes. -/
theorem extract_bytes (u : Nat → BitVec 8) {k : Nat} (hk : k < 4) :
    (BitVec.ofNat 32 ((List.range 4).foldl (fun r k => r + (u k).toNat * 2 ^ (8 * k)) 0)).extractLsb' (8 * k) 8 = u k := by
  have hSum : (List.range 4).foldl (fun r k => r + (u k).toNat * 2 ^ (8 * k)) 0
      = 0 + (u 0).toNat * 2 ^ (8 * 0) + (u 1).toNat * 2 ^ (8 * 1) + (u 2).toNat * 2 ^ (8 * 2) + (u 3).toNat * 2 ^ (8 * 3) := by
    rw [show List.range 4 = [0, 1, 2, 3] from rfl, List.foldl_cons, List.foldl_cons, List.foldl_cons, List.foldl_cons, List.foldl_nil]
  have h0 := (u 0).isLt
  have h1 := (u 1).isLt
  have h2 := (u 2).isLt
  have h3 := (u 3).isLt
  refine BitVec.eq_of_toNat_eq ?_
  rw [BitVec.extractLsb'_toNat, BitVec.toNat_ofNat, Nat.shiftRight_eq_div_pow, hSum]
  interval_cases k <;> omega

/-- Each byte of a packed result is the function of the sources' bytes. -/
theorem extract_packed4 (f : Int → Int → Int) (a b : BitVec 32) {k : Nat} (hk : k < 4) :
    (BitVec.ofNat 32 (packed4 f a.toNat b.toNat)).extractLsb' (8 * k) 8 = packedByte f a b k := by
  rw [packed4_toNat, extract_bytes _ hk]

/-- The row raises no flag, and each byte of its result is the function `r` of the sources' bytes. -/
def ComputesBytes (i : CoreRow) (op : Nat) (r : BitVec 8 → BitVec 8 → BitVec 8) : Prop :=
  ∃ f : Int → Int → Int, (∀ c g w s, exec (i c g w) s = valuRow op (fun a b _ => (packed4 f a b, 0)) c g w s) ∧
    ∀ a b : BitVec 8, BitVec.ofInt 8 (f a.toInt b.toInt) = r a b

theorem byteRows_compute : ∀ e ∈ byteRows, ComputesBytes e.1 e.2.1 e.2.2 := by
  simp only [byteRows, List.forall_mem_cons, List.not_mem_nil, false_imp_iff, implies_true, and_true]
  refine ⟨?iadd4, ?isub4, ?iadds4, ?isubs4⟩
  case iadd4 =>
    refine ⟨fun x y => x + y, fun _ _ _ _ => rfl, fun a b => (BitVec.ofInt_add _ _).trans ?_⟩
    rw [BitVec.ofInt_toInt, BitVec.ofInt_toInt]
  case isub4 =>
    refine ⟨fun x y => x - y, fun _ _ _ _ => rfl, fun a b => (ofInt_sub _ _).trans ?_⟩
    rw [BitVec.ofInt_toInt, BitVec.ofInt_toInt]
  case iadds4 => exact ⟨fun x y => satI 8 (x + y), fun _ _ _ _ => rfl, fun _ _ => congrArg _ (satI_8 _)⟩
  case isubs4 => exact ⟨fun x y => satI 8 (x - y), fun _ _ _ _ => rfl, fun _ _ => congrArg _ (satI_8 _)⟩

/-! ### Compares and floating rows -/

theorem exec_predRows : ∀ e ∈ predRows, ∀ c g w s, exec (e.1 c g w) s = predRow e.2.1 (e.2.2 w) c g w s := by
  intro e he
  fin_cases he <;> exact fun _ _ _ _ => rfl

theorem exec_floatRows : ∀ e ∈ floatRows, ∀ c g w s, exec (e.1 c g w) s = vectorRow e.2.1 e.2.2.1 e.2.2.2 c g w s := by
  intro e he
  fin_cases he <;> exact fun _ _ _ _ => rfl

/-! ### Conversions (R83 to R87) -/

/-- What CVT gives a lane, with its flags (R83 to R86). -/
def cvtLane (x : Lg) (w : W128) (lane : Nat) : Nat × AFlags :=
  let i := cvtIn (wMod w % 32) (vsrc x w (wA w) lane) (vsrc x w (wB w) lane)
  let o := encodeVal (wFmt w) (bitOf (wMod w) 5) .rne i.1
  (o.1, i.2 ||| seenFlags [i.1] ||| o.2)

theorem exec_vcvtCvt (c : Fin 512) (g : Fin 32) (w : W128) (s : State) :
    exec (.vcvtCvt c g w) s = lgRow 4 0 (fun x =>
      (mapLanes x w (wDst w) (fun lane => (cvtLane x w lane).1), laneFlags x w (fun lane => (cvtLane x w lane).2))) c g w s := rfl

/-- What CVTMX gives the active lanes as one block: codes, scale and flags (R87). -/
def cvtmxBlock (x : Lg) (w : W128) : List Nat × Nat × AFlags := encodeMx (wFmt w) (cvtmxVals x w)

/-- The registers after CVTMX. -/
def afterCvtmx (x : Lg) (w : W128) : Lg :=
  mapLanes (mapLanes x w (wDst w) (fun lane => (cvtmxBlock x w).1.getD lane 0)) w (wDst w + 1) (fun _ => (cvtmxBlock x w).2.1)

theorem exec_vcvtCvtmx {s : State} {c : Fin 512} {g : Fin 32} {w : W128} (h : Issues s c g 4 1 w) :
    let x := getLg s c g
    exec (.vcvtCvtmx c g w) s = .next (setLg (coreFlags s c ((cvtmxBlock x w).2.2 ||| seenFlags ((cvtmxVals x w).map (·.1)))) c g
      (stepPc (afterCvtmx x w))) := by
  change execVcvtCvtmx c g w s = _
  rw [execVcvtCvtmx, lgRow_next h.1 h.2]
  rfl

theorem mapLanes_only (x : Lg) (w : W128) (d : Nat) (f : Nat → Nat) : mapLanes x w d f = { x with v := (mapLanes x w d f).v } :=
  (foldl_lgSetV f d (activeLanes x w) x).1

theorem laneOn_mapLanes (x : Lg) (w u : W128) (d : Nat) (f : Nat → Nat) : laneOn (mapLanes x w d f) u = laneOn x u := by
  rw [mapLanes_only]
  rfl

theorem mget_mapLanes (x : Lg) (w : W128) (d : Nat) (f : Nat → Nat) (q : Nat) {lane : Nat} (hLane : lane < 32) :
    mget (mapLanes x w d f).v 0 (32 * q + lane) =
      if q = d ∧ laneOn x w lane = true then BitVec.ofNat 32 (f lane) else mget x.v 0 (32 * q + lane) :=
  (mapLanes_wrote x w d f).2 q lane hLane

/-- Two vector registers after one another: in an active lane the later write stands. -/
theorem mget_mapLanes_mapLanes (x : Lg) (w : W128) (d e : Nat) (f h : Nat → Nat) (q : Nat) {lane : Nat} (hLane : lane < 32) :
    mget (mapLanes (mapLanes x w d f) w e h).v 0 (32 * q + lane) =
      if laneOn x w lane = false then mget x.v 0 (32 * q + lane)
      else if q = e then BitVec.ofNat 32 (h lane) else if q = d then BitVec.ofNat 32 (f lane) else mget x.v 0 (32 * q + lane) := by
  rw [mget_mapLanes _ _ _ _ _ hLane, mget_mapLanes _ _ _ _ _ hLane, laneOn_mapLanes]
  cases laneOn x w lane <;> simp

theorem afterCvtmx_only (x : Lg) (w : W128) : afterCvtmx x w = { x with v := (afterCvtmx x w).v } := by
  rw [afterCvtmx, mapLanes_only, mapLanes_only x]

/-- Settles O34: a row of a table is a row of VALU whose function on numbers is the table's function on bit vectors; the other rows write
their lanes as they stand. -/
theorem integerAndCompareRows : Obligations.IntegerAndCompareRows := by
  refine ⟨?words, ?bytes, ?sel, ?shfl, ?bcast, ?preds⟩
  case words =>
    intro s c g w e he h x
    obtain ⟨f, hExec, hf⟩ := intRows_compute e he
    obtain ⟨y, hNext, hLanes⟩ := valuRow_wroteLanes h f
    refine ⟨y, (hExec c g w s).trans hNext, hLanes.congr fun lane hLane => ?_⟩
    rw [← hf, toNat_src32 _ _ _ hLane, toNat_src32 _ _ _ hLane, toNat_src32 _ _ _ hLane]
  case bytes =>
    intro s c g w e he h x
    obtain ⟨f, hExec, hf⟩ := byteRows_compute e he
    obtain ⟨y, hNext, hLanes⟩ := valuRow_wroteLanes h (fun a b _ => packed4 f a b)
    refine ⟨y, fun lane => BitVec.ofNat 32 (packed4 f (src32 x w (wA w) lane).toNat (src32 x w (wB w) lane).toNat),
      (hExec c g w s).trans hNext, hLanes.congr fun lane hLane => ?_, fun lane k hk => ?_⟩
    · rw [toNat_src32 _ _ _ hLane, toNat_src32 _ _ _ hLane]
    · rw [extract_packed4 _ _ _ hk, packedByte, hf]
  case sel =>
    intro s c g w h x
    obtain ⟨y, hNext, hLanes⟩ := lgRow_wroteLanes h (wDst w)
      (fun x lane => if (lgP x (wC w - 0x50)).getLsbD lane then vsrc x w (wA w) lane else vsrc x w (wB w) lane) (fun _ => 0)
    exact ⟨y, hNext, hLanes.congr fun lane _ => apply_ite _ _ _ _⟩
  case shfl =>
    intro s c g w h x
    exact lgRow_wroteLanes h (wDst w) (fun x lane => vsrc x w (wA w) (vsrc x w (wB w) lane % 32)) (fun _ => 0)
  case bcast =>
    intro s c g w h x
    exact lgRow_wroteLanes h (wDst w) (fun x _ => vsrc x w (wA w) (wImm w % 32)) (fun _ => 0)
  case preds =>
    intro s c g w e he h x r
    rw [exec_predRows e he]
    exact predRow_wrotePred h (e.2.2 w)

/-- Settles O35: floating rows and CVT write one register from each active lane alone; CVTMX writes its codes, then its scale. -/
theorem floatAndConversionRows : Obligations.FloatAndConversionRows := by
  refine ⟨?float, ?cvt, ?cvtmx⟩
  case float =>
    intro s c g w e he h x r
    rw [exec_floatRows e he]
    exact vectorRow_wroteLanes h e.2.2.2
  case cvt =>
    intro s c g w h x r
    rw [exec_vcvtCvt]
    exact lgRow_wroteLanes h (wDst w) (fun x lane => (cvtLane x w lane).1) (fun x => laneFlags x w (fun lane => (cvtLane x w lane).2))
  case cvtmx =>
    intro s c g w h x r
    refine ⟨stepPc (afterCvtmx x w), exec_vcvtCvtmx h, ?_, fun q lane hLane => mget_mapLanes_mapLanes _ _ _ _ _ _ _ hLane⟩
    rw [afterCvtmx_only]
    rfl

end Sys2Proof.Machine
end

section
/-! SUPPORT. Proofs about control and scalar instructions (O33): CTRL rows by the lane group's next state, SCALAR rows as functions of
64-bit words. -/

namespace Sys2Proof.Machine

/-! ### CTRL rows (R97, R102, R103, R118) -/

section Control
variable {s : State} {c : Fin 512} {g : Fin 32} {w : W128}

theorem exec_ctrlNop (h : Issues s c g 0 0 w) : exec (.ctrlNop c g w) s = .next (setLg (coreFlags s c 0) c g (stepPc (getLg s c g))) :=
  lgRow_next (f := fun x => (x, 0)) h.1 h.2

theorem exec_ctrlBr_forward (h : Issues s c g 0 1 w) (hTaken : brTaken (getLg s c g) w = true)
    (hAhead : (getLg s c g).pc < field (wImm w) 0 32) :
    exec (.ctrlBr c g w) s = .next (setLg s c g { getLg s c g with pc := field (wImm w) 0 32 }) := by
  change execCtrlBr c g w s = _
  rw [execCtrlBr, coreRow_next h.1 h.2]
  simp [hTaken, Nat.not_le.mpr hAhead]

theorem exec_ctrlBr_backward (h : Issues s c g 0 1 w) (hTaken : brTaken (getLg s c g) w = true)
    (hBack : field (wImm w) 0 32 ≤ (getLg s c g).pc) (hBound : mget (getLg s c g).loops 0 (getLg s c g).pc < field (wImm w) 32 32) :
    exec (.ctrlBr c g w) s =
      let x := getLg s c g
      .next (setLg s c g { x with loops := mset x.loops 0 x.pc (mget x.loops 0 x.pc + 1), pc := field (wImm w) 0 32 }) := by
  change execCtrlBr c g w s = _
  rw [execCtrlBr, coreRow_next h.1 h.2]
  simp [hTaken, hBack, Nat.not_lt.mpr (Nat.succ_le_of_lt hBound)]

theorem exec_ctrlBr_overBound (h : Issues s c g 0 1 w) (hTaken : brTaken (getLg s c g) w = true)
    (hBack : field (wImm w) 0 32 ≤ (getLg s c g).pc) (hBound : field (wImm w) 32 32 ≤ mget (getLg s c g).loops 0 (getLg s c g).pc) :
    exec (.ctrlBr c g w) s = .next (coreAbort s c 5 0x0404) := by
  change execCtrlBr c g w s = _
  rw [execCtrlBr, coreRow_next h.1 h.2]
  simp [hTaken, hBack, Nat.lt_succ_of_le hBound]

theorem exec_ctrlBr_notTaken (h : Issues s c g 0 1 w) (hNot : brTaken (getLg s c g) w = false) :
    exec (.ctrlBr c g w) s =
      let x := getLg s c g
      let loops := if field (wImm w) 0 32 ≤ x.pc then mdel x.loops x.pc else x.loops
      .next (setLg s c g { x with loops := loops, pc := x.pc + 1 }) := by
  change execCtrlBr c g w s = _
  rw [execCtrlBr, coreRow_next h.1 h.2]
  simp [hNot]

theorem exec_ctrlBar (h : Issues s c g 0 2 w) (hDone : unpPending s c g = false) :
    exec (.ctrlBar c g w) s =
      let t := setLg s c g { stepPc (getLg s c g) with st := .atBar }
      .next (t.setCore c (barRelease (t.core c))) := by
  change execCtrlBar c g w s = _
  rw [execCtrlBar, coreRow_next h.1 h.2, hDone]
  rfl

theorem exec_ctrlSlip (h : Issues s c g 0 3 w) :
    exec (.ctrlSlip c g w) s = .next (setLg s c g { getLg s c g with st := .atSlip (field (wImm w) 0 32) (field (wImm w) 32 32) }) := by
  change execCtrlSlip c g w s = _
  rw [execCtrlSlip, coreRow_next h.1 h.2]

theorem exec_ctrlEnd (h : Issues s c g 0 4 w) :
    exec (.ctrlEnd c g w) s =
      let x := getLg s c g
      let s1 := closeVertex s c x
      let t := setLg (s1.setCore c (closeItem (s1.core c) x)) c g { x with st := .ended, item := none }
      .next (t.setCore c (barRelease (t.core c))) := by
  change execCtrlEnd c g w s = _
  rw [execCtrlEnd, coreRow_next h.1 h.2]

end Control

/-! ### SCALAR rows (R425) -/

/-- A scalar source is a 64-bit word. -/
theorem toNat_ssrc (x : Lg) (w : W128) (code : Nat) : (BitVec.ofNat 64 (ssrc x w code)).toNat = ssrc x w code := by
  refine (BitVec.toNat_ofNat _ _).trans (Nat.mod_eq_of_lt ?_)
  unfold ssrc
  split_ifs
  · exact BitVec.isLt _
  · exact (Int.toNat_lt' (by norm_num)).mpr (Int.emod_lt_of_pos _ (by norm_num))
  · norm_num

/-- The row's result is the function `r` of the word and of its two sources as 64-bit words. -/
def ComputesScalar (i : CoreRow) (op : Nat) (r : W128 → BitVec 64 → BitVec 64 → BitVec 64) : Prop :=
  ∃ f : W128 → Nat → Nat → Nat, (∀ c g w s, exec (i c g w) s = scalarRow op (f w) c g w s) ∧
    ∀ (w : W128) (a b : BitVec 64), BitVec.ofNat 64 (f w a.toNat b.toNat) = r w a b

/-- A compare's flag as a word. -/
theorem ofNat_b2n (b : Bool) : BitVec.ofNat 64 (b2n b) = if b then 1#64 else 0#64 := by cases b <;> rfl

section Words
variable (a b : BitVec 64)

theorem ofNat_sub64 : BitVec.ofNat 64 (a.toNat + 2 ^ 64 - b.toNat) = a - b := by
  have hB := b.isLt
  refine BitVec.eq_of_toNat_eq ?_
  rw [BitVec.toNat_ofNat, BitVec.toNat_sub, show a.toNat + 2 ^ 64 - b.toNat = 2 ^ 64 - b.toNat + a.toNat by omega]

theorem ofNat_not64 : BitVec.ofNat 64 (2 ^ 64 - 1 - a.toNat) = ~~~a :=
  BitVec.eq_of_toNat_eq (by rw [BitVec.toNat_ofNat, BitVec.toNat_not, Nat.mod_eq_of_lt (by omega)])

theorem ofNat_shl64 (n : Nat) : BitVec.ofNat 64 (a.toNat * 2 ^ n) = a <<< n :=
  BitVec.eq_of_toNat_eq (by rw [BitVec.toNat_ofNat, BitVec.toNat_shiftLeft, Nat.shiftLeft_eq])

theorem ofNat_shr64 (n : Nat) : BitVec.ofNat 64 (a.toNat / 2 ^ n) = a >>> n := by
  rw [← Nat.shiftRight_eq_div_pow, ← BitVec.toNat_ushiftRight, BitVec.ofNat_toNat, BitVec.setWidth_eq]

theorem ofNat_sar64 (n : Nat) : BitVec.ofNat 64 (unsignedOf 64 (shiftI (signed 64 a.toNat) (-(n : Int)))) = a.sshiftRight n := by
  rw [ofNat_unsignedOf, signed_toNat, shiftI_neg, BitVec.sshiftRight, Int.shiftRight_eq_div_pow]

end Words

theorem scalarRows_compute : ∀ e ∈ scalarRows, ComputesScalar e.1 e.2.1 e.2.2 := by
  have hSelf : ∀ a : BitVec 64, BitVec.ofNat 64 a.toNat = a := fun a => by simp
  simp only [scalarRows, List.forall_mem_cons, List.not_mem_nil, false_imp_iff, implies_true, and_true]
  refine ⟨?mov, ?add, ?sub, ?mul, ?and, ?or, ?xor, ?not, ?shl, ?shr, ?sar, ?cmp, ?ucmp⟩
  case mov => exact ⟨fun _ a _ => a, fun _ _ _ _ => rfl, fun _ a _ => hSelf a⟩
  case add => exact ⟨fun _ a b => a + b, fun _ _ _ _ => rfl, fun _ a b => by rw [BitVec.ofNat_add, hSelf, hSelf]⟩
  case sub => exact ⟨fun _ a b => a + 2 ^ 64 - b, fun _ _ _ _ => rfl, fun _ a b => ofNat_sub64 a b⟩
  case mul => exact ⟨fun _ a b => a * b, fun _ _ _ _ => rfl, fun _ a b => by rw [BitVec.ofNat_mul, hSelf, hSelf]⟩
  case and => exact ⟨fun _ a b => a &&& b, fun _ _ _ _ => rfl, fun _ a b => by rw [BitVec.ofNat_and, hSelf, hSelf]⟩
  case or => exact ⟨fun _ a b => a ||| b, fun _ _ _ _ => rfl, fun _ a b => by rw [BitVec.ofNat_or, hSelf, hSelf]⟩
  case xor => exact ⟨fun _ a b => a ^^^ b, fun _ _ _ _ => rfl, fun _ a b => by rw [BitVec.ofNat_xor, hSelf, hSelf]⟩
  case not => exact ⟨fun _ a _ => 2 ^ 64 - 1 - a, fun _ _ _ _ => rfl, fun _ a _ => ofNat_not64 a⟩
  case shl => exact ⟨fun _ a b => a * 2 ^ (b % 64), fun _ _ _ _ => rfl, fun _ a b => ofNat_shl64 a (b.toNat % 64)⟩
  case shr => exact ⟨fun _ a b => a / 2 ^ (b % 64), fun _ _ _ _ => rfl, fun _ a b => ofNat_shr64 a (b.toNat % 64)⟩
  case sar =>
    exact ⟨fun _ a b => unsignedOf 64 (shiftI (signed 64 a) (-((b % 64 : Nat) : Int))), fun _ _ _ _ => rfl,
      fun _ a b => ofNat_sar64 a (b.toNat % 64)⟩
  case cmp =>
    refine ⟨fun w a b => b2n (condInt (wMod w) (signed 64 a) (signed 64 b)), fun _ _ _ _ => rfl, fun _ a b => ?_⟩
    rw [ofNat_b2n, signed_toNat, signed_toNat]
  case ucmp => exact ⟨fun w a b => b2n (condInt (wMod w) a b), fun _ _ _ _ => rfl, fun _ _ _ => ofNat_b2n _⟩

/-- Settles O33: each clause of CTRL is the lemma about its outcome; a row of SCALAR is its function on 64-bit words. -/
theorem controlAndScalarRows : Obligations.ControlAndScalarRows := by
  refine ⟨fun s c g w => exec_ctrlNop, fun s c g w => exec_ctrlBr_forward, fun s c g w => exec_ctrlBr_backward,
    fun s c g w => exec_ctrlBr_overBound, fun s c g w => exec_ctrlBr_notTaken, fun s c g w => exec_ctrlBar,
    fun s c g w => exec_ctrlSlip, fun s c g w => exec_ctrlEnd, ?scalar⟩
  intro s c g w e he h
  obtain ⟨f, hExec, hf⟩ := scalarRows_compute e he
  rw [hExec, scalarRow, lgRow_next h.1 h.2]
  dsimp only
  rw [← hf, toNat_ssrc, toNat_ssrc]
  rfl

end Sys2Proof.Machine
end

section
/-! SUPPORT. Proofs about the rows that act on the core's queues, the region's semaphores and its planned transfers (O37, O38, O39). -/

namespace Sys2Proof.Machine

section Rows
variable {s : State} {c : Fin 512} {g : Fin 32} {w : W128}

/-! ### Matrix rows and the write-out (R108 to R111) -/

theorem queueMat_of_free (h : matFull (s.core c) = false) :
    queueMat c g w s = setLg (s.setCore c { s.core c with
      matQ := (s.core c).matQ ++ [mkOp s c g w], nextOp := (s.core c).nextOp + 1 }) c g (stepPc (getLg s c g)) := by
  simp [queueMat, h]

theorem queueMat_of_full (h : matFull (s.core c) = true) : queueMat c g w s = s := by
  simp [queueMat, h]

theorem exec_matMma (h : Issues s c g 6 0 w) : exec (.matMma c g w) s = .next (queueMat c g w s) := coreRow_next h.1 h.2
theorem exec_accClear (h : Issues s c g 7 0 w) : exec (.accClear c g w) s = .next (queueMat c g w s) := coreRow_next h.1 h.2
theorem exec_accLoad (h : Issues s c g 7 1 w) : exec (.accLoad c g w) s = .next (queueMat c g w s) := coreRow_next h.1 h.2

theorem exec_accStore (h : Issues s c g 7 2 w) (hFree : woFull (s.core c) = false) :
    exec (.accStore c g w) s =
      let o : MatOp := { mkOp s c g w with allowed := (woSpans (mkOp s c g w)).all (fun p => gfxWriteOk s c g p.1 p.2) }
      let t := s.setCore c { s.core c with woQ := (s.core c).woQ ++ [o], nextOp := (s.core c).nextOp + 1 }
      .next (setLg t c g (stepPc (getLg s c g))) := by
  change execAccStore c g w s = _
  rw [execAccStore, coreRow_next h.1 h.2]
  exact congrArg _ (if_neg (by rw [hFree]; exact Bool.false_ne_true))

theorem exec_accStore_waits (h : Issues s c g 7 2 w) (hFull : woFull (s.core c) = true) : exec (.accStore c g w) s = .next s := by
  change execAccStore c g w s = _
  rw [execAccStore, coreRow_next h.1 h.2, if_pos hFull]

/-! ### Semaphores (R113, R159) -/

theorem exec_semSig (h : Issues s c g 8 0 w) (hDone : unpPending s c g = false)
    (hFits : mget (s.rgn (c / 32)).sems 0 (semId w) + semN w ≤ 65535) :
    exec (.semSig c g w) s =
      let x := s.rgn (c / 32)
      let t := s.setRgn (c / 32) { x with sems := mset x.sems 0 (semId w) (mget x.sems 0 (semId w) + semN w) }
      .next (serveSem (x.waiters.length + 1) (semId w) (c / 32) (setLg t c g (stepPc (getLg t c g)))) := by
  change execSemSig c g w s = _
  rw [execSemSig, coreRow_next h.1 h.2]
  simp [hDone, Nat.not_lt.mpr hFits]

theorem exec_semSig_overflows (h : Issues s c g 8 0 w) (hDone : unpPending s c g = false)
    (hOver : 65535 < mget (s.rgn (c / 32)).sems 0 (semId w) + semN w) :
    exec (.semSig c g w) s = .next (coreAbort s c 5 0x0403) := by
  change execSemSig c g w s = _
  rw [execSemSig, coreRow_next h.1 h.2]
  simp [hDone, hOver]

theorem exec_semWait_takes (h : Issues s c g 8 1 w) (hEnough : semN w ≤ mget (s.rgn (c / 32)).sems 0 (semId w))
    (hFirst : (s.rgn (c / 32)).waiters.any (fun y => y.sem == semId w) = false) :
    exec (.semWait c g w) s =
      let x := s.rgn (c / 32)
      .next (setLg (s.setRgn (c / 32) { x with sems := mset x.sems 0 (semId w) (mget x.sems 0 (semId w) - semN w) }) c g
        (stepPc (getLg s c g))) := by
  change execSemWait c g w s = _
  rw [execSemWait, coreRow_next h.1 h.2]
  simp [hEnough, hFirst]

theorem exec_semWait_waits (h : Issues s c g 8 1 w)
    (hWaits : mget (s.rgn (c / 32)).sems 0 (semId w) < semN w ∨ (s.rgn (c / 32)).waiters.any (fun y => y.sem == semId w) = true) :
    exec (.semWait c g w) s =
      let x := s.rgn (c / 32)
      .next (setLg (s.setRgn (c / 32) { x with waiters := x.waiters ++ [⟨semId w, c, g, semN w⟩] }) c g
        { getLg s c g with st := .onSem }) := by
  change execSemWait c g w s = _
  rw [execSemWait, coreRow_next h.1 h.2]
  rcases hWaits with hShort | hBehind
  · simp [Nat.not_le.mpr hShort]
  · simp [hBehind]

theorem exec_semTry (h : Issues s c g 8 2 w) :
    exec (.semTry c g w) s =
      let x := s.rgn (c / 32)
      let n := mget x.sems 0 (semId w)
      let t := if semN w ≤ n then s.setRgn (c / 32) { x with sems := mset x.sems 0 (semId w) (n - semN w) } else s
      .next (setLg t c g (stepPc (lgSetP (getLg s c g) (wDst w - 0x50) (if semN w ≤ n then 0xFFFFFFFF#32 else 0#32)))) := by
  change execSemTry c g w s = _
  rw [execSemTry, coreRow_next h.1 h.2]
  simp only [decide_eq_true_eq]

/-! ### Planned transfers (R112, R202) -/

theorem exec_xferStart {l : Nat} {x : Launch} (h : Issues s c g 0xA 0 w) (hRuns : coreLaunch s c = some (l, x))
    (hNew : (s.rgn (c / 32)).started.contains (field (wImm w) 0 32) = false) :
    exec (.xferStart c g w) s =
      let t := issueEntry (c / 32) (field (wImm w) 0 32) s
      .next (if (t.core c).lgs = [] then t else setLg t c g (stepPc (getLg t c g))) := by
  change execXferStart c g w s = _
  rw [execXferStart, coreRow_next h.1 h.2, hRuns]
  simp only [hNew, List.isEmpty_iff, Bool.false_eq_true, if_false]

theorem exec_xferStart_again {l : Nat} {x : Launch} (h : Issues s c g 0xA 0 w) (hRuns : coreLaunch s c = some (l, x))
    (hStarted : (s.rgn (c / 32)).started.contains (field (wImm w) 0 32) = true) :
    exec (.xferStart c g w) s = .next (abortLaunch l (c / 32) 5 0x0702 s) := by
  change execXferStart c g w s = _
  rw [execXferStart, coreRow_next h.1 h.2, hRuns]
  simp only [hStarted, if_true]

theorem exec_xferWait_done (h : Issues s c g 0xA 1 w) (hDone : (s.rgn (c / 32)).done.contains (field (wImm w) 0 32) = true) :
    exec (.xferWait c g w) s = .next (setLg s c g (stepPc (getLg s c g))) := by
  change execXferWait c g w s = _
  rw [execXferWait, coreRow_next h.1 h.2, if_pos hDone]

theorem exec_xferWait_waits (h : Issues s c g 0xA 1 w) (hOpen : (s.rgn (c / 32)).done.contains (field (wImm w) 0 32) = false) :
    exec (.xferWait c g w) s = .next s := by
  change execXferWait c g w s = _
  rw [execXferWait, coreRow_next h.1 h.2, hOpen]
  rfl

end Rows

/-! ### Events of the engines -/

section Engines
variable {s : State} {c : Fin 512} {l : Nat} {x : Launch} {o : MatOp} {rest : List MatOp}

/-- While its region's launch runs, a core's engine performs the oldest operation that is ready (R110). -/
theorem exec_matrixOpComplete_mat (hSafe : s.flt.safe = false) (hLaunch : coreLaunch s c = some (l, x))
    (hPhase : x.phase = .running ∨ x.phase = .yielding) (hQueue : (s.core c).matQ = o :: rest) (hReady : matReady (s.core c) = true) :
    exec (.matrixOpComplete c false) s =
      let t := s.setCore c { s.core c with matQ := rest }
      .next (openBar c (if wCls o.w = 6 then runMma t c o else runAcc t c o)) := by
  change execMatrixOpComplete c false s = _
  rcases hPhase with hPhase | hPhase <;> simp [execMatrixOpComplete, hSafe, hLaunch, hPhase, hQueue, hReady]

theorem exec_matrixOpComplete_store (hSafe : s.flt.safe = false) (hLaunch : coreLaunch s c = some (l, x))
    (hPhase : x.phase = .running ∨ x.phase = .yielding) (hQueue : (s.core c).woQ = o :: rest) (hReady : woReady (s.core c) = true) :
    exec (.matrixOpComplete c true) s = .next (openBar c (runStore (s.setCore c { s.core c with woQ := rest }) c o)) := by
  change execMatrixOpComplete c true s = _
  rcases hPhase with hPhase | hPhase <;> simp [execMatrixOpComplete, hSafe, hLaunch, hPhase, hQueue, hReady]

variable {r : Fin 16} {n : Nat} {e : XferRec} {st : Started} {fifo : List Started}

theorem exec_autoTransferStart (hLaunch : launchAt s r = some (l, x)) (hEntry : (stepTable s x).xfers[n]? = some e)
    (hSafe : s.flt.safe = false) (hAuto : e.auto = true) (hRel : e.rel = (s.rgn r).rel) (hNew : (s.rgn r).started.contains n = false)
    (hTime : (s.rgn r).offset ≤ e.startAt) (hHeld : (s.rgn r).held = none) (hPhase : x.phase = .running ∨ x.phase = .yielding) :
    exec (.autoTransferStart r n) s = .next (issueEntry r n s) := by
  change execAutoTransferStart r n s = _
  rw [execAutoTransferStart, hLaunch]
  dsimp only
  have hGoes : (x.phase == .running || x.phase == .yielding) = true := by
    rcases hPhase with e | e <;> rw [e] <;> rfl
  rw [hEntry]
  rw [List.contains_eq_mem, decide_eq_false_iff_not] at hNew
  simp [hSafe, hAuto, hRel, hHeld, hGoes, Nat.not_lt.mpr hTime, hNew]

theorem exec_transferComplete (hLaunch : launchAt s r = some (l, x)) (hFifo : (s.rgn r).fifo = st :: fifo)
    (hEntry : (stepTable s x).xfers[st.entry]? = some e) (hSafe : s.flt.safe = false) :
    exec (.transferComplete r) s = .next (if entryReady s r st then completeEntry s r l e st else pumpJob 4096 st.job s) := by
  change execTransferComplete r s = _
  rw [execTransferComplete, hLaunch, hFifo]
  dsimp only
  rw [hEntry]
  dsimp only
  rw [hSafe]
  cases entryReady s r st <;> rfl

end Engines

/-- Settles O37: a row of the matrix queue is `queueMat` on its word, ACC.STORE the same for the write-out queue; the engine's event takes
the oldest operation that is ready. -/
theorem matrixRows : Obligations.MatrixRows := by
  refine ⟨?queues, fun s c g w => exec_accStore, ?full, fun s c l x o rest => exec_matrixOpComplete_mat,
    fun s c l x o rest => exec_matrixOpComplete_store⟩
  case queues =>
    intro s c g w hFree
    dsimp only
    rw [← queueMat_of_free hFree]
    exact ⟨exec_matMma, exec_accClear, exec_accLoad⟩
  case full =>
    intro s c g w
    refine ⟨fun hFull h => ?_, fun hFull h => ?_, fun hFull h => ?_, fun hFull h => exec_accStore_waits h hFull⟩
    · rw [exec_matMma h, queueMat_of_full hFull]
    · rw [exec_accClear h, queueMat_of_full hFull]
    · rw [exec_accLoad h, queueMat_of_full hFull]

/-- Settles O38, clause by clause from the lemma about each outcome of the three rows. -/
theorem semaphoreRows : Obligations.SemaphoreRows :=
  ⟨fun _ _ _ _ => exec_semSig, fun _ _ _ _ => exec_semSig_overflows, fun _ _ _ _ => exec_semWait_takes,
    fun _ _ _ _ => exec_semWait_waits, fun _ _ _ _ => exec_semTry⟩

/-- Settles O39, clause by clause from the lemma about each outcome of the two rows and of the two events. -/
theorem transferCommands : Obligations.TransferCommands :=
  ⟨fun _ _ _ _ _ _ => exec_xferStart, fun _ _ _ _ _ _ => exec_xferStart_again, fun _ _ _ _ => exec_xferWait_done,
    fun _ _ _ _ => exec_xferWait_waits, fun _ _ _ _ _ _ => exec_autoTransferStart, fun _ _ _ _ _ _ _ => exec_transferComplete⟩

end Sys2Proof.Machine
end

section
/-! SUPPORT. Proofs about all commands (O45: each answers) and about the rows of a lane group (O51: their frame). -/

namespace Sys2Proof.Machine

/-! ### Every command answers (R98, R122) -/

/-- A meaning answers a next state. -/
def Answers (r : Result) : Prop := ∃ t, r = .next t

theorem descRow_answers (op q i : Nat) (eff : Queue → Desc → W512 → State → State) (s : State) : Answers (descRow op eff q i s) := by
  rcases descRow_cases op q i eff s with h | ⟨x, d, -, h⟩ <;> exact ⟨_, h⟩

theorem mediaRow_answers (op : Nat) (bad : Nat → Bool) (serve : Queue → Ctx → Desc → Nat → Nat → State → State) (q i : Nat) (s : State) :
    Answers (mediaRow op bad serve q i s) := by
  rw [mediaRow]
  exact descRow_answers _ _ _ _ _

theorem caravanRow_answers (kind : Nat) (eff : Queue → Desc → Nat → State → State) (q i : Nat) (s : State) :
    Answers (caravanRow kind eff q i s) := by
  rw [caravanRow]
  exact descRow_answers _ _ _ _ _

theorem roceRow_answers (op q i : Nat) (s : State) : Answers (roceRow op q i s) := by
  rw [roceRow]
  exact descRow_answers _ _ _ _ _

theorem regWrite_answers (off : Nat) (eff : State → State) (s : State) : Answers (regWrite off eff s) := by
  unfold regWrite
  split <;> exact ⟨_, rfl⟩

theorem doeRequest_answers (code : Nat) (m : List Byte) (act : DoeAct) (s : State) : Answers (doeRequest code m act s) := by
  unfold doeRequest
  dsimp only
  split_ifs <;> exact ⟨_, rfl⟩

/-- The command is well formed as its word is one of its row, and its meaning is a core row on that word. -/
def IsCoreRow (i : Instr) : Prop :=
  ∃ cls op atom eff c g w, i.wf = rowWord cls op atom w ∧ ∀ s, exec i s = coreRow cls op atom eff c g w s

/-- A command is a core row, or it is well formed and always answers: rows of descriptors, register writes and messages by their shared
frames, the others by the branches of their meanings. -/
theorem isCoreRow_or_answers (i : Instr) : IsCoreRow i ∨ (i.wf = true ∧ ∀ s, Answers (exec i s)) := by
  cases i
  -- Rows on a core's word
  case ctrlNop | ctrlBr | ctrlBar | ctrlSlip | ctrlEnd | scalarSmov | scalarSadd | scalarSsub | scalarSmul | scalarSand | scalarSor |
      scalarSxor | scalarSnot | scalarSshl | scalarSshr | scalarSsar | scalarScmp | scalarSucmp | valuFadd | valuFsub | valuFmul |
      valuFfma | valuFmin | valuFmax | valuFabs | valuFneg | valuFcmp | valuHadd2 | valuHmul2 | valuHfma2 | valuBadd2 | valuBmul2 |
      valuBfma2 | valuHmin2 | valuHmax2 | valuIadd | valuIsub | valuImul | valuImulhi | valuImulhu | valuIadds | valuIsubs | valuShl |
      valuShr | valuSar | valuAnd | valuOr | valuXor | valuNot | valuIcmp | valuUcmp | valuIadd4 | valuIsub4 | valuIadds4 | valuIsubs4 |
      valuIdot4 | valuMov | valuSel | valuShfl | valuBcast | vfuncRcp | vfuncSqrt | vfuncRsq | vfuncExp2 | vfuncLog2 | vfuncSinpi |
      vfuncCospi | vfuncTanh | vfuncSigm | vcvtCvt | vcvtCvtmx | tsLd | tsSt | matMma | accClear | accLoad | accStore | semSig | semWait
      | semTry | unpLd | unpSt | unpAtomAdd | unpAtomFadd | unpAtomSmin | unpAtomSmax | unpAtomUmin | unpAtomUmax | unpAtomAnd |
      unpAtomOr | unpAtomXor | unpAtomExch | unpAtomCas | unpLfill | unpWb | unpInv | xferStart | xferWait | gfxNext | gfxVout | gfxAttr
      | gfxFout | gfxKill | gfxSample | gfxUsample | gfxTwait =>
    dsimp only [IsCoreRow, Instr.wf, exec]
    exact .inl ⟨_, _, _, _, _, _, _, rfl, fun _ => rfl⟩
  -- Rows on a released descriptor
  case nop | fenceRegister | fenceRelease | ctxQuery | planLoad | planPatch | planFree | copy | fill | memAlloc | memFree | memMap |
      memUnmap | migrate | advise | ctxCreate | ctxDestroy | queueCreate | queueDestroy =>
    refine .inr ⟨rfl, fun _ => ?_⟩
    dsimp only [exec]
    exact descRow_answers _ _ _ _ _
  case mediaDecode | mediaEncode =>
    refine .inr ⟨rfl, fun _ => ?_⟩
    dsimp only [exec]
    exact mediaRow_answers _ _ _ _ _ _
  case nodeSet | nodeClear | nodeQuery | exportRange | unexportRange | qpCreate | qpDestroy =>
    refine .inr ⟨rfl, fun _ => ?_⟩
    dsimp only [exec]
    exact caravanRow_answers _ _ _ _ _
  case roceSend | roceWrite | roceRead | roceRecv =>
    refine .inr ⟨rfl, fun _ => ?_⟩
    dsimp only [exec]
    exact roceRow_answers _ _ _ _
  -- Writes of registers
  case drainRegion | forceRegion | returnRegion | regionGroupsWrite | lcEnableWrite | resCtrlWrite | capWrite | fltAckWrite | safeExit |
      acctModeWrite | acctClear | adminCtrlWrite | headEnable | headDisable | retrain | auxRequest | subportEnable | subportDisable |
      sakInstall | clockSwitch | coreCtrlWrite | fabCtrlWrite | feCtrlWrite | cmpArm | clkTripClear | padRelease | readyCopyWrite |
      otpArm | otpGo | flashRead | flashProgram | flashErase | alarmClear =>
    refine .inr ⟨rfl, fun _ => ?_⟩
    dsimp only [exec]
    exact regWrite_answers _ _ _
  -- Messages to the DOE mailbox
  case doeDiscovery | ideKmMessage | getVersion | getCapabilities | negotiateAlgorithms | getDigests | getCertificate | challenge |
      getMeasurements | keyExchange | finish | heartbeat | keyUpdate | endSession =>
    refine .inr ⟨rfl, fun _ => ?_⟩
    dsimp only [exec]
    exact doeRequest_answers _ _ _ _
  -- Commands of one effect
  case descriptorRead | descriptorHead | stackFailure | ltaError | hotReset | linkDisable | dlDown | mainPowerLoss | doeAbort |
      mctpControlMessage | pldmMonitoringRequest | malformedTlp | unsupportedRequest | poisonedWrite | poisonedCompletion |
      errorCompletion | unexpectedCompletion | completionTimeout | qanatTransit | retransmissionTimeout | helloTimer |
      thermalEmergencyEnd | pwrbrkNLow | inputOvercurrent | thermalTrip | blowerStall | compareFire | voltageGlitch | tamper |
      auxPowerUp | subportLinkDown | stackTemperature85c | qanatData | qanatReadReq | qanatReadResp | qanatAck | qanatNak | qanatHello |
      qanatBye =>
    exact .inr ⟨rfl, fun _ => ⟨_, rfl⟩⟩
  -- The others answer on every branch, by chapter: rings and launches (02, 08, 09)
  case launch | kick | sweep | planResidency | waitTimeout | waitReevaluation | irqModerationTimeout | descriptorComplete | napExit |
      descriptorRelease | lcStart | beSliceExpiry | beStart | regionNap | slipPoint | saveComplete | restore | stepEnd |
      crossModuleStepStart | stepOverrun | hardStop | modelLoadComplete | regionSelfTestDone =>
    refine .inr ⟨rfl, fun _ => ?_⟩
    dsimp only [exec, execLaunch, execKick, execSweep, execPlanResidency, execWaitTimeout, execWaitReevaluation,
      execIrqModerationTimeout, execDescriptorComplete, execNapExit, execDescriptorRelease, execLcStart, execBeSliceExpiry, execBeStart,
      execRegionNap, execSlipPoint, execSaveComplete, execRestore, execStepEnd, execCrossModuleStepStart, execStepOverrun, execHardStop,
      execModelLoadComplete, execRegionSelfTestDone]
    repeat' split
    all_goals exact ⟨_, rfl⟩
  -- Cores, caches and tile rendering (04 to 06)
  case matrixOpComplete | autoTransferStart | transferComplete | cdcMissComplete | evictionWriteComplete | passStart | tileStagingDone |
      fragmentBlended | tileWriteOutDone | binPoolFull | batchBinned =>
    refine .inr ⟨rfl, fun _ => ?_⟩
    dsimp only [exec, execMatrixOpComplete, execAutoTransferStart, execTransferComplete, execCdcMissComplete, execEvictionWriteComplete,
      execPassStart, execTileStagingDone, execFragmentBlended, execTileWriteOutDone, execBinPoolFull, execBatchBinned]
    repeat' split
    all_goals exact ⟨_, rfl⟩
  -- Memory and faults (07, 16)
  case atsInvalidate | priEnableWrite | memUncorrectableError | atsTranslationCompletion | pageRequestResponse | pageRequestTimeout |
      frameScrubbed | memCorrectedError | mirrorRebuildDone | coreEccError | cdcParityError | collectorSelfFault | energySample |
      faultHandlingEnd | unitHardwareFault =>
    refine .inr ⟨rfl, fun _ => ?_⟩
    dsimp only [exec, execAtsInvalidate, execPriEnableWrite, execMemUncorrectableError, execAtsTranslationCompletion,
      execPageRequestResponse, execPageRequestTimeout, execFrameScrubbed, execMemCorrectedError, execMirrorRebuildDone,
      execCoreEccError, execCdcParityError, execCollectorSelfFault, execEnergySample, execFaultHandlingEnd, execUnitHardwareFault]
    repeat' split
    all_goals exact ⟨_, rfl⟩
  -- The host link (10)
  case doeResponseReady | vfFlr | pfFlr | vfEnableClear | busMasterEnableSet | busMasterEnableClear | msixEnable | msixTableWrite |
      aspmL1Entry | ideCheckFailed | unalignedBar0Access | bar4Read | bar4Write | registerWrite =>
    refine .inr ⟨rfl, fun _ => ?_⟩
    dsimp only [exec, execDoeResponseReady, execVfFlr, execPfFlr, execVfEnableClear, execBusMasterEnableSet, execBusMasterEnableClear,
      execMsixEnable, execMsixTableWrite, execAspmL1Entry, execIdeCheckFailed, execUnalignedBar0Access, execBar4Read, execBar4Write,
      execRegisterWrite]
    repeat' split
    all_goals exact ⟨_, rfl⟩
  -- Display and media (12, 13)
  case commitValidationDone | auxComplete | hpdLow | hpdRise | irqHpd | writebackDone | signatureLatch | dispCommit | timingWrite |
      linkTrainingComplete | frameStart | vblankStart =>
    refine .inr ⟨rfl, fun _ => ?_⟩
    dsimp only [exec, execCommitValidationDone, execAuxComplete, execHpdLow, execHpdRise, execIrqHpd, execWritebackDone,
      execSignatureLatch, execDispCommit, execTimingWrite, execLinkTrainingComplete, execFrameStart, execVblankStart]
    repeat' split
    all_goals exact ⟨_, rfl⟩
  -- The caravan (11)
  case peerTimeout | roceResponseReceived | roceRetryTimeout | roceRequestReceived | cnpReceived | subportLinkUp | invalidFrameReceived
      | pfcFrameReceived =>
    refine .inr ⟨rfl, fun _ => ?_⟩
    dsimp only [exec, execPeerTimeout, execRoceResponseReceived, execRoceRetryTimeout, execRoceRequestReceived, execCnpReceived,
      execSubportLinkUp, execInvalidFrameReceived, execPfcFrameReceived]
    repeat' split
    all_goals exact ⟨_, rfl⟩
  -- Clocks, power and start-up (14, 15, 17)
  case refclkTrip | pllRelock | xtalTrip | xtalLpoTrip | iboTrip | lockTrip | pllRelockTimeout | iboReady | iboStartTimeout |
      thermalLimitReached | thermalLimitCleared | brakeRelease | xtal25Restart | perstAssert | osfpModuleInsertion | perstDeassert |
      linkTrained | feReady | stackTrainingDone | unitReady | d3hotEntry | dormantExit | stackReady | mainPowerUp |
      temperatureMeasurement | auxBelowThreshold | lpoCalUpdate | otpChangeDone | flashOpDone | bootImageLoaded | haboobSeedBurned |
      uartConsoleInput =>
    refine .inr ⟨rfl, fun _ => ?_⟩
    dsimp only [exec, execRefclkTrip, execPllRelock, execXtalTrip, execXtalLpoTrip, execIboTrip, execLockTrip, execPllRelockTimeout,
      execIboReady, execIboStartTimeout, execThermalLimitReached, execThermalLimitCleared, execBrakeRelease, execXtal25Restart,
      execPerstAssert, execOsfpModuleInsertion, execPerstDeassert, execLinkTrained, execFeReady, execStackTrainingDone, execUnitReady,
      execD3hotEntry, execDormantExit, execStackReady, execMainPowerUp, execTemperatureMeasurement, execAuxBelowThreshold,
      execLpoCalUpdate, execOtpChangeDone, execFlashOpDone, execBootImageLoaded, execHaboobSeedBurned, execUartConsoleInput]
    repeat' split
    all_goals exact ⟨_, rfl⟩

/-- A core row refuses a word that is not its own, and answers a next state on each of its own. -/
theorem IsCoreRow.answers {i : Instr} (h : IsCoreRow i) (s : State) :
    (i.wf = true → Answers (exec i s)) ∧ (i.wf = false → exec i s = .refused .reservedWord) := by
  obtain ⟨cls, op, atom, eff, c, g, w, hWf, hExec⟩ := h
  rw [hWf, hExec]
  refine ⟨fun hWord => ?_, coreRow_refused⟩
  cases hIssues : canIssue s c g w
  · exact ⟨_, coreRow_waits hWord hIssues⟩
  · exact ⟨_, coreRow_next hWord hIssues⟩

/-! ### Rows of a lane group -/

/-- The row's whole effect is on its lane group and the flags. -/
def IsLaneGroupRow (e : CoreRow) : Prop :=
  ∃ (cls op : Nat) (f : W128 → Lg → Lg × AFlags),
    ∀ c g w, (e c g w).wf = rowWord cls op none w ∧ ∀ s, exec (e c g w) s = lgRow cls op (f w) c g w s

/-- Each row of the tables is well formed on the words of its class and OP (R425). -/
theorem rowTables_wf :
    (∀ e ∈ scalarRows, ∀ c g w, (e.1 c g w).wf = rowWord 1 e.2.1 none w)
      ∧ (∀ e ∈ intRows, ∀ c g w, (e.1 c g w).wf = rowWord 2 e.2.1 none w)
      ∧ (∀ e ∈ byteRows, ∀ c g w, (e.1 c g w).wf = rowWord 2 e.2.1 none w)
      ∧ (∀ e ∈ floatRows, ∀ c g w, (e.1 c g w).wf = rowWord e.2.1 e.2.2.1 none w)
      ∧ (∀ e ∈ predRows, ∀ c g w, (e.1 c g w).wf = rowWord 2 e.2.1 none w) := by
  refine ⟨?_, ?_, ?_, ?_, ?_⟩
  all_goals
    intro e he
    fin_cases he <;> exact fun _ _ _ => rfl

theorem isLaneGroupRow_of_mem : ∀ e ∈ laneGroupRows, IsLaneGroupRow e := by
  obtain ⟨hScalar, hInt, hByte, hFloat, hPred⟩ := rowTables_wf
  simp only [laneGroupRows, List.forall_mem_append, List.forall_mem_map]
  refine ⟨⟨⟨⟨⟨?alone, fun e he => ?scalar⟩, fun e he => ?int⟩, fun e he => ?byte⟩, fun e he => ?float⟩, fun e he => ?pred⟩
  case alone =>
    intro e he
    fin_cases he <;> exact ⟨_, _, _, fun _ _ _ => ⟨by dsimp only [Instr.wf], fun _ => by dsimp only [exec]; rfl⟩⟩
  case scalar =>
    obtain ⟨f, hExec, -⟩ := scalarRows_compute e he
    exact ⟨_, _, _, fun c g w => ⟨hScalar e he c g w, fun s => by rw [hExec, scalarRow]⟩⟩
  case int =>
    obtain ⟨f, hExec, -⟩ := intRows_compute e he
    exact ⟨_, _, _, fun c g w => ⟨hInt e he c g w, fun s => by rw [hExec, valuRow]⟩⟩
  case byte =>
    obtain ⟨f, hExec, -⟩ := byteRows_compute e he
    exact ⟨_, _, _, fun c g w => ⟨hByte e he c g w, fun s => by rw [hExec, valuRow]⟩⟩
  case float => exact ⟨_, _, _, fun c g w => ⟨hFloat e he c g w, fun s => by rw [exec_floatRows e he, vectorRow]⟩⟩
  case pred => exact ⟨_, _, _, fun c g w => ⟨hPred e he c g w, fun s => by rw [exec_predRows e he, predRow]⟩⟩

/-- Settles O45: a core row refuses, waits or answers by the shared frame, and every other command answers. -/
theorem wellFormedCommandsRun : Obligations.WellFormedCommandsRun := by
  refine ⟨fun i s hWf => ?_, fun i s hWf => ?_, fun s c g w e he hWf hWaits => ?_⟩
  · rcases isCoreRow_or_answers i with hRow | hOther
    · exact (hRow.answers s).1 hWf
    · exact hOther.2 s
  · rcases isCoreRow_or_answers i with hRow | hOther
    · exact (hRow.answers s).2 hWf
    · rw [hOther.1] at hWf
      cases hWf
  · obtain ⟨cls, op, f, hRow⟩ := isLaneGroupRow_of_mem e he
    obtain ⟨hWord, hExec⟩ := hRow c g w
    rw [hExec, lgRow, coreRow_waits (hWord ▸ hWf) hWaits]

/-! ### What a lane group's row leaves unchanged (R96, R159) -/

/-- From `s` to `t` launch `l` may change its flags word alone. -/
def FlagsAlone (s t : State) (l : Nat) : Prop :=
  t.launch? l = (s.launch? l).map (fun x => { x with flags := ((t.launch? l).map (·.flags)).getD x.flags })

theorem FlagsAlone.of_eq {s t : State} {l : Nat} (h : t.launch? l = s.launch? l) : FlagsAlone s t l := by
  rw [FlagsAlone, h]
  cases s.launch? l <;> rfl

theorem orFlags_flagsAlone (l fl k : Nat) (s : State) : FlagsAlone s (orFlags l fl s) k := by
  unfold orFlags
  split
  · exact .of_eq rfl
  · rename_i y hFound
    split
    · exact .of_eq rfl
    · by_cases hk : k = l
      · rw [FlagsAlone, launch_setLaunch, if_pos hk, hk, hFound]
        rfl
      · exact .of_eq (by rw [launch_setLaunch, if_neg hk])

/-- Flags raised by a core join the launch of its region, and nothing else changes (R88). -/
theorem coreFlags_only (s : State) (c : Nat) (fl : AFlags) :
    coreFlags s c fl = { s with fe := { s.fe with launches := (coreFlags s c fl).fe.launches } } := by
  unfold coreFlags orFlags
  repeat' split
  all_goals rfl

theorem coreFlags_flagsAlone (s : State) (c l : Nat) (fl : AFlags) : FlagsAlone s (coreFlags s c fl) l := by
  unfold coreFlags
  split
  · exact .of_eq rfl
  · exact orFlags_flagsAlone _ _ _ _

/-- A lane group's row is refused, waits, or raises its flags and writes its lane group. -/
theorem lgRow_cases {cls op c g : Nat} {f : Lg → Lg × AFlags} {w : W128} {s t : State} (h : lgRow cls op f c g w s = .next t) :
    t = s ∨ ∃ fl y, t = setLg (coreFlags s c fl) c g y := by
  rw [lgRow] at h
  rcases coreRow_cases (cls := cls) (op := op) (atom := none) (c := c) (g := g) (w := w) (s := s) with
    ⟨-, hRow⟩ | ⟨-, -, hRow⟩ | ⟨-, -, hRow⟩ <;> rw [hRow] at h
  · cases h
  · cases h
    exact .inr ⟨_, _, rfl⟩
  · cases h
    exact .inl rfl

/-- Settles O51: such a row changes nothing, or its lane group and the flags word. -/
theorem laneGroupRowFrames : Obligations.LaneGroupRowFrames := by
  intro s t c g w e he hNext
  obtain ⟨cls, op, f, hRow⟩ := isLaneGroupRow_of_mem e he
  rw [(hRow c g w).2] at hNext
  rcases lgRow_cases hNext with rfl | ⟨fl, y, rfl⟩
  · exact ⟨rfl, fun _ _ => rfl, rfl, fun _ _ => rfl, fun l => FlagsAlone.of_eq rfl⟩
  · have hCore : ∀ k, (coreFlags s c fl).core k = s.core k := fun k => by rw [coreFlags_only]; rfl
    refine ⟨?_, fun k hk => ?_, ?_, fun k hk => ?_, fun l => coreFlags_flagsAlone s c l fl⟩
    · rw [coreFlags_only]
      rfl
    · rw [setLg, core_setCore, if_neg hk, hCore]
    · rw [setLg, core_setCore, if_pos rfl, hCore]
    · rw [setLg, core_setCore, if_pos rfl, hCore, mfind_mins, if_neg hk]

end Sys2Proof.Machine
end

section
/-! SUPPORT. The refutation of the statement about graphics rows (O42): a sample that reads an infinite texel. -/

namespace Sys2Proof.Machine

/-- A sampler of one R32 texel, read as its nearest. -/
def infSampler : Sampler :=
  { argTex := 0, layout := 0x07, filter := 0, addrU := 0, addrV := 0, planned := false, levels := 1, width := 1, height := 1, uvAttr := 0,
    minLod := 0, maxLod := 0, lodBias := 0 }

/-- Launch 0 runs on region 0, with no flag raised. -/
def infState : State := { rgns := [(0, { launch := some 0 })], fe := { launches := [(0, {})] } }

/-- Lane 0 of core 0 samples that texel, which holds +infinity, at coordinates that are no NaN. -/
def infSampled : State :=
  sampleDone 0 0 0 infSampler [0] (fun _ => false) (fun _ => [(0, 0, 0, 0)]) (fun _ => (0, 0)) (fun _ => 0) false [0x7F800000] infState

/-- The flags word of launch 0. -/
def flagsOf0 (s : State) : Option AFlags := (s.launch? 0).map (·.flags)

/-- An infinity that a sample gives a lane raises INF_SEEN (R88). -/
theorem flagsOf0_infSampled : flagsOf0 infSampled = some flInf := by decide

/-- Refutes O42: its clause on a completed sample lets a NaN coordinate raise NAN_SEEN and nothing raise any other flag, but the values
that the lanes receive raise theirs (R88): the infinite texel of `infSampled` raises INF_SEEN. -/
theorem not_graphicsRows : ¬ Obligations.GraphicsRows := by
  rintro ⟨-, -, -, -, -, -, hDone, -⟩
  obtain ⟨z, hSampled, -⟩ := hDone infState 0 0 0 {} infSampler [0] (fun _ => false) (fun _ => [(0, 0, 0, 0)]) (fun _ => (0, 0))
    (fun _ => 0) false [0x7F800000] rfl (by decide)
  have hClaimed : flagsOf0 infSampled = some 0 := congrArg flagsOf0 hSampled
  rw [flagsOf0_infSampled] at hClaimed
  exact absurd hClaimed (by decide)

end Sys2Proof.Machine
end

section
/-! SUPPORT. Proofs about unplanned accesses (O40): what a CDC's accesses can write to memory, and the rows as folds over their lanes. -/

namespace Sys2Proof.Machine

/-! ### Bytes that a write leaves as they were -/

theorem readPhys_of_sameMemory {s t : State} (hHost : t.hostMem = s.hostMem) (hDev : t.devMem = s.devMem) (pa n : Nat) :
    readPhys t pa n = readPhys s pa n := by
  rw [readPhys, readPhys, hHost, hDev]

theorem bytesAt_putBytes_outside {a pa : Nat} {bs : List Byte} (h : a < pa ∨ pa + bs.length ≤ a) (m : Map Byte) :
    bytesAt (putBytes m pa bs) 1 a = bytesAt m 1 a := by
  simp only [bytesAt, mget_putBytes, show ¬ (pa ≤ a ∧ a < pa + bs.length) by omega, if_false]

theorem readPhys_writePhys_outside {a pa : Nat} {bs : List Byte} (h : a < pa ∨ pa + bs.length ≤ a) (s : State) :
    readPhys (writePhys s pa bs) a 1 = readPhys s a 1 := by
  obtain ⟨hDev, hHost⟩ := writePhys_memories s pa bs
  rw [readPhys, readPhys, hDev, hHost]
  by_cases hA : a < hostBase <;> by_cases hPa : pa < hostBase <;> simp only [hA, hPa, if_true, if_false]
  · exact bytesAt_putBytes_outside h _
  · exact bytesAt_putBytes_outside (by omega) _

theorem readPhys_putMasked_outside {a home k : Nat} {bs : List Byte} (h : a < home + k ∨ home + k + bs.length ≤ a) (mask : W64) (s : State) :
    readPhys (putMasked s home mask k bs) a 1 = readPhys s a 1 := by
  induction bs generalizing s k with
  | nil => rfl
  | cons b bs ih =>
    rw [List.length_cons] at h
    rw [putMasked, ih (by omega)]
    split
    · exact readPhys_writePhys_outside (by rw [List.length_singleton]; omega) s
    · rfl

@[simp] theorem crossed_length (ok : Bool) (s : State) (bs : List Byte) : (crossed ok s bs).length = bs.length := by
  unfold crossed freeBytes
  split <;> simp

theorem tickCross_only (ok : Bool) (n : Nat) (s : State) : tickCross ok n s = { s with free := (tickCross ok n s).free } := by
  unfold tickCross
  split <;> rfl

/-- The write-back of a line reaches no byte outside its home. -/
theorem readPhys_writeBack_outside {a : Nat} {e : CLine} (h : a < e.home ∨ e.home + 64 ≤ a) (k : Nat) (s : State) :
    readPhys (writeBack k s e) a 1 = readPhys s a 1 := by
  unfold writeBack
  dsimp only
  split
  · rw [tickCross_only]
    exact readPhys_putMasked_outside (by rw [crossed_length, lineBytes, leBytes_length]; exact h) _ s
  · rfl

theorem putMasked_cdcs (s : State) (home : Nat) (mask : W64) (k : Nat) (bs : List Byte) : (putMasked s home mask k bs).cdcs = s.cdcs := by
  induction bs generalizing s k with
  | nil => rfl
  | cons b bs ih =>
    rw [putMasked, ih]
    split
    · rw [writePhys_only]
    · rfl

theorem writeBack_cdcs (k : Nat) (s : State) (e : CLine) : (writeBack k s e).cdcs = s.cdcs := by
  unfold writeBack
  dsimp only
  split
  · rw [tickCross_only]
    exact putMasked_cdcs _ _ _ _ _
  · rfl

/-! ### The lines of a CDC and of its eviction buffer (R158, R161, R163) -/

theorem mem_of_mfind {α : Type} {m : Map α} {k : Nat} {v : α} (h : mfind m k = some v) : (k, v) ∈ m := by
  induction m with
  | nil => cases h
  | cons e m ih =>
    obtain ⟨j, u⟩ := e
    rw [mfind] at h
    split at h
    · rename_i hk
      cases h
      rw [hk]
      exact List.mem_cons_self
    · exact List.mem_cons_of_mem _ (ih h)

/-- Each line that a CDC or its eviction buffer holds has a number and a home that meet `P`. -/
def LinesMeet (P : Nat → Nat → Prop) (x : Cdc) : Prop :=
  (∀ e ∈ x.evict, P e.line e.home) ∧ ∀ e ∈ x.lines, P e.2.line e.2.home

section Lines
variable {P : Nat → Nat → Prop} {x : Cdc}

theorem LinesMeet.putLine (h : LinesMeet P x) {y : CLine} (hy : P y.line y.home) (way : Nat) : LinesMeet P (putLine x way y) := by
  refine ⟨h.1, fun e he => ?_⟩
  rcases mem_mins he with rfl | hOld
  · exact hy
  · exact h.2 e hOld

/-- A line that is put in a way leaves the eviction buffer with, at most, the line that it displaces. -/
theorem LinesMeet.installLine (h : LinesMeet P x) {y : CLine} (hy : P y.line y.home) (way : Nat) : LinesMeet P (installLine x way y) := by
  unfold Machine.installLine
  refine LinesMeet.putLine ?_ hy way
  split
  · rename_i o hFound
    split
    · refine ⟨fun e he => ?_, h.2⟩
      rcases List.mem_append.mp he with hOld | hNew
      · exact h.1 e hOld
      · rw [List.mem_singleton.mp hNew]
        exact h.2 _ (mem_of_mfind hFound)
    · exact h
  · exact h

theorem lineAt_of_findWay {line way : Nat} (h : findWay x line = some way) : ∃ k, (k, lineAt x way line) ∈ x.lines := by
  have hHolds := List.find?_some h
  unfold lineAt
  cases hFound : mfind x.lines (256 * way + lineSet line) with
  | none => rw [hFound] at hHolds; cases hHolds
  | some y => exact ⟨_, mem_of_mfind hFound⟩

end Lines

/-! ### One access (R158, R159, R162, R163) -/

section Access
variable {P : Nat → Nat → Prop} {k line a : Nat} {s : State}

theorem cdc_setCdc_same (s : State) (k : Nat) (x : Cdc) : (s.setCdc k x).cdc k = x := (cdc_setCdc s k k x).trans (if_pos rfl)

theorem giveAcc_only (k : Nat) (u : UAcc) (v : Nat) (s : State) : giveAcc k u v s = { s with cores := (giveAcc k u v s).cores } := by
  unfold giveAcc
  dsimp only
  repeat' split
  all_goals rfl

theorem giveAcc_cdc (k : Nat) (u : UAcc) (v : Nat) (s : State) (j : Nat) : (giveAcc k u v s).cdc j = s.cdc j := by
  rw [giveAcc_only]
  rfl

theorem serveAcc_only (s : State) (k : Nat) (u : UAcc) :
    serveAcc s k u = { s with cores := (serveAcc s k u).cores, cdcs := (serveAcc s k u).cdcs } := by
  unfold serveAcc
  dsimp only
  split
  · rfl
  · split
    · rfl
    · split
      · rfl
      · rw [giveAcc_only]
        rfl

theorem serveAcc_evict (s : State) (k : Nat) (u : UAcc) : ((serveAcc s k u).cdc k).evict = (s.cdc k).evict := by
  unfold serveAcc
  dsimp only
  split
  · rfl
  · split
    · rw [cdc_setCdc_same]
      rfl
    · split
      · rw [cdc_setCdc_same]
      · rw [giveAcc_cdc, cdc_setCdc_same]

/-- A store changes the data of its line, not its number and home; any other access leaves the lines. -/
theorem LinesMeet.serveAcc (h : LinesMeet P (s.cdc k)) (u : UAcc) : LinesMeet P ((serveAcc s k u).cdc k) := by
  unfold Machine.serveAcc
  dsimp only
  split
  · exact h
  · rename_i way hWay
    obtain ⟨_, hAt⟩ := lineAt_of_findWay hWay
    split
    · rw [cdc_setCdc_same]
      refine LinesMeet.putLine ?_ ?_ way
      · exact h
      · exact h.2 _ hAt
    · split
      · rw [cdc_setCdc_same]
        exact h
      · rw [giveAcc_cdc, cdc_setCdc_same]
        exact h

/-- The line image that comes back from the eviction buffer is the entry's, which leaves the buffer; where its write had started, it
reaches no byte outside its home. -/
theorem fetchLine_of_evicted {e : CLine} (h : (s.cdc k).evict.find? (fun e => e.line == line) = some e) (home : Nat) :
    let r := fetchLine s k line home
    r.1.line = e.line ∧ r.1.home = e.home ∧ r.2.cdc k = { s.cdc k with evict := (s.cdc k).evict.filter (fun y => y.line != line) }
      ∧ ∀ a, a < e.home ∨ e.home + 64 ≤ a → readPhys r.2 a 1 = readPhys s a 1 := by
  have hCdc := cdc_setCdc_same s k { s.cdc k with evict := (s.cdc k).evict.filter (fun y => y.line != line) }
  unfold fetchLine
  dsimp only
  rw [h]
  dsimp only
  split
  · split
    · refine ⟨rfl, rfl, ?_, fun a ha => (readPhys_writeBack_outside ha k _).trans rfl⟩
      rw [State.cdc, writeBack_cdcs]
      exact hCdc
    · exact ⟨rfl, rfl, hCdc, fun _ _ => rfl⟩
  · exact ⟨rfl, rfl, hCdc, fun _ _ => rfl⟩

theorem snoop_of_notEvicted (h : ∀ e ∈ (s.cdc k).evict, e.line ≠ line) : snoop k line s = s := by
  have hNone : (s.cdc k).evict.find? (fun e => e.line == line) = none := by simpa using h
  unfold snoop
  dsimp only
  rw [hNone]
  split
  · rename_i hSome
    cases hSome
  · rfl

theorem LinesMeet.snoop (h : LinesMeet P (s.cdc k)) (line : Nat) : LinesMeet P ((snoop k line s).cdc k) := by
  unfold Machine.snoop
  dsimp only
  split
  · rename_i e _ hFound
    obtain ⟨hLine, hHome, hCdc, -⟩ := fetchLine_of_evicted hFound e.home
    rw [cdc_setCdc_same]
    refine LinesMeet.installLine ?_ ?_ _
    · rw [hCdc]
      exact ⟨fun y hy => h.1 y (List.mem_of_mem_filter hy), h.2⟩
    · rw [hLine, hHome]
      exact h.1 e (List.mem_of_find?_eq_some hFound)
  · exact h

theorem readPhys_snoop (h : ∀ e ∈ (s.cdc k).evict, e.line = line → a < e.home ∨ e.home + 64 ≤ a) :
    readPhys (snoop k line s) a 1 = readPhys s a 1 := by
  unfold snoop
  dsimp only
  split
  · rename_i e _ hFound
    obtain ⟨-, -, -, hBytes⟩ := fetchLine_of_evicted hFound e.home
    exact hBytes a (h e (List.mem_of_find?_eq_some hFound) (by simpa using List.find?_some hFound))
  · rfl

theorem startMiss_lines (x : Cdc) : (startMiss x).lines = x.lines ∧ (startMiss x).evict = x.evict := by
  unfold startMiss
  repeat' split
  all_goals exact ⟨rfl, rfl⟩

/-- An access serves a line that is present, or is queued after the snoop of the eviction buffer. -/
theorem makeAcc_cases (k : Nat) (u : UAcc) (s : State) :
    makeAcc k u s = serveAcc s k u ∨ ∃ x, makeAcc k u s = (snoop k (u.va / 64) s).setCdc k x
      ∧ x.lines = ((snoop k (u.va / 64) s).cdc k).lines ∧ x.evict = ((snoop k (u.va / 64) s).cdc k).evict := by
  unfold makeAcc
  dsimp only
  split
  · exact .inl rfl
  · exact .inr ⟨_, rfl, startMiss_lines _⟩

/-- An access whose line is not in the eviction buffer leaves the buffer and both memories. -/
theorem makeAcc_of_notEvicted (u : UAcc) (h : ∀ e ∈ (s.cdc k).evict, e.line ≠ u.va / 64) :
    ((makeAcc k u s).cdc k).evict = (s.cdc k).evict ∧ (makeAcc k u s).hostMem = s.hostMem ∧ (makeAcc k u s).devMem = s.devMem := by
  rcases makeAcc_cases k u s with hServed | ⟨x, hQueued, -, hEvict⟩
  · rw [hServed]
    refine ⟨serveAcc_evict s k u, ?_, ?_⟩ <;> rw [serveAcc_only]
  · rw [snoop_of_notEvicted h] at hQueued hEvict
    rw [hQueued, cdc_setCdc_same]
    exact ⟨hEvict, rfl, rfl⟩

theorem LinesMeet.makeAcc (h : LinesMeet P (s.cdc k)) (u : UAcc) : LinesMeet P ((makeAcc k u s).cdc k) := by
  rcases makeAcc_cases k u s with hServed | ⟨x, hQueued, hLines, hEvict⟩
  · rw [hServed]
    exact h.serveAcc u
  · rw [hQueued, cdc_setCdc_same, LinesMeet, hLines, hEvict]
    exact h.snoop _

/-- An access reaches no byte of memory outside the homes that the eviction buffer gives its line. -/
theorem readPhys_makeAcc (u : UAcc) (h : ∀ e ∈ (s.cdc k).evict, e.line = u.va / 64 → a < e.home ∨ e.home + 64 ≤ a) :
    readPhys (makeAcc k u s) a 1 = readPhys s a 1 := by
  rcases makeAcc_cases k u s with hServed | ⟨x, hQueued, -, -⟩
  · rw [hServed, serveAcc_only]
    rfl
  · rw [hQueued]
    exact readPhys_snoop h

end Access

/-! ### The accesses of a row -/

section Accesses
variable {k : Nat} {s : State} {named : Nat → Prop} {xs : List (Nat × Nat)} {acc : Nat × Nat → UAcc}

/-- Accesses to lines that the eviction buffer does not hold leave both memories. -/
theorem foldAccs_memories (hNamed : ∀ p ∈ xs, named ((acc p).va / 64)) (hEvict : ∀ e ∈ (s.cdc k).evict, ¬ named e.line) :
    (foldState xs (fun p a => makeAcc k (acc p) a) s).hostMem = s.hostMem
      ∧ (foldState xs (fun p a => makeAcc k (acc p) a) s).devMem = s.devMem := by
  refine (foldState_keeps (P := fun t => (t.cdc k).evict = (s.cdc k).evict ∧ t.hostMem = s.hostMem ∧ t.devMem = s.devMem)
    (fun p hp t ht => ?_) ⟨rfl, rfl, rfl⟩).2
  obtain ⟨hBuffer, hHost, hDev⟩ := ht
  obtain ⟨hBuffer', hHost', hDev'⟩ := makeAcc_of_notEvicted (k := k) (s := t) (acc p) (fun e he hLine =>
    hEvict e (hBuffer ▸ he) (hLine ▸ hNamed p hp))
  exact ⟨hBuffer'.trans hBuffer, hHost'.trans hHost, hDev'.trans hDev⟩

/-- Accesses reach no byte outside the homes of the lines they name. -/
theorem readPhys_foldAccs {a : Nat} (hNamed : ∀ p ∈ xs, named ((acc p).va / 64))
    (hLines : LinesMeet (fun line home => named line → a < home ∨ home + 64 ≤ a) (s.cdc k)) :
    readPhys (foldState xs (fun p a => makeAcc k (acc p) a) s) a 1 = readPhys s a 1 := by
  refine (foldState_keeps (P := fun t => LinesMeet (fun line home => named line → a < home ∨ home + 64 ≤ a) (t.cdc k)
    ∧ readPhys t a 1 = readPhys s a 1) (fun p hp t ht => ?_) ⟨hLines, rfl⟩).2
  obtain ⟨hMeet, hRead⟩ := ht
  exact ⟨hMeet.makeAcc (acc p), (readPhys_makeAcc (acc p) fun e he hLine => hMeet.1 e he (hLine ▸ hNamed p hp)).trans hRead⟩

end Accesses

/-! ### The rows -/

section Rows
variable {s : State} {c : Fin 512} {g : Fin 32} {w : W128} {l : Nat} {x : Launch} {hs : List Nat}

/-- A row that meets no error steps its lane group and acts. -/
theorem unpRow_next {op : Nat} {atom : Option Nat} {atomic write sized : Bool} {act : State → Nat → Lg → List Nat → List Nat → State}
    (h : UnpIssues s c g op atom atomic write sized w l x hs) :
    unpRow op atom atomic write sized act c g w s =
      .next (act (setLg s c g (stepPc (getLg s c g))) l (getLg s c g) (unpLanes (getLg s c g) w) hs) := by
  obtain ⟨hWord, hIssues, hLaunch, hDone, hCheck, hHomes, hRuns⟩ := h
  rw [unpRow, coreRow_next hWord hIssues, hLaunch]
  dsimp only
  rw [hDone, hCheck, hHomes]
  dsimp only
  rw [if_pos hRuns]
  rfl

theorem exec_unpLd (h : UnpIssues s c g 0 none false false true w l x hs) :
    exec (.unpLd c g w) s =
      let y := getLg s c g
      .next (foldState ((unpLanes y w).zip hs) (fun p a => makeAcc (c / 4) ⟨c % 4, g, 0, unpVa y w p.1, p.2, unpSize w,
        if bitOf (wMod w) 2 then activeLanes y w else [p.1], wDst w, 0, 0, 0, false⟩ a) (setLg s c g (stepPc y))) := by
  change execUnpLd c g w s = _
  rw [execUnpLd, unpRow_next h]

theorem exec_unpSt (h : UnpIssues s c g 1 none false true true w l x hs) :
    exec (.unpSt c g w) s =
      let y := getLg s c g
      let data := fun lane => if unpSize w = 8 then vsrc64 y w (wB w) lane else vsrc y w (wB w) lane
      .next (foldState ((unpLanes y w).zip hs) (fun p a => makeAcc (c / 4) ⟨c % 4, g, 1, unpVa y w p.1, p.2, unpSize w, [p.1], 0,
        BitVec.ofNat 64 (data p.1), 0, 0, false⟩ a) (setLg s c g (stepPc y))) := by
  change execUnpSt c g w s = _
  rw [execUnpSt, unpRow_next h]

theorem exec_unpLfill (h : UnpIssues s c g 3 none false false false w l x hs) :
    exec (.unpLfill c g w) s =
      let y := getLg s c g
      .next (foldState ((unpLanes y w).zip hs) (fun p a => makeAcc (c / 4) ⟨c % 4, g, 2, unpVa y w p.1 - unpVa y w p.1 % 64, p.2, 64, [],
        0, 0, field (wImm w) 0 4, 0, false⟩ a) (setLg s c g (stepPc y))) := by
  change execUnpLfill c g w s = _
  rw [execUnpLfill, unpRow_next h]

theorem exec_unpWb (h : UnpIssues s c g 4 none false false false w l x hs) :
    exec (.unpWb c g w) s =
      let y := getLg s c g
      .next (foldState (unpLanes y w) (fun lane a => cleanLine (c / 4) (unpVa y w lane / 64) a) (setLg s c g (stepPc y))) := by
  change execUnpWb c g w s = _
  rw [execUnpWb, unpRow_next h]

theorem exec_unpInv (h : UnpIssues s c g 5 none false false false w l x hs) :
    exec (.unpInv c g w) s =
      let y := getLg s c g
      .next (foldState (unpLanes y w) (fun lane a => invLine (c / 4) (unpVa y w lane / 64) a) (setLg s c g (stepPc y))) := by
  change execUnpInv c g w s = _
  rw [execUnpInv, unpRow_next h]

/-- The lines that the lanes of an unplanned row name. -/
def unpNames (y : Lg) (w : W128) (line : Nat) : Prop := ∃ lane ∈ unpLanes y w, unpVa y w lane / 64 = line

/-- A load, store or lock-fill makes one access for each of its lanes, to the line that the lane names. -/
theorem exec_accesses {t : State}
    (h : (UnpIssues s c g 0 none false false true w l x hs ∧ exec (.unpLd c g w) s = .next t)
      ∨ (UnpIssues s c g 1 none false true true w l x hs ∧ exec (.unpSt c g w) s = .next t)
      ∨ (UnpIssues s c g 3 none false false false w l x hs ∧ exec (.unpLfill c g w) s = .next t)) :
    ∃ acc : Nat × Nat → UAcc, (∀ p ∈ (unpLanes (getLg s c g) w).zip hs, unpNames (getLg s c g) w ((acc p).va / 64))
      ∧ t = foldState ((unpLanes (getLg s c g) w).zip hs) (fun p a => makeAcc (c / 4) (acc p) a) (setLg s c g (stepPc (getLg s c g))) := by
  rcases h with ⟨hIssues, hNext⟩ | ⟨hIssues, hNext⟩ | ⟨hIssues, hNext⟩
  · rw [exec_unpLd hIssues] at hNext
    cases hNext
    exact ⟨_, fun p hp => ⟨p.1, (List.of_mem_zip hp).1, rfl⟩, rfl⟩
  · rw [exec_unpSt hIssues] at hNext
    cases hNext
    exact ⟨_, fun p hp => ⟨p.1, (List.of_mem_zip hp).1, rfl⟩, rfl⟩
  · rw [exec_unpLfill hIssues] at hNext
    cases hNext
    exact ⟨_, fun p hp => ⟨p.1, (List.of_mem_zip hp).1, by dsimp only; omega⟩, rfl⟩

end Rows

/-! ### Atomics (R116, R117, R164) -/

section Atomics
variable {s : State} {c : Fin 512} {g : Fin 32} {w : W128} {l : Nat} {x : Launch} {hs : List Nat}

/-- The flags that an atomic of a code raises from the old value and the operand: those of FADD (R116). -/
def atomFlags (code o b : Nat) : AFlags := if code = 1 then (fp32Op2 fvAdd o b).2 else 0

theorem exec_atomRows : ∀ e ∈ atomRows, ∀ c g w s, exec (e.1 c g w) s = atomRow e.2.1 e.2.2 (atomFlags e.2.1) c g w s := by
  intro e he
  fin_cases he <;> exact fun _ _ _ _ => rfl

/-- An atomic row: its lanes in ascending order. -/
theorem exec_atom {e : CoreRow × Nat × (Nat → Nat → Nat → Nat → Nat)} (he : e ∈ atomRows)
    (h : UnpIssues s c g 2 (some e.2.1) true true true w l x hs) :
    exec (e.1 c g w) s =
      let y := getLg s c g
      .next (foldState ((unpLanes y w).zip hs) (fun p a => atomLane (e.2.2 (8 * unpSize w)) (atomFlags e.2.1) c g w y p.1 p.2
        (if bitOf (wMod w) 2 then activeLanes y w else [p.1]) a) (setLg s c g (stepPc y))) := by
  rw [exec_atomRows e he, atomRow, unpRow_next h]

/-- A line that neither the ways nor the eviction buffer hold is written back nowhere. -/
theorem invLine_of_absent {k line : Nat} {s : State} (hEvict : (s.cdc k).evict = []) (hWay : findWay (s.cdc k) line = none) :
    invLine k line s = s.setCdc k (s.cdc k) := by
  have hClean : cleanLine k line s = s.setCdc k (s.cdc k) := by
    unfold cleanLine
    dsimp only
    rw [hWay, hEvict, show ({ s.cdc k with evict := [].filter (fun e => e.line != line) } : Cdc) = s.cdc k by rw [List.filter_nil, ← hEvict]]
    rfl
  unfold invLine
  dsimp only
  rw [hClean, cdc_setCdc_same, hWay]

theorem coreFlags_cdc (s : State) (c : Nat) (fl : AFlags) (k : Nat) : (coreFlags s c fl).cdc k = s.cdc k := by
  rw [coreFlags_only]
  rfl

/-- A lane of an atomic whose line the CDC does not hold leaves the CDC, and every byte outside its own. -/
theorem atomLane_of_absent {f : Nat → Nat → Nat → Nat} {fl : Nat → Nat → AFlags} {y : Lg} {lane home a : Nat} {outs : List Nat}
    (hEvict : (s.cdc (c / 4)).evict = []) (hWay : findWay (s.cdc (c / 4)) (unpVa y w lane / 64) = none)
    (hOutside : a < home + unpVa y w lane % 64 ∨ home + unpVa y w lane % 64 + unpSize w ≤ a) :
    (atomLane f fl c g w y lane home outs s).cdc (c / 4) = s.cdc (c / 4)
      ∧ readPhys (atomLane f fl c g w y lane home outs s) a 1 = readPhys s a 1 := by
  unfold atomLane
  dsimp only
  rw [invLine_of_absent hEvict hWay]
  constructor
  · rw [coreFlags_cdc, writePhys_only]
    exact cdc_setCdc_same _ _ _
  · rw [coreFlags_only]
    exact (readPhys_writePhys_outside (by rw [leBytes_length]; exact hOutside) _).trans rfl

end Atomics

/-- Settles O40: the rows are folds of one lane's access or atomic; an access can write memory only by the snoop of the eviction buffer, and
an atomic whose lines the CDC does not hold only at its own bytes. -/
theorem unplannedAccesses : Obligations.UnplannedAccesses := by
  refine ⟨?memory, fun s c g w l x hs => exec_unpLd, fun s c g w l x hs => exec_unpSt, fun s c g w l x hs => exec_unpLfill,
    fun s c g w l x hs => ⟨exec_unpWb, exec_unpInv⟩, fun s c g w l x hs e he => exec_atom he, ?atomic⟩
  case memory =>
    intro s t c g w l x hs hRow k named
    obtain ⟨acc, hNames, rfl⟩ := exec_accesses hRow
    have hNamed : ∀ e : CLine, unpNames (getLg s c g) w e.line → named e = true := by
      rintro e ⟨lane, hLane, hLine⟩
      exact List.any_eq_true.mpr ⟨lane, hLane, beq_iff_eq.mpr hLine⟩
    refine ⟨fun hNone => ?_, fun a hOutside => ?_⟩
    · refine foldAccs_memories hNames fun e he hLine => ?_
      exact absurd (hNamed e hLine) (List.any_eq_false.mp hNone e he)
    · refine (readPhys_foldAccs hNames ⟨fun e he hLine => ?_, fun e he hLine => ?_⟩).trans rfl
      · exact hOutside e (List.mem_append_left _ he) (hNamed e hLine)
      · exact hOutside e.2 (List.mem_append_right _ (List.mem_map_of_mem he)) (hNamed e.2 hLine)
  case atomic =>
    intro s t c g w l x hs e he hIssues hEvict hWays hNext a hOutside
    rw [exec_atom he hIssues] at hNext
    cases hNext
    refine (foldState_keeps (s := setLg s c g (stepPc (getLg s c g)))
      (P := fun t => t.cdc (c / 4) = s.cdc (c / 4) ∧ readPhys t a 1 = readPhys s a 1) (fun p hp t ht => ?_) ⟨rfl, rfl⟩).2
    obtain ⟨hCdc, hRead⟩ := ht
    obtain ⟨hCdc', hRead'⟩ := atomLane_of_absent (by rw [hCdc, hEvict]) (by rw [hCdc]; exact hWays p.1 (List.of_mem_zip hp).1)
      (hOutside p hp)
    exact ⟨hCdc'.trans hCdc, hRead'.trans hRead⟩

end Sys2Proof.Machine
end

section
/-! SUPPORT. Proofs about the events of tile rendering (O43), each in the case where its conditions hold and every range translates. -/

namespace Sys2Proof.Machine

variable {s : State} {l : Nat} {x : Launch} {pl : Plan} {k : Ctx} {i : Nat} {rest : List Nat}

/-! ### Starts of passes (R125, R127, R133, R142) -/

section Geometry
variable {r : Nat}

/-- What the start of a pass's geometry reads of its draw list and writes of its bins. -/
def geometryRanges (s : State) (k : Ctx) (x : Launch) (p : PassRec) (rel : Nat) : List (Nat × Nat × Bool) :=
  if p.submitMax = 0 then []
  else (argAt x p.argDraws, 32 + 32 * drawCount s k (argAt x p.argDraws), false)
    :: (if p.binned then [(binBase x p rel, passTiles p * 160, true)] else [])

/-- The state with the region's bin headers of a pass emptied. -/
def binsEmptied (s : State) (k : Ctx) (x : Launch) (p : PassRec) (r : Nat) : State :=
  if p.binned && p.submitMax != 0 then
    foldState (List.range (passTiles p)) (fun t a => pokeOver (r / 8) k (headerVa x p (s.rgn r).rel t) emptyHeader a) s
  else s

/-- A region's geometry at its first batch of a pass, with nothing binned. -/
def firstBatch (s : State) (r : Nat) : Geo :=
  { (s.rgn r).geo with
    batch := (s.rgn r).rel, chunks := 0, prims := 0, entries := 0, full := false, extra := [], round := false }

/-- A draw list within SUBMIT_MAX: the bins are emptied and the region's first batch is gathered. -/
theorem startGeo_gathers {g : Geo} (hEnv : gfxEnv s r = some (l, x, pl, k)) (hPasses : (s.rgn r).geo.passes = i :: rest)
    (hActive : (s.rgn r).geo.active = false) (hWait : (s.rgn r).geo.wait = false) (hArgs : passArgsLocal x (passAt pl i) = true)
    (hRanges : rangeBad s k (geometryRanges s k x (passAt pl i) (s.rgn r).rel) = none)
    (hSubmit : ((drawsOf s k x (passAt pl i)).map (·.prims)).sum ≤ (passAt pl i).submitMax)
    (hGather : gatherBatch (binsEmptied s k x (passAt pl i) r) k x (passAt pl i) i (firstBatch s r) = .ok g) :
    startGeo r s = setGeo (countRgnBytes r (gatherBytes (binsEmptied s k x (passAt pl i) r) k x (passAt pl i) (firstBatch s r))
      (binsEmptied s k x (passAt pl i) r)) r g := by
  unfold geometryRanges at hRanges
  simp only [binsEmptied, firstBatch, hPasses, hActive, hWait] at hGather ⊢
  simp only [startGeo, hEnv, hPasses, hActive, hWait, hArgs, hRanges, Nat.not_lt.mpr hSubmit, hGather, if_false, Bool.or_self,
    Bool.not_true, Bool.false_eq_true]

/-- A region whose geometry is done starts no further batch. -/
theorem startGeo_of_done (hEnv : gfxEnv s r = some (l, x, pl, k)) (hPasses : (s.rgn r).geo.passes = []) : startGeo r s = s := by
  rw [startGeo, hEnv, hPasses]

end Geometry

section Core
variable {c : Fin 512}

theorem exec_passStart : exec (.passStart c) s = .next (startPass c (startGeo (c / 32) s)) := rfl

/-- The static footprint of a pass, which is staged at its start: a BINNED pass has none (R142). -/
def staticFoot (p : PassRec) : List (List Nat) := if p.binned then [] else staticBlocks p

/-- A core starts its next pass once the pass's geometry is done. -/
theorem startPass_starts {round : Bool} (hEnv : gfxEnv s (c / 32) = some (l, x, pl, k)) (hPausing : pausing x = false)
    (hPass : curPass (gfxOn s c) = some (i, round)) (hStarted : (gfxOn s c).started = false)
    (hArgs : passArgsLocal x (passAt pl i) = true) (hGeo : geoReady s x i (passAt pl i) = true)
    (hFoot : rangeBad s k ((staticFoot (passAt pl i)).map (fun b => (footVa x (passAt pl i) b, 1024, false))) = none) :
    startPass c s =
      leavePass c (setGfx (countRgnBytes (c / 32) (1024 * (staticFoot (passAt pl i)).length)
        (stageBlocks s k x (passAt pl i) c 0 (staticFoot (passAt pl i)))) c
        { gfxOn s c with
          started := true, tiles := tilesOf (passAt pl i) pl.regionCount (coreRel s c) (c % 32), count := 0
          foot := staticFoot (passAt pl i), footBuf := 0 }) := by
  unfold staticFoot at hFoot ⊢
  simp only [startPass, hEnv, hPass, hStarted, hPausing, hGeo, hArgs, hFoot, Bool.or_self, Bool.not_true, Bool.false_eq_true, if_false]

end Core

/-! ### Binning (R133 to R136) -/

section Binning
variable {r : Fin 16}

/-- A batch whose vertices are all shaded, and in its turn where the pass is binned, is set up, binned and finished. -/
theorem exec_batchBinned {y : Launch} {b : Batch} {t : State} (hEnv : gfxEnv s r = some (l, x, pl, k))
    (hPasses : (s.rgn r).geo.passes = i :: rest) (hActive : (s.rgn r).geo.active = true) (hItems : (s.rgn r).geo.items = [])
    (hOutstanding : (s.rgn r).geo.outstanding = 0) (hTurn : (passAt pl i).binned = false ∨ lowerBatch s x i r (s.rgn r).geo.batch = false)
    (hBatch : (batchesOf (drawsOf s k x (passAt pl i)))[(s.rgn r).geo.batch]? = some b)
    (hBin : binBatch l pl k i r ((drawsOf s k x (passAt pl i)).getD b.1 ⟨0, 0, false, false, 0, 0⟩) b b.2.2.1 0 s = (t, false))
    (hLaunch : t.launch? l = some y) :
    exec (.batchBinned r) s = .next (finishBatch l y pl k i r b.1 (batchesOf (drawsOf s k x (passAt pl i))) t) := by
  have hGoes : ((passAt pl i).binned && lowerBatch s x i r (s.rgn r).geo.batch) = false := Bool.and_eq_false_iff.mpr hTurn
  change execBatchBinned r s = _
  simp only [execBatchBinned, hEnv, hPasses, hActive, hItems, hOutstanding, hGoes, hBatch, hBin, hLaunch]
  rfl

/-- A region that waits with a full pool calls the round once no region on the pass has called it or is within a batch. -/
theorem exec_binPoolFull (hEnv : gfxEnv s r = some (l, x, pl, k)) (hPasses : (s.rgn r).geo.passes = i :: rest)
    (hFull : (s.rgn r).geo.full = true) (hWait : (s.rgn r).geo.wait = true)
    (hPeers : ∀ n ∈ x.regions, (s.rgn n).geo.passes.head? = some i → (s.rgn n).geo.round = false ∧ (s.rgn n).geo.begun = false) :
    exec (.binPoolFull r) s = .next (foldState (x.regions.flatMap coresOf) (fun c a =>
      let g := gfxOn a c
      setGfx a c { g with passes := if g.started then g.passes.take 1 ++ (256 + i) :: g.passes.drop 1 else (256 + i) :: g.passes })
      (setGeo s r { (s.rgn r).geo with round := true })) := by
  have hNone : (x.regions.filter (fun n => (s.rgn n).geo.passes.head? == some i)).any
      (fun n => (s.rgn n).geo.round || (s.rgn n).geo.begun) = false := by
    refine List.any_eq_false.mpr fun n hn => ?_
    obtain ⟨hRegion, hHead⟩ := List.mem_filter.mp hn
    obtain ⟨hRound, hBegun⟩ := hPeers n hRegion (beq_iff_eq.mp hHead)
    rw [hRound, hBegun]
    exact Bool.false_ne_true
  change execBinPoolFull r s = _
  simp only [execBinPoolFull, hEnv, hPasses, hFull, hWait, hNone]
  rfl

end Binning

/-! ### Staging (R134, R139, R141, R144) -/

section Staging
variable {c : Fin 512} {round : Bool} {t : Nat}

/-- The attachments of a pass that staging a tile loads. -/
def loadedAttach (x : Launch) (p : PassRec) (i : Nat) : List (Attach × Nat) :=
  p.attach.zipIdx.filter (fun a => loads a.1 (x.rounded.contains i))

/-- The bin lists and the surface bytes that staging a tile reads. -/
def stagingRanges (s : State) (k : Ctx) (x : Launch) (pl : Plan) (i t : Nat) : List (Nat × Nat × Bool) :=
  let p := passAt pl i
  (if p.binned && p.submitMax != 0 then List.range pl.regionCount else []).flatMap (fun rel => tileRanges s k x pl p rel t)
    ++ (loadedAttach x p i).flatMap (fun a => surfRanges p a.1 (argAt x a.1.argSurface) (passSamples p) (extentPixels p t) false)

/-- A tile as it stands staged on a core: a BINNED pass takes slots and footprint buffers in turn, a DIRECT pass keeps its static one. -/
def stagedTile (s : State) (k : Ctx) (x : Launch) (pl : Plan) (c i t : Nat) : Staged :=
  let g := gfxOn s c
  if (passAt pl i).binned then ⟨t, g.count % 2, g.count % 2, tileFoot s k x pl i t, tilePrims s k x pl i t⟩
  else ⟨t, g.count, 0, g.foot, tilePrims s k x pl i t⟩

/-- A tile within the bounds of its pass is staged and the core's tiles are moved on. -/
theorem exec_tileStagingDone (hEnv : gfxEnv s (c / 32) = some (l, x, pl, k)) (hPass : curPass (gfxOn s c) = some (i, round))
    (hTiles : (gfxOn s c).tiles = t :: rest) (hStarted : (gfxOn s c).started = true) (hNext : (gfxOn s c).next = none)
    (hSlot : (passAt pl i).binned = true → (gfxOn s c).writing = none ∧ pausing x = false)
    (hLists : rangeBad s k (stagingRanges s k x pl i t) = none)
    (hFoot : rangeBad s k ((tileFoot s k x pl i t).map (fun b => (footVa x (passAt pl i) b, 1024, false))) = none)
    (hBlocks : (tileFoot s k x pl i t).length ≤ (passAt pl i).footBlocks)
    (hEntries : (tilePrims s k x pl i t).length ≤ (passAt pl i).tileEntries)
    (hTop : stageTop (passAt pl i) (stagedTile s k x pl c i t).slot (stagedTile s k x pl c i t).buf ≤ usableTop s) :
    exec (.tileStagingDone c) s =
      let p := passAt pl i
      let n := stagedTile s k x pl c i t
      let foot := tileFoot s k x pl i t
      let moved := ((stagingRanges s k x pl i t).map (·.2.1)).sum + (if p.binned then 1024 * foot.length else 0)
      .next (settleTile l pl c (setGfx (countRgnBytes (c / 32) moved
        (foldState (loadedAttach x p i) (loadAttach k x p c n.slot t) (if p.binned then stageBlocks s k x p c n.buf foot else s))) c
        { gfxOn s c with tiles := rest, count := (gfxOn s c).count + 1, next := some n })) := by
  have hGoes : ((passAt pl i).binned && ((gfxOn s c).writing != none || pausing x)) = false := by
    cases hBinned : (passAt pl i).binned with
    | false => rfl
    | true =>
      obtain ⟨hWriting, hPausing⟩ := hSlot hBinned
      rw [hWriting, hPausing]
      rfl
  have hWithin : (decide ((passAt pl i).footBlocks < (tileFoot s k x pl i t).length)
      || decide ((passAt pl i).tileEntries < (tilePrims s k x pl i t).length)) = false := by
    simp only [Nat.not_lt.mpr hBlocks, Nat.not_lt.mpr hEntries, decide_false, Bool.or_self]
  unfold stagingRanges loadedAttach at hLists ⊢
  unfold stagedTile at hTop ⊢
  change execTileStagingDone c s = _
  simp only [execTileStagingDone, hEnv, hPass, hTiles, hStarted, hNext, hGoes, hLists, List.take_of_length_le hBlocks, hFoot, hWithin,
    Nat.not_lt.mpr hTop, if_false, Bool.or_self, bne_self_eq_false, Bool.not_true, Bool.false_eq_true]

end Staging

/-! ### Blending and write-out (R132, R136, R143, R145, R149) -/

section Output
variable {c : Fin 512} {round : Bool}

/-- The oldest item, finished and not blended at a TWAIT before, is counted, blended and taken off the core's list. -/
theorem exec_fragmentBlended {it : GItem} (hEnv : gfxEnv s (c / 32) = some (l, x, pl, k)) (hPass : curPass (gfxOn s c) = some (i, round))
    (hOldest : nextBlend s c (gfxOn s c).active = some (it, none)) (hBlended : it.blended = false) :
    exec (.fragmentBlended c) s =
      let t := blendItem c (passAt pl i) (gfxOn s c).slot it (countOverdraw l pl c (passAt pl i) it s)
      .next (gfxPoint (c / 32) (settleTile l pl c (setGfx t c { gfxOn t c with
        active := (gfxOn t c).active.filter (fun e => e.num != it.num) }))) := by
  change execFragmentBlended c s = _
  simp only [execFragmentBlended, hEnv, hPass, hOldest, hBlended, Bool.false_and, Bool.false_eq_true, if_false]

/-- The tile in write-out is stored, and the core leaves its pass with its last tile. -/
theorem exec_tileWriteOutDone {t : Nat} (hEnv : gfxEnv s (c / 32) = some (l, x, pl, k)) (hPass : curPass (gfxOn s c) = some (i, round))
    (hWriting : (gfxOn s c).writing = some t)
    (hRanges : rangeBad s k ((passAt pl i).attach.flatMap (storeRanges x (passAt pl i) round t)) = none) :
    exec (.tileWriteOutDone c) s =
      let p := passAt pl i
      let u := foldState p.attach.zipIdx (storeAttach k x p round c (gfxOn s c).wslot t) s
      let n := ((p.attach.flatMap (storeRanges x p round t)).map (·.2.1)).sum
      .next (gfxPoint (c / 32) (leavePass c (settleTile l pl c (countRgnBytes (c / 32) n
        (setGfx u c { gfxOn s c with writing := none }))))) := by
  change execTileWriteOutDone c s = _
  simp only [execTileWriteOutDone, hEnv, hPass, hWriting, hRanges]

end Output

/-- Settles O43, clause by clause from the lemma about each event; a pass starts on the region's geometry first, then on the core. -/
theorem renderingEvents : Obligations.RenderingEvents := by
  refine ⟨?geometry, ?pass, fun s r l x y pl k i rest b t => exec_batchBinned, fun s r l x pl k i rest => exec_binPoolFull, ?staging,
    fun s c l x pl k i b it => exec_fragmentBlended, fun s c l x pl k i b t => exec_tileWriteOutDone⟩
  case geometry =>
    intro s c l x pl k i rest g hEnv hPasses p r emptied first hActive hWait hArgs hRanges hSubmit hGather
    rw [exec_passStart, startGeo_gathers hEnv hPasses hActive hWait hArgs hRanges hSubmit hGather]
    rfl
  case pass =>
    intro s c l x pl k i hEnv hPasses hPausing hPass hStarted hArgs hGeo p foot hFoot
    rw [exec_passStart, startGeo_of_done hEnv hPasses, startPass_starts hEnv hPausing hPass hStarted hArgs hGeo hFoot]
    rfl
  case staging =>
    intro s c l x pl k i b t rest hEnv hPass hTiles hStarted hNext p ins rels foot n hSlot ranges moved hLists hFoot hBlocks hEntries hTop
    exact exec_tileStagingDone hEnv hPass hTiles hStarted hNext hSlot hLists hFoot hBlocks hEntries hTop

end Sys2Proof.Machine
end

section
/-! SUPPORT. Proofs about physical memory (O52). -/

namespace Sys2Proof.Machine

theorem bytesAt_putBytes_same (m : Map Byte) (pa : Nat) (bs : List Byte) : bytesAt (putBytes m pa bs) bs.length pa = bs := by
  induction bs generalizing m pa with
  | nil => rfl
  | cons b bs ih =>
    have hFirst : mget (putBytes m pa (b :: bs)) 0 pa = b := by
      rw [mget_putBytes, if_pos (by simp)]
      simp
    rw [List.length_cons, bytesAt, hFirst, putBytes, ih]

/-- The bytes of a write are in one memory, whatever they pass: a read of as many from there gives them back. -/
theorem readPhys_writePhys_same (s : State) (pa : Nat) (bs : List Byte) : readPhys (writePhys s pa bs) pa bs.length = bs := by
  obtain ⟨hDev, hHost⟩ := writePhys_memories s pa bs
  rw [readPhys, hDev, hHost]
  split <;> exact bytesAt_putBytes_same _ _ _

/-- Settles O52: what is read back, what a write leaves as it was, and the form of the memories. -/
theorem physicalMemory : Obligations.PhysicalMemory := fun s pa bs _ =>
  ⟨readPhys_writePhys_same s pa bs, fun _ hOutside => readPhys_writePhys_outside hOutside s, fun hWf => writePhys_wf hWf pa bs⟩

end Sys2Proof.Machine
end

section
/-! SUPPORT. Proofs about the events of the cluster data cache (O41). -/

namespace Sys2Proof.Machine

variable {s : State} {k : Fin 128}

/-- A fill that waits for nothing and places no lock-fill brings its line into the way that R161 picks. -/
theorem exec_cdcMissComplete {line home : Nat} (hMiss : (s.cdc k).miss = some (line, home))
    (hYoung : ((s.cdc k).queue.filter (fun a => a.va / 64 == line && a.home == home)).all (·.old) = false)
    (hNoFills : (s.cdc k).queue.all (fun a => a.kind != 2) = true) (hAbsent : findWay (s.cdc k) line = none)
    (hRoom : evictFull (s.cdc k) (victim (s.cdc k) line).1 line = false) (hMem : piecesRun s [(home, 64)] = true)
    (hRuns : rgnRuns s (k / 8) = true) :
    exec (.cdcMissComplete k) s =
      let x := s.cdc k
      let joins := fun (a : UAcc) => a.va / 64 == line && a.home == home
      let f := fetchLine (s.setCdc k { x with queue := x.queue.filter (fun a => !joins a), miss := none }) k line home
      let t := foldState (x.queue.filter joins) (fun a b => serveAcc b k a)
        (f.2.setCdc k (installLine { f.2.cdc k with lfsr := (victim x line).2 } (victim x line).1 f.1))
      .next (settleStacks (settleFrames (t.setCdc k (startMiss (t.cdc k))))) := by
  have hFills : ((s.cdc k).queue.filter (fun a => a.va / 64 == line && a.home == home)).filter (fun a => a.kind == 2) = [] := by
    refine List.filter_eq_nil_iff.mpr fun a ha => ?_
    simpa using List.all_eq_true.mp hNoFills a (List.mem_filter.mp ha).1
  change execCdcMissComplete k s = _
  simp [execCdcMissComplete, hMiss, hYoung, hFills, hAbsent, hRoom, hMem, hRuns]

theorem exec_evictionWriteComplete {e : CLine} {rest : List CLine} (hOldest : (s.cdc k).evict = e :: rest)
    (hMem : piecesRun s [(e.home, 64)] = true) (hRuns : rgnRuns s (k / 8) = true) :
    exec (.evictionWriteComplete k) s = .next ((writeBack k s e).setCdc k { s.cdc k with evict := rest }) := by
  change execEvictionWriteComplete k s = _
  simp only [execEvictionWriteComplete, hOldest, hMem, hRuns, Bool.and_self, if_true]

/-- Settles O41, clause by clause from the lemma about each event. -/
theorem cacheEvents : Obligations.CacheEvents :=
  ⟨fun _ _ _ _ hMiss hYoung hNoFills hAbsent hRoom hMem hRuns =>
      exec_cdcMissComplete hMiss hYoung hNoFills hAbsent hRoom hMem hRuns,
    fun _ _ _ _ hOldest hMem hRuns => exec_evictionWriteComplete hOldest hMem hRuns⟩

end Sys2Proof.Machine
end

section
/-! SUPPORT. What an operation keeps of the state that came before it (O47).

`Kept P s t` speaks of the whole way from `s` to `t`, so each lemma below says that one operation of the model goes on with it: from
`h : Kept P s t` follows `h.f : Kept P s (f t)`. The proof about an operation then is its own text read from the outside in: `h.f` for each
operation it applies, `.ite` for a branch, `.fold` for a sweep, `.set` for an update of other fields, and a case split where the operation
matches on what it reads. An operation with a `Keeps` lemma of an earlier section goes on by that lemma (`Kept.of`).
The sections that follow elaborate their many short lemmas one after another: a thread for each exceeds the check's memory. -/

namespace Sys2Proof.Machine

/-- Parts of the state beside the memories and the waiting commands. -/
structure Parts where
  sec : Bool
  oas : Bool
  safe : Bool

/-- From `s` to `t` the waiting commands stay and the memories stay in form; of the parts that `P` names, the security block and Oasis
stay, and the safe state is not left. -/
structure Kept (P : Parts) (s t : State) : Prop where
  pending : t.pending = s.pending
  wf : Memory.wf s = true → Memory.wf t = true
  sec : P.sec = true → t.sec = s.sec
  oas : P.oas = true → t.oas = s.oas
  safe : P.safe = true → s.flt.safe = true → t.flt.safe = true

/-- The state that a meaning answers, where it answers one. -/
def KeptBy (P : Parts) (s : State) (r : Result) : Prop := ∀ t, r = .next t → Kept P s t

variable {P : Parts} {kSec kOas kSafe : Bool} {s t u : State}

theorem Kept.refl (s : State) : Kept P s s := ⟨rfl, id, fun _ => rfl, fun _ => rfl, fun _ => id⟩

theorem Kept.trans (h : Kept P s t) (k : Kept P t u) : Kept P s u :=
  ⟨k.pending.trans h.pending, fun w => k.wf (h.wf w), fun p => (k.sec p).trans (h.sec p), fun p => (k.oas p).trans (h.oas p),
    fun p w => k.safe p (h.safe p w)⟩

/-- Going on with an operation that keeps all of these parts. -/
theorem Kept.of (h : Kept P s t) (k : Keeps t u) : Kept P s u :=
  h.trans ⟨k.pending, k.wf, fun _ => k.sec, fun _ => k.oas, fun _ => k.safe⟩

theorem Kept.ite {c : Prop} {_ : Decidable c} (h : Kept P s t) (k : Kept P s u) : Kept P s (if c then t else u) := by
  split
  · exact h
  · exact k

theorem Kept.when {c : Prop} {_ : Decidable c} {f : State → State} (h : Kept P s (f t)) (k : Kept P s t) :
    Kept P s ((if c then f else id) t) := by
  split
  · exact h
  · exact k

theorem Kept.fold {α : Type} {xs : List α} {f : α → State → State} (h : Kept P s t) (hf : ∀ x a, Kept P s a → Kept P s (f x a)) :
    Kept P s (foldState xs f t) :=
  foldState_keeps (fun x _ a ha => hf x a ha) h

/-- An update that may write the security block. -/
theorem Kept.setSec {free out now regs fe mem rgns cdcs cores link flt acct heads engines streams net clk pwr boot sec}
    (h : Kept ⟨false, kOas, kSafe⟩ s t) (hf : flt.safe = t.flt.safe := by rfl) :
    Kept ⟨false, kOas, kSafe⟩ s { t with
      free := free, out := out, now := now, regs := regs, fe := fe, mem := mem, rgns := rgns, cdcs := cdcs, cores := cores, link := link,
      flt := flt, acct := acct, heads := heads, engines := engines, streams := streams, net := net, clk := clk, pwr := pwr, boot := boot,
      sec := sec } :=
  ⟨h.pending, h.wf, nofun, h.oas, fun p w => hf.trans (h.safe p w)⟩

/-- An update that may write Oasis. -/
theorem Kept.setOas {free out now regs fe mem rgns cdcs cores link flt acct heads engines streams net clk pwr boot oas}
    (h : Kept ⟨kSec, false, kSafe⟩ s t) (hf : flt.safe = t.flt.safe := by rfl) :
    Kept ⟨kSec, false, kSafe⟩ s { t with
      free := free, out := out, now := now, regs := regs, fe := fe, mem := mem, rgns := rgns, cdcs := cdcs, cores := cores, link := link,
      flt := flt, acct := acct, heads := heads, engines := engines, streams := streams, net := net, clk := clk, pwr := pwr, boot := boot,
      oas := oas } :=
  ⟨h.pending, h.wf, h.sec, nofun, fun p w => hf.trans (h.safe p w)⟩

/-- An update that writes neither a memory, the waiting commands, the security block nor Oasis. -/
theorem Kept.set {free out now regs fe mem rgns cdcs cores link flt acct heads engines streams net clk pwr boot}
    (h : Kept P s t) (hf : flt.safe = t.flt.safe := by rfl) :
    Kept P s { t with
      free := free, out := out, now := now, regs := regs, fe := fe, mem := mem, rgns := rgns, cdcs := cdcs, cores := cores, link := link,
      flt := flt, acct := acct, heads := heads, engines := engines, streams := streams, net := net, clk := clk, pwr := pwr, boot := boot } :=
  ⟨h.pending, h.wf, h.sec, h.oas, fun p w => hf.trans (h.safe p w)⟩

/-- An operation that answers a value beside its state. -/
theorem Kept.ofFst {α : Type} {p : State × α} {b : α} (h : Kept P s p.1) (e : p = (t, b)) : Kept P s t := by
  rw [e] at h
  exact h

/-- The state in an option, where there is one. -/
def KeptSome (P : Parts) (s : State) (o : Option State) : Prop := ∀ u, o = some u → Kept P s u

/-- The state that a check lets through, where it does. -/
def KeptOk {ε : Type} (P : Parts) (s : State) (r : Except ε State) : Prop := ∀ u, r = .ok u → Kept P s u

theorem KeptBy.next (h : Kept P s t) : KeptBy P s (.next t) := by
  intro u e
  injection e with e
  exact e ▸ h

theorem KeptBy.ite {c : Prop} {_ : Decidable c} {q r : Result} (h : KeptBy P s q) (k : KeptBy P s r) : KeptBy P s (if c then q else r) := by
  split
  · exact h
  · exact k

theorem KeptBy.refused {e : Refusal} : KeptBy P s (.refused e) := fun _ e => by cases e

theorem KeptSome.some (h : Kept P s t) : KeptSome P s (some t) := by
  intro u e
  injection e with e
  exact e ▸ h

theorem KeptSome.none : KeptSome P s none := fun _ e => by cases e

theorem KeptSome.ite {c : Prop} {_ : Decidable c} {o r : Option State} (h : KeptSome P s o) (k : KeptSome P s r) :
    KeptSome P s (if c then o else r) := by
  split
  · exact h
  · exact k

theorem KeptSome.bind {o : Option State} {f : State → Option State} (h : KeptSome P s o) (hf : ∀ a, Kept P s a → KeptSome P s (f a)) :
    KeptSome P s (o.bind f) := by
  cases o with
  | none => exact .none
  | some a => exact hf a (h a rfl)

theorem Kept.getD {o : Option State} (h : KeptSome P s o) (k : Kept P s t) : Kept P s (o.getD t) := by
  cases o with
  | none => exact k
  | some a => exact h a rfl

theorem KeptOk.ok {ε : Type} (h : Kept P s t) : KeptOk P s (.ok t : Except ε State) := by
  intro u e
  injection e with e
  exact e ▸ h

theorem KeptOk.error {ε : Type} {e : ε} : KeptOk P s (.error e) := fun _ e => by cases e

end Sys2Proof.Machine
end

section
/-! SUPPORT. What the shared operations keep (O47). -/

set_option Elab.async false

namespace Sys2Proof.Machine

variable {P : Parts} {s t u : State}

theorem Kept.setDesc {q i : Nat} {d : Desc} (h : Kept P s t) : Kept P s (Machine.State.setDesc t q i d) := by
  unfold Machine.State.setDesc
  split
  · exact h
  · exact h.set

theorem Kept.wr {off v : Nat} (h : Kept P s t) : Kept P s (Machine.wr t off v) := h.of (wr_keeps ..)

theorem Kept.tickCross {ok : Bool} {n : Nat} (h : Kept P s t) : Kept P s (Machine.tickCross ok n t) := h.of (tickCross_keeps ..)

theorem Kept.logViol {kind fn answer place detail : Nat} (h : Kept P s t) : Kept P s (Machine.logViol t kind fn answer place detail) :=
  h.of (logViol_keeps ..)

theorem Kept.fireVec {v : Nat} (h : Kept P s t) : Kept P s (Machine.fireVec t v) := h.of (fireVec_keeps ..)

theorem Kept.raiseVec {v : Nat} (h : Kept P s t) : Kept P s (Machine.raiseVec t v) := h.of (raiseVec_keeps ..)

theorem Kept.settleMod {v : Nat} (h : Kept P s t) : Kept P s (Machine.settleMod v t) := by
  unfold Machine.settleMod
  split
  · exact h
  · split
    exact .ite (.fireVec h.set) h

theorem Kept.raiseIrq {fn k : Nat} (h : Kept P s t) : Kept P s (Machine.raiseIrq t fn k) := h.of (raiseIrq_keeps ..)

theorem Kept.newRecord {cls : Nat} {esc : Bool} {source unit code ctx info : Nat} (h : Kept P s t) :
    Kept P s (Machine.newRecord t cls esc source unit code ctx info) :=
  h.of (newRecord_keeps ..)

theorem Kept.signalFault {cls ctx : Nat} (h : Kept P s t) : Kept P s (Machine.signalFault t cls ctx) := h.of (signalFault_keeps ..)

theorem Kept.enterSafe (h : Kept P s t) : Kept P s (Machine.enterSafe t) := h.of (enterSafe_keeps ..)

theorem Kept.countRgnBytes {r n : Nat} (h : Kept P s t) : Kept P s (Machine.countRgnBytes r n t) := .ite h h.set

theorem Kept.faultEvent {cls source unit code ctx info : Nat} {fresh : optParam Bool false} (h : Kept P s t) :
    Kept P s (Machine.faultEvent t cls source unit code ctx info fresh) :=
  h.of (faultEvent_keeps ..)

theorem Kept.writePhys {pa : Nat} {bs : List Byte} (h : Kept P s t) : Kept P s (Machine.writePhys t pa bs) := h.of (writePhys_keeps ..)

theorem Kept.writePieces {xs : List (Nat × Nat)} {bs : List Byte} (h : Kept P s t) : Kept P s (Machine.writePieces t xs bs) :=
  h.of (writePieces_keeps ..)

theorem Kept.hubWrite {ps : List (Nat × Nat)} {bs : List Byte} (h : Kept P s t) : Kept P s (Machine.hubWrite t ps bs) :=
  h.writePieces.tickCross

theorem Kept.tickHub {ps : List (Nat × Nat)} (h : Kept P s t) : Kept P s (Machine.tickHub ps t) := h.tickCross

theorem Kept.noteWait {c : Ctx} {user page : Nat} (h : Kept P s t) : Kept P s (Machine.noteWait t c user page) := h.of (noteWait_keeps ..)

theorem Kept.dropWaits {user : Nat} (h : Kept P s t) : Kept P s (Machine.dropWaits t user) := h.of (dropWaits_keeps ..)

theorem Kept.askHeld {h' : HeldWrite} {page : Nat} (h : Kept P s t) : Kept P s (Machine.askHeld t h' page) := by
  unfold Machine.askHeld
  refine .ite h ?_
  split
  · exact h.noteWait
  · exact h.noteWait
  · exact h

theorem Kept.writeCtxEntry {ctx : Nat} (h : Kept P s t) : Kept P s (Machine.writeCtxEntry t ctx) := h.of (writeCtxEntry_keeps ..)

theorem Kept.fillFault {ctx : Nat} {r : FaultRec} (h : Kept P s t) : Kept P s (Machine.fillFault t ctx r) := h.of (fillFault_keeps ..)

theorem Kept.waitRecord {ctx page : Nat} (h : Kept P s t) : Kept P s (Machine.waitRecord t ctx page) := h.of (waitRecord_keeps ..)

theorem Kept.tryRecord {q : Nat} {x : Queue} {va : Nat} {bs : List Byte} {behind : Option (Nat × Option Nat)} (h : Kept P s t) :
    Kept P s (Machine.tryRecord t q x va bs behind).1 :=
  h.of (tryRecord_keeps ..)

theorem Kept.haltQueue {q : Nat} (h : Kept P s t) : Kept P s (Machine.haltQueue q t) := h.of (haltQueue_keeps ..)

theorem Kept.ringFault {q : Nat} {x : Queue} {va st d : Nat} (h : Kept P s t) : Kept P s (Machine.ringFault q x va st d t) :=
  h.of (ringFault_keeps ..)

theorem Kept.ringWrite {q va : Nat} {bs : List Byte} {behind : Option (Nat × Option Nat)} (h : Kept P s t) :
    Kept P s (Machine.ringWrite t q va bs behind) :=
  h.of (ringWrite_keeps ..)

theorem Kept.writeStatus {q : Nat} (h : Kept P s t) : Kept P s (Machine.writeStatus q t) := h.of (writeStatus_keeps ..)

theorem Kept.heldIrq {h' : HeldWrite} (h : Kept P s t) : Kept P s (Machine.heldIrq h' t) := by
  unfold Machine.heldIrq
  split
  · exact h.raiseVec
  · exact h

theorem Kept.flushHeld {fuel fn : Nat} (h : Kept P s t) : Kept P s (Machine.flushHeld fuel fn t) := by
  induction fuel generalizing t with
  | zero => exact h
  | succ n ih =>
    unfold Machine.flushHeld
    dsimp only
    split
    · exact h
    · split
      · exact h
      · split
        · exact h
        · split
          · exact ih (.heldIrq (.writePieces h.set))
          · refine ih (.heldIrq ?_)
            split
            · exact .haltQueue (.fillFault h.set)
            · exact .fillFault h.set
            · exact h.set
          · exact h.askHeld
          · exact h

theorem Kept.flushAll {fuel : Nat} (h : Kept P s t) : Kept P s (Machine.flushAll fuel t) := by
  induction fuel generalizing t with
  | zero => exact h
  | succ n ih =>
    have hOnce : Kept P s (foldState (t.link.held.map (·.fn)).eraseDups (Machine.flushHeld (t.link.held.length + 1)) t) :=
      h.fold fun _ _ hk => hk.flushHeld
    exact .ite (ih hOnce) hOnce

theorem Kept.leaveHeld {ctx : Nat} {c : Ctx} (h : Kept P s t) : Kept P s (Machine.leaveHeld ctx c t) :=
  .dropWaits (.set (h.fold fun _ _ hk => hk.writePieces.heldIrq))

theorem Kept.writeBack {k : Nat} {x : CLine} (h : Kept P s t) : Kept P s (Machine.writeBack k t x) := h.of (writeBack_keeps ..)

theorem Kept.cdcDrop {k : Nat} (h : Kept P s t) : Kept P s (Machine.cdcDrop k t) := h.of (cdcDrop_keeps ..)

theorem Kept.rgnFlush {r : Nat} (h : Kept P s t) : Kept P s (Machine.rgnFlush r t) := h.of (rgnFlush_keeps ..)

theorem Kept.contextWalk {ctx : Nat} (h : Kept P s t) : Kept P s (Machine.contextWalk ctx t) := h.of (contextWalk_keeps ..)

theorem Kept.releaseFrame {c : Ctx} {f : Nat} (h : Kept P s t) : Kept P s (Machine.releaseFrame c f t) := .ite h.set h.set

theorem Kept.settleFrames (h : Kept P s t) : Kept P s (Machine.settleFrames t) := h.of (settleFrames_keeps ..)

theorem Kept.mirrorFence {idx : Nat} {f : Fence} {registered : Bool} {tag : Nat} (h : Kept P s t) :
    Kept P s (Machine.mirrorFence t idx f registered tag) :=
  h.of (mirrorFence_keeps ..)

theorem Kept.abandonFence {idx cause tag : Nat} (h : Kept P s t) : Kept P s (Machine.abandonFence idx cause tag t) :=
  h.of (abandonFence_keeps ..)

theorem Kept.applySignal {q ctx va v tag : Nat} (h : Kept P s t) : Kept P s (Machine.applySignal t q ctx va v tag).1 :=
  h.of (applySignal_keeps ..)

theorem Kept.abandonSignal {ctx va cause tag : Nat} (h : Kept P s t) : Kept P s (Machine.abandonSignal t ctx va cause tag) :=
  h.of (abandonSignal_keeps ..)

theorem Kept.finishDesc {q i status detail result : Nat} {ran : Bool} (h : Kept P s t) :
    Kept P s (Machine.finishDesc t q i status detail result ran) :=
  h.of (finishDesc_keeps ..)

theorem Kept.copyReady (h : Kept P s t) : Kept P s (Machine.copyReady t) := h.of (copyReady_keeps ..)

theorem Kept.setMap {i v : Nat} (h : Kept P s t) : Kept P s (Machine.setMap i v t) := h.of (setMap_keeps ..)

theorem Kept.evictModels {p : ResEntry → Bool} (h : Kept P s t) : Kept P s (Machine.evictModels p t) := h.of (evictModels_keeps ..)

theorem Kept.setRgnState {r : Nat} {st : RgnState} (h : Kept P s t) : Kept P s (Machine.setRgnState r st t) := h.of (setRgnState_keeps ..)

theorem Kept.resetRegion {r : Nat} (h : Kept P s t) : Kept P s (Machine.resetRegion r t) := h.of (resetRegion_keeps ..)

theorem Kept.settleDraining (h : Kept P s t) : Kept P s (Machine.settleDraining t) := h.of (settleDraining_keeps ..)

theorem Kept.freeRegion {ctx r : Nat} (h : Kept P s t) : Kept P s (Machine.freeRegion ctx r t) := h.of (freeRegion_keeps ..)

theorem Kept.setUnits {lc : Bool} {l : List Nat} (h : Kept P s t) : Kept P s (Machine.setUnits lc l t) := h.of (setUnits_keeps ..)

theorem Kept.returnUnits {x : Launch} (h : Kept P s t) : Kept P s (Machine.returnUnits x t) := h.of (returnUnits_keeps ..)

theorem Kept.dropPins {l : Nat} (h : Kept P s t) : Kept P s (Machine.dropPins l t) := h.of (dropPins_keeps ..)

theorem Kept.lapseBounds (h : Kept P s t) : Kept P s (Machine.lapseBounds t) := h.of (lapseBounds_keeps ..)

theorem Kept.countBreach {x : Launch} {st d : Nat} (h : Kept P s t) : Kept P s (Machine.countBreach x st d t) := h.of (countBreach_keeps ..)

theorem Kept.orFlags {l fl : Nat} (h : Kept P s t) : Kept P s (Machine.orFlags l fl t) := h.of (orFlags_keeps ..)

theorem Kept.failStack {k : Nat} (h : Kept P s t) : Kept P s (Machine.failStack k t) := h.of (failStack_keeps ..)

theorem Kept.settleStacks (h : Kept P s t) : Kept P s (Machine.settleStacks t) := h.of (settleStacks_keeps ..)

theorem Kept.endLaunch {l st d : Nat} (h : Kept P s t) : Kept P s (Machine.endLaunch l st d t) := h.of (endLaunch_keeps ..)

theorem Kept.abortLaunch {l r st d : Nat} (h : Kept P s t) : Kept P s (Machine.abortLaunch l r st d t) := h.of (abortLaunch_keeps ..)

theorem Kept.beginEmergency {d : Nat} {touches : Launch → Bool} (h : Kept P s t) : Kept P s (Machine.beginEmergency d touches t) :=
  h.of (beginEmergency_keeps ..)

theorem Kept.endEmergency {d : Nat} (h : Kept P s t) : Kept P s (Machine.endEmergency d t) := h.of (endEmergency_keeps ..)

theorem Kept.setMhz {d v : Nat} (h : Kept P s t) : Kept P s (Machine.setMhz d v t) := .ite h.set h.set

theorem Kept.retarget {d : Nat} (h : Kept P s t) : Kept P s (Machine.retarget d t) := .ite h h.setMhz

theorem Kept.setSrc {v k : Nat} (h : Kept P s t) : Kept P s (Machine.setSrc v k t) := .ite (.ite (.retarget h.set) (.setMhz h.set)) h.set

theorem Kept.stopDomain {k : Nat} (h : Kept P s t) : Kept P s (Machine.stopDomain k t) := .ite (.setMhz h.set) h.set

end Sys2Proof.Machine
end

section
/-! SUPPORT. What the cores keep (O47). -/

set_option Elab.async false

namespace Sys2Proof.Machine

variable {P : Parts} {s t u : State}

/-! ### Rows of a core and its lane groups (R98, R120) -/

theorem Kept.coreRow {cls op : Nat} {atom : Option Nat} {eff : State → State} {c g : Nat} {w : W128} (h : Kept P s t)
    (heff : ∀ a, Kept P s a → Kept P s (eff a)) :
    KeptBy P s (Machine.coreRow cls op atom eff c g w t) :=
  .ite .refused <| .ite (.next (heff _ h)) (.next h)

theorem Kept.setLg {c g : Nat} {x : Lg} (h : Kept P s t) : Kept P s (Machine.setLg t c g x) := h.set

theorem Kept.coreFlags {c : Nat} {fl : AFlags} (h : Kept P s t) : Kept P s (Machine.coreFlags t c fl) := by
  unfold Machine.coreFlags
  split
  · exact h
  · exact h.orFlags

theorem Kept.lgRow {cls op : Nat} {f : Lg → Lg × AFlags} {c g : Nat} {w : W128} (h : Kept P s t) :
    KeptBy P s (Machine.lgRow cls op f c g w t) :=
  h.coreRow fun _ hk => hk.coreFlags.setLg

theorem Kept.coreAbort {c st d : Nat} (h : Kept P s t) : Kept P s (Machine.coreAbort t c st d) := by
  unfold Machine.coreAbort
  split
  · exact h
  · exact h.abortLaunch

/-! ### Control and scalar rows (R97, R102, R103, R118) -/

theorem Kept.closeVertex {c : Nat} {y : Lg} (h : Kept P s t) : Kept P s (Machine.closeVertex t c y) := by
  unfold Machine.closeVertex
  split
  · exact .ite h.set h
  · exact h

theorem Kept.scalarRow {op : Nat} {f : Nat → Nat → Nat} {c g : Nat} {w : W128} (h : Kept P s t) :
    KeptBy P s (Machine.scalarRow op f c g w t) :=
  h.lgRow

/-! ### Vector rows (R89, R103) -/

theorem Kept.valuRow {op : Nat} {f : Nat → Nat → Nat → Nat × AFlags} {c g : Nat} {w : W128} (h : Kept P s t) :
    KeptBy P s (Machine.valuRow op f c g w t) :=
  h.lgRow

theorem Kept.predRow {op : Nat} {f : Nat → Nat → Bool × AFlags} {c g : Nat} {w : W128} (h : Kept P s t) :
    KeptBy P s (Machine.predRow op f c g w t) :=
  h.lgRow

theorem Kept.intRow {op : Nat} {f : Nat → Nat → ℤ} {c g : Nat} {w : W128} (h : Kept P s t) : KeptBy P s (Machine.intRow op f c g w t) :=
  h.valuRow

/-! ### Vector functions and conversions (R83 to R87, R104) -/

theorem Kept.vfuncRow {op : Nat} {f : Nat → Nat} {pole root : ℤ → ℤ → Bool} {c g : Nat} {w : W128} (h : Kept P s t) :
    KeptBy P s (Machine.vfuncRow op f pole root c g w t) :=
  h.lgRow

/-! ### Tile stores, matrices and accumulators (R105 to R111) -/

theorem Kept.putTs {c a : Nat} {bs : List Byte} (h : Kept P s t) : Kept P s (Machine.putTs t c a bs) := h.set

theorem Kept.execTsLd {c g : Nat} {w : W128} (h : Kept P s t) : KeptBy P s (Machine.execTsLd c g w t) := by
  unfold Machine.execTsLd
  refine h.coreRow fun _ hk => .ite hk ?_
  split
  · exact hk.coreAbort
  · exact hk.setLg

theorem Kept.execTsSt {c g : Nat} {w : W128} (h : Kept P s t) : KeptBy P s (Machine.execTsSt c g w t) := by
  unfold Machine.execTsSt
  refine h.coreRow fun _ hk => .ite hk ?_
  split
  · exact hk.coreAbort
  · exact .setLg (.ite hk.set hk.set)

theorem Kept.queueMat {c g : Nat} {w : W128} (h : Kept P s t) : Kept P s (Machine.queueMat c g w t) := .ite h (.setLg h.set)

theorem Kept.runMma {c : Nat} {o : MatOp} (h : Kept P s t) : Kept P s (Machine.runMma t c o) := by
  unfold Machine.runMma
  refine .ite h.coreAbort <| .ite h.coreAbort ?_
  dsimp only
  split
  · exact h.coreAbort
  · exact .coreFlags h.set

theorem Kept.runAcc {c : Nat} {o : MatOp} (h : Kept P s t) : Kept P s (Machine.runAcc t c o) := by
  unfold Machine.runAcc
  refine .ite h.set <| .ite h.coreAbort ?_
  dsimp only
  split
  · exact h.coreAbort
  · exact .coreFlags h.set

theorem Kept.runStore {c : Nat} {o : MatOp} (h : Kept P s t) : Kept P s (Machine.runStore t c o) := by
  unfold Machine.runStore
  refine .ite h.coreAbort <| .ite h.coreAbort ?_
  dsimp only
  split
  · exact h.coreAbort
  · exact .coreFlags h.set

theorem Kept.openBar {c : Nat} (h : Kept P s t) : Kept P s (Machine.openBar c t) := h.set

theorem Kept.execMatrixOpComplete {c : Nat} {store : Bool} (h : Kept P s t) : KeptBy P s (Machine.execMatrixOpComplete c store t) := by
  unfold Machine.execMatrixOpComplete
  dsimp only
  refine .ite ?_ ?_
  · exact .next h
  · split
    · split
      · split
        · exact .next (.openBar (.runStore h.set))
        · exact .next h
      · exact .next h
    · split
      · split
        · exact .next (.openBar (.ite (.runMma h.set) (.runAcc h.set)))
        · exact .next h
      · exact .next h

/-! ### Sending on Qanat (R291 to R297, R308) -/

theorem Kept.countPn {q n : Nat} (h : Kept P s t) : Kept P s (Machine.countPn t q n) := .ite h.set h

theorem Kept.netSendN {q n : Nat} {m : OutMsg} (h : Kept P s t) : Kept P s (Machine.netSendN t q n m) := .ite h.countPn.set h

theorem Kept.netSend {q : Nat} {m : OutMsg} (h : Kept P s t) : Kept P s (Machine.netSend t q m) := h.netSendN

theorem Kept.roceOut {q n : Nat} {m : OutMsg} (h : Kept P s t) : Kept P s (Machine.roceOut t q n m) := .ite h.set h.netSendN

theorem Kept.unpause {q : Nat} (h : Kept P s t) : Kept P s (Machine.unpause q t) := .fold h.set fun _ _ hk => hk.netSendN

theorem Kept.countHub {n : Nat} (h : Kept P s t) : Kept P s (Machine.countHub n t) := .ite h h.set

theorem Kept.qSend {id typ flags counter psn exp lines code off : Nat} {payload : List Byte} (h : Kept P s t) :
    Kept P s (Machine.qSend t id typ flags counter psn exp lines code off payload) := by
  unfold Machine.qSend
  split
  · exact h
  · exact h.netSend

theorem Kept.sendPkt {id : Nat} {p : TxPkt} (h : Kept P s t) : Kept P s (Machine.sendPkt t id p) := h.qSend.countHub

theorem Kept.pumpJob {fuel k : Nat} (h : Kept P s t) : Kept P s (Machine.pumpJob fuel k t) := by
  induction fuel generalizing t with
  | zero => exact h
  | succ m ih =>
    unfold Machine.pumpJob
    split
    · exact h
    · split
      · dsimp only
        exact .ite h (ih (.sendPkt h.set))
      · exact h

theorem Kept.pumpAll {id : Nat} (h : Kept P s t) : Kept P s (Machine.pumpAll id t) := h.fold fun _ _ hk => hk.pumpJob

theorem Kept.startJob {j : Job} (h : Kept P s t) : Kept P s (Machine.startJob t j).1 := .pumpJob h.set

theorem Kept.peerWrite {b : Job} {n e o : Nat} {bs : List Byte} (h : Kept P s t) : Kept P s (Machine.peerWrite b n e o bs t) := h.startJob

theorem Kept.peerRead {b : Job} {n e o len : Nat} (h : Kept P s t) : Kept P s (Machine.peerRead b n e o len t) := h.startJob

theorem Kept.landPrefix {j : Job} (h : Kept P s t) : Kept P s (Machine.landPrefix j t) := .ite h h.hubWrite.countHub

/-! ### Semaphores and planned transfers (R112 to R114, R197 to R202) -/

theorem Kept.wakeLg {c g : Nat} (h : Kept P s t) : Kept P s (Machine.wakeLg c g t) := h.setLg

theorem Kept.serveSem {fuel sem r : Nat} (h : Kept P s t) : Kept P s (Machine.serveSem fuel sem r t) := by
  induction fuel generalizing t with
  | zero => exact h
  | succ n ih =>
    unfold Machine.serveSem
    dsimp only
    split
    · exact h
    · split
      · exact h
      · exact ih (.wakeLg h.set)

theorem Kept.launchFault {l r va st d source index off : Nat} (h : Kept P s t) :
    Kept P s (Machine.launchFault t l r va st d source index off) := by
  unfold Machine.launchFault
  split
  · exact h
  · exact .ite h h.fillFault.endLaunch

theorem Kept.kickHead {r : Nat} (h : Kept P s t) : Kept P s (Machine.kickHead r t) := by
  unfold Machine.kickHead
  split
  · split
    · exact .ite h h.tickCross.startJob.set
    · exact h
  · exact h

theorem Kept.pushEntry {r : Nat} {e : Started} (h : Kept P s t) : Kept P s (Machine.pushEntry t r e) := .kickHead h.set

theorem Kept.startEntry {r l : Nat} {x : Launch} {n : Nat} (h : Kept P s t) : KeptSome P s (Machine.startEntry t r l x n) := by
  unfold Machine.startEntry
  split
  · refine .ite (.some h.abortLaunch) ?_
    refine .ite (.some h.pushEntry) <| .ite ?_ ?_
    · dsimp only
      split
      · exact .some h.pushEntry
      · exact .some h.launchFault
    · dsimp only
      split
      · exact .some h.pushEntry
      · exact .some h.launchFault
      · exact .some h.pushEntry
      · exact .none
      · exact .some h.launchFault
  · exact .some h

theorem Kept.noteEntryWait {l : Nat} {x : Launch} {n : Nat} (h : Kept P s t) : Kept P s (Machine.noteEntryWait t l x n) := by
  unfold Machine.noteEntryWait
  split
  · split
    · exact h.noteWait
    · exact h
  · exact h

theorem Kept.startWaiting {r : Nat} (h : Kept P s t) : Kept P s (Machine.startWaiting r t) := by
  unfold Machine.startWaiting
  split
  · exact h
  · refine h.fold fun _ _ hk => ?_
    split
    · exact hk
    · refine .ite hk ?_
      dsimp only
      split
      next b e => exact .set (hk.startEntry _ e)
      · exact hk.noteEntryWait

theorem Kept.issueEntry {r n : Nat} (h : Kept P s t) : Kept P s (Machine.issueEntry r n t) := .startWaiting h.set

theorem Kept.execXferStart {c g : Nat} {w : W128} (h : Kept P s t) : KeptBy P s (Machine.execXferStart c g w t) := by
  unfold Machine.execXferStart
  refine h.coreRow fun _ hk => ?_
  dsimp only
  split
  · exact hk
  · exact .ite hk.abortLaunch <| .ite hk.issueEntry hk.issueEntry.setLg

theorem Kept.execAutoTransferStart {r n : Nat} (h : Kept P s t) : KeptBy P s (Machine.execAutoTransferStart r n t) := by
  unfold Machine.execAutoTransferStart
  split
  · exact .next h
  · split
    · exact .next h
    · exact .ite (.next h) (.next h.issueEntry)

theorem Kept.putRows {c ts stride rowBytes rows i : Nat} {bs : List Byte} (h : Kept P s t) :
    Kept P s (Machine.putRows t c ts stride rowBytes rows i bs) := by
  induction rows generalizing t i bs with
  | zero => exact h
  | succ n ih => exact .ite h (ih h.set)

theorem Kept.moveEntry {r : Nat} {e : XferRec} {st : Started} (h : Kept P s t) : Kept P s (Machine.moveEntry t r e st) :=
  .ite h.putRows.tickCross (.tickCross (.ite (.ite h h.writePieces) h.putRows))

theorem Kept.hostExcess {l : Nat} {e : XferRec} {st : Started} (h : Kept P s t) : Kept P s (Machine.hostExcess l e st t) := by
  unfold Machine.hostExcess
  split
  · exact h
  · split
    · exact h
    · exact .ite h.set h

theorem Kept.completeEntry {r l : Nat} {e : XferRec} {st : Started} (h : Kept P s t) : Kept P s (Machine.completeEntry t r l e st) := by
  unfold Machine.completeEntry
  dsimp only
  split
  · exact .launchFault (.kickHead (.settleStacks (.settleFrames h.moveEntry.countRgnBytes.hostExcess.set)))
  · exact .startWaiting (.kickHead (.settleStacks (.settleFrames h.moveEntry.countRgnBytes.hostExcess.set)))

theorem Kept.execTransferComplete {r : Nat} (h : Kept P s t) : KeptBy P s (Machine.execTransferComplete r t) := by
  unfold Machine.execTransferComplete
  split
  · split
    · exact .next h
    · exact .ite (.next h) <| .ite (.next h.completeEntry) (.next h.pumpJob)
  · exact .next h

/-! ### Unplanned accesses and the cluster data cache (R115 to R117, R154 to R170) -/

theorem Kept.tickLine {k : Nat} (h : Kept P s t) : Kept P s (Machine.tickLine k t) := h.tickCross

theorem Kept.fetchLine {k line home : Nat} (h : Kept P s t) : Kept P s (Machine.fetchLine t k line home).2 := by
  unfold Machine.fetchLine
  dsimp only
  split
  · split
    · split
      · exact .writeBack h.set
      · exact h.set
    · exact h.set
  · exact h.tickLine

theorem Kept.unpRow {op : Nat} {atom : Option Nat} {atomic write sized : Bool} {act : State → Nat → Lg → List Nat → List Nat → State}
    {c g : Nat} {w : W128} (h : Kept P s t) (hact : ∀ a x1 x2 x3 x4, Kept P s a → Kept P s (act a x1 x2 x3 x4)) :
    KeptBy P s (Machine.unpRow op atom atomic write sized act c g w t) := by
  unfold Machine.unpRow
  refine h.coreRow fun _ hk2 => ?_
  split
  · exact hk2
  · dsimp only
    split
    · exact hk2
    · split
      · exact hk2.coreAbort
      · split
        · split
          · exact hk2.noteWait
          · exact hk2
        · exact hk2.launchFault
        · exact hk2.launchFault
        · split
          · exact hact _ _ _ _ _ hk2.setLg
          · exact hk2

theorem Kept.giveAcc {k : Nat} {a : UAcc} {v : Nat} (h : Kept P s t) : Kept P s (Machine.giveAcc k a v t) := by
  unfold Machine.giveAcc
  dsimp only
  split
  · exact h
  · exact .ite h.setLg h.setLg

theorem Kept.serveAcc {k : Nat} {a : UAcc} (h : Kept P s t) : Kept P s (Machine.serveAcc t k a) := by
  unfold Machine.serveAcc
  dsimp only
  split
  · exact h
  · exact .ite h.set <| .ite h.set (.giveAcc h.set)

theorem Kept.serveOld {k : Nat} {a : UAcc} (h : Kept P s t) : Kept P s (Machine.serveOld k a t) := .ite h.writePhys <| .ite h h.giveAcc

theorem Kept.snoop {k line : Nat} (h : Kept P s t) : Kept P s (Machine.snoop k line t) := by
  unfold Machine.snoop
  dsimp only
  split
  · exact h.fetchLine.set
  · exact h

theorem Kept.makeAcc {k : Nat} {a : UAcc} (h : Kept P s t) : Kept P s (Machine.makeAcc k a t) := .ite h.serveAcc h.snoop.set

theorem Kept.lockFill {k way line home : Nat} (h : Kept P s t) : Kept P s (Machine.lockFill t k way line home) := by
  have hTaken : Kept P s (match takeLine (t.cdc k) line with
      | some r => (r.1, t.setCdc k r.2)
      | none => Machine.fetchLine t k line home).2 := by
    split
    · exact h.set
    · exact h.fetchLine
  unfold Machine.lockFill
  dsimp only
  split
  · exact .set (.writeBack hTaken)
  · exact .set hTaken

theorem Kept.execCdcMissComplete {k : Nat} (h : Kept P s t) : KeptBy P s (Machine.execCdcMissComplete k t) := by
  unfold Machine.execCdcMissComplete
  dsimp only
  split
  · exact .next h
  · refine .ite (.next h) ?_
    refine .ite (.next (.settleStacks (.settleFrames (.set (.fold h.set fun _ _ hk => hk.serveOld))))) ?_
    split
    · exact .next (.settleStacks (.settleFrames (.set (.fold (.lockFill h.set) fun _ _ hk => hk.serveAcc))))
    · exact .ite (.next h) (.next (.settleStacks (.settleFrames (.set (.fold (.ite h.set (.set
        (.fetchLine h.set))) fun _ _ hk => hk.serveAcc)))))

theorem Kept.execEvictionWriteComplete {k : Nat} (h : Kept P s t) : KeptBy P s (Machine.execEvictionWriteComplete k t) := by
  unfold Machine.execEvictionWriteComplete
  dsimp only
  split
  · exact .next h
  · exact .next (.ite h.writeBack.set h)

theorem Kept.cleanLine {k line : Nat} (h : Kept P s t) : Kept P s (Machine.cleanLine k line t) := by
  unfold Machine.cleanLine
  dsimp only
  split
  · exact .set (h.fold fun _ _ hk => hk.writeBack)
  · exact .set (.writeBack (h.fold fun _ _ hk => hk.writeBack))

theorem Kept.invLine {k line : Nat} (h : Kept P s t) : Kept P s (Machine.invLine k line t) := by
  unfold Machine.invLine
  dsimp only
  split
  · exact h.cleanLine
  · exact h.cleanLine.set

theorem Kept.atomLane {f : Nat → Nat → Nat → Nat} {fl : Nat → Nat → AFlags} {c g : Nat} {w : W128} {y : Lg} {lane home : Nat}
    {outs : List Nat} (h : Kept P s t) :
    Kept P s (Machine.atomLane f fl c g w y lane home outs t) :=
  h.invLine.writePhys.setLg.coreFlags

theorem Kept.atomRow {code : Nat} {f : Nat → Nat → Nat → Nat → Nat} {fl : Nat → Nat → AFlags} {c g : Nat} {w : W128} (h : Kept P s t) :
    KeptBy P s (Machine.atomRow code f fl c g w t) :=
  h.unpRow fun _ _ _ _ _ hk => hk.fold fun _ _ hk2 => hk2.atomLane

end Sys2Proof.Machine
end

section
/-! SUPPORT. What the launches keep (O47). -/

set_option Elab.async false

namespace Sys2Proof.Machine

variable {P : Parts} {s t u : State}

/-! ### Ends and progress of launches -/

theorem Kept.loseGroup {g : Nat} (h : Kept P s t) : Kept P s (Machine.loseGroup g t) := .ite h h.set

theorem Kept.enterModel {l ctx : Nat} {rs : List Nat} {pin : Bool} {ids : List Nat} {m : ModelRec} (h : Kept P s t) :
    KeptSome P s (Machine.enterModel t l ctx rs pin ids m) := by
  unfold Machine.enterModel
  dsimp only
  split
  · exact .ite (.some h.set) <| .ite .none (.some h.evictModels.set)
  · refine .ite .none ?_
    refine .ite (.some h.evictModels.set) ?_
    split
    · exact .none
    · exact .some h.evictModels.evictModels.set

theorem Kept.enterModels {l ctx : Nat} {rs : List Nat} {pin : Bool} {ms : List ModelRec} (h : Kept P s t) :
    KeptSome P s (Machine.enterModels t l ctx rs pin ms) := by
  unfold Machine.enterModels
  refine List.foldlRecOn (motive := KeptSome P s) ms _ (.some h) fun o ho m _ => ?_
  exact ho.bind fun a ha => ha.enterModel

theorem Kept.clearRegion {r : Nat} (h : Kept P s t) : Kept P s (Machine.clearRegion r t) :=
  .set (.fold (.fold (h.rgnFlush.fold fun _ _ hk => hk.set) fun _ _ hk => hk.cdcDrop) fun _ _ hk => hk.set)

theorem Kept.seedCdc {p : Plan} {rel step k : Nat} (h : Kept P s t) : Kept P s (Machine.seedCdc p rel step k t) := h.set

theorem Kept.startCore {p : Plan} {step rel : Nat} {slip : Option Nat} {c : Nat} (h : Kept P s t) :
    Kept P s (Machine.startCore p step rel slip c t) :=
  h.set

theorem Kept.startRegion {p : Plan} {step rel r : Nat} (h : Kept P s t) : Kept P s (Machine.startRegion p step rel r t) :=
  .set (.fold (.fold (h.fold fun _ _ hk => hk.seedCdc) fun _ _ hk => hk.startCore) fun _ _ hk => hk.set)

theorem Kept.beginStep {l : Nat} (h : Kept P s t) : Kept P s (Machine.beginStep l t) := by
  unfold Machine.beginStep
  split
  · exact h
  · split
    · exact h
    · exact .set (h.fold fun _ _ hk => hk.startRegion)

theorem Kept.takeRegions {l ctx : Nat} {restore : Bool} {rs : List Nat} (h : Kept P s t) :
    Kept P s (Machine.takeRegions l ctx restore rs t) :=
  h.fold fun _ _ hk => .set (.ite hk hk.clearRegion)

theorem Kept.useVer {v : Nat} (h : Kept P s t) : KeptSome P s (Machine.useVer v t) := by
  unfold Machine.useVer
  cases residentWith t v with
  | none => exact .none
  | some l => exact .some h.set

theorem Kept.placeLaunch {l : Nat} {rs : List Nat} (h : Kept P s t) : KeptSome P s (Machine.placeLaunch t l rs) := by
  unfold Machine.placeLaunch
  split
  · exact .none
  · split
    · exact .none
    next s1 e => exact .ite (.some (.ite (.set (.takeRegions (.set (h.enterModels _ e)))) (.beginStep (.takeRegions (.set
      (h.enterModels _ e)))))) (.some (.set (.takeRegions (.set (h.enterModels _ e)))))

theorem Kept.unplace {l : Nat} {x : Launch} (h : Kept P s t) : Kept P s (Machine.unplace l x t) :=
  .settleDraining (.set (h.fold fun _ _ hk => hk.freeRegion))

theorem Kept.askYield {l : Nat} (h : Kept P s t) : Kept P s (Machine.askYield l t) := by
  unfold Machine.askYield
  split
  · exact h
  · split
    · exact h.set
    · exact .fold h.set fun _ _ hk => hk.set
    · exact h.unplace
    · exact h.unplace
    · exact h

theorem Kept.execLcStart {r : Nat} (h : Kept P s t) : KeptBy P s (Machine.execLcStart r t) := by
  unfold Machine.execLcStart
  split
  · exact .next h
  · exact .ite (.next h) <| .ite (.next (.getD h.placeLaunch h)) (.next (h.fold fun _ _ hk => hk.askYield))

theorem Kept.takeBeUnits {l : Nat} {x : Launch} {p : Plan} (h : Kept P s t) : KeptSome P s (Machine.takeBeUnits t l x p) :=
  .ite (.some h) <| .ite (.some h.setUnits.set) .none

theorem Kept.tryBe {l : Nat} (h : Kept P s t) : Kept P s (Machine.tryBe l t) := by
  unfold Machine.tryBe
  split
  · exact h
  · split
    · exact h
    · split
      · exact h
      · split
        · exact h
        next s1 e => exact .getD ((h.takeBeUnits _ e).useVer.bind fun _ ha => ha.placeLaunch) h

theorem Kept.tryDisplace {l : Nat} (h : Kept P s t) : Kept P s (Machine.tryDisplace l t) := by
  unfold Machine.tryDisplace
  split
  · exact h
  · split
    · exact h
    · split
      · exact h
      · exact .ite (h.fold fun _ _ hk => hk.askYield) h

theorem Kept.execBeSliceExpiry {l : Nat} (h : Kept P s t) : KeptBy P s (Machine.execBeSliceExpiry l t) := by
  unfold Machine.execBeSliceExpiry
  split
  · exact .next h
  · exact .ite (.next h) (.next (.fold h.set fun _ _ hk => hk.tryDisplace))

/-! ### Displacement and resumption -/

theorem Kept.resumeRegion {p : Plan} {x : Launch} {rel j r : Nat} (h : Kept P s t) : Kept P s (Machine.resumeRegion p x rel j r t) :=
  .set (.fold (h.fold fun _ _ hk => hk.seedCdc) fun _ _ hk => hk.startCore)

theorem Kept.slipRegion {p : Plan} {l : Nat} {x : Launch} {j r : Nat} {hold : Bool} (h : Kept P s t) :
    Kept P s (Machine.slipRegion p l x j r hold t) :=
  .ite (.set (.set (.resumeRegion (h.fold fun _ _ hk => hk.set)))) (.resumeRegion (h.fold fun _ _ hk => hk.set))

theorem Kept.execSlipPoint {r : Nat} (h : Kept P s t) : KeptBy P s (Machine.execSlipPoint r t) := by
  unfold Machine.execSlipPoint
  split
  · exact .next h
  · split
    · refine .ite (.next h) ?_
      split
      · exact .next h.endLaunch
      · exact .ite (.next h.abortLaunch) (.next h.slipRegion)
    · exact .next h

theorem Kept.wipeRegion {r : Nat} (h : Kept P s t) : Kept P s (Machine.wipeRegion r t) := h.clearRegion

theorem Kept.execSaveComplete {l : Nat} (h : Kept P s t) : KeptBy P s (Machine.execSaveComplete l t) := by
  unfold Machine.execSaveComplete
  split
  · exact .next h
  · split
    · exact .next h
    · exact .ite (.next h) <| .ite (.next (.when h.endLaunch.countBreach h.endLaunch)) (.next (.settleDraining (.set (.tickCross (.fold
        (h.fold fun _ _ hk => hk.countRgnBytes.wipeRegion.freeRegion) fun _ _ hk => hk.set)))))

theorem Kept.putSaved {x : Launch} (h : Kept P s t) : Kept P s (Machine.putSaved x t) := h.fold fun _ _ hk => hk.putTs.tickCross

theorem Kept.putMarks {x : Launch} (h : Kept P s t) : Kept P s (Machine.putMarks x t) := h.fold fun _ _ hk => hk.set

theorem Kept.resumeLaunch {l : Nat} {x : Launch} {p : Plan} (h : Kept P s t) : Kept P s (Machine.resumeLaunch l x p t) := by
  unfold Machine.resumeLaunch
  dsimp only
  split
  · exact .beginStep h.set
  · exact .set (h.putMarks.fold fun _ _ hk => hk.resumeRegion)
  · exact .set (h.putMarks.fold fun _ _ hk => .set (.fold (hk.fold fun _ _ hk2 => hk2.seedCdc) fun _ _ hk2 => hk2.set))

theorem Kept.execRestore {l : Nat} (h : Kept P s t) : KeptBy P s (Machine.execRestore l t) := by
  unfold Machine.execRestore
  split
  · exact .next h
  · split
    · exact .next h
    · exact .ite (.next h) (.next (.resumeLaunch (.putSaved (h.fold fun _ _ hk => hk.countRgnBytes))))

theorem Kept.completeLaunch {l : Nat} {x : Launch} (h : Kept P s t) : Kept P s (Machine.completeLaunch l x t) :=
  .when h.endLaunch.countBreach h.endLaunch

theorem Kept.reportStep {r : Nat} (h : Kept P s t) : Kept P s (Machine.reportStep r t) := h.set

theorem Kept.execStepEnd {l : Nat} (h : Kept P s t) : KeptBy P s (Machine.execStepEnd l t) := by
  unfold Machine.execStepEnd
  split
  · exact .next h
  · split
    · exact .next h
    · refine .ite (.next h) ?_
      split
      · exact .next h.endLaunch
      · exact .next h.abortLaunch
      · exact .ite (.next (.completeLaunch (.fold (.settleFrames (h.fold fun _ _ hk => hk.rgnFlush)) fun _ _ hk => hk.reportStep))) <|
          .ite (.next (.set (.fold (.fold (.settleFrames (h.fold fun _ _ hk => hk.rgnFlush)) fun _ _ hk => hk.reportStep) fun _ _ hk =>
          hk.set))) (.next (.beginStep (.set (.fold (.settleFrames (h.fold fun _ _ hk => hk.rgnFlush)) fun _ _ hk => hk.reportStep))))

theorem KeptSome.takeWait {x : Launch} {o : Option State} {w : WaitRec} (h : KeptSome P s o) : KeptSome P s (Machine.takeWait x o w) := by
  unfold Machine.takeWait
  split
  · exact .none
  next a =>
    split
    · exact .none
    · dsimp only
      split
      · exact .none
      · exact .some (h a rfl).set

theorem Kept.execCrossModuleStepStart {l : Nat} (h : Kept P s t) : KeptBy P s (Machine.execCrossModuleStepStart l t) := by
  unfold Machine.execCrossModuleStepStart
  split
  · exact .next h
  next x _ =>
    split
    · exact .next h
    next p _ =>
      have hWaits : KeptSome P s ((p.waits.filter (fun w => w.step == x.step)).foldl (Machine.takeWait x) (some t)) :=
        List.foldlRecOn (motive := KeptSome P s) _ _ (.some h) fun o ho w _ => KeptSome.takeWait ho
      refine .ite (.next h) ?_
      dsimp only
      split
      · exact .next h.endLaunch
      · exact .next h
      next a e => exact .next (.set (hWaits _ e))

theorem Kept.forcedLoss {r : Nat} (h : Kept P s t) : Kept P s (Machine.forcedLoss r t) := by
  unfold Machine.forcedLoss
  refine .loseGroup (h.fold fun _ _ hk => ?_)
  split
  · exact hk
  · exact hk.endLaunch.countBreach

theorem Kept.regionFail {r : Nat} (h : Kept P s t) : Kept P s (Machine.regionFail r t) := by
  unfold Machine.regionFail
  refine .setRgnState (.resetRegion ?_)
  split
  · exact h.forcedLoss
  · exact h.forcedLoss.endLaunch.signalFault

theorem Kept.execStepOverrun {l : Nat} (h : Kept P s t) : KeptBy P s (Machine.execStepOverrun l t) := by
  unfold Machine.execStepOverrun
  split
  · exact .next h
  · exact .ite (.next h) (.next (h.endLaunch.countBreach.fold fun _ _ hk => hk.faultEvent.regionFail))

theorem Kept.execHardStop {r : Nat} (h : Kept P s t) : KeptBy P s (Machine.execHardStop r t) := by
  unfold Machine.execHardStop
  split
  · exact .next h
  · refine .ite (.next h) ?_
    split
    · exact .next h.endLaunch
    · exact .ite (.next h.endLaunch.faultEvent) (.next h)

theorem Kept.yieldBe {r : Nat} (h : Kept P s t) : Kept P s (Machine.yieldBe r t) := by
  unfold Machine.yieldBe
  split
  · exact .ite h.askYield h
  · exact h

theorem Kept.drainRegion {v r : Nat} (h : Kept P s t) : Kept P s (Machine.drainRegion v r t) :=
  .ite h.setRgnState.yieldBe.settleDraining h.logViol

theorem Kept.forceOut {v r : Nat} (h : Kept P s t) : Kept P s (Machine.forceOut v r t) :=
  .ite h.forcedLoss.setRgnState.yieldBe.settleDraining h.logViol

theorem Kept.returnRegion {v r : Nat} (h : Kept P s t) : Kept P s (Machine.returnRegion v r t) :=
  .ite h.resetRegion.setRgnState.set h.logViol

theorem Kept.barStarted {r : Nat} (h : Kept P s t) : Kept P s (Machine.barStarted r t) := .ite h.set h

theorem Kept.failModel {l : Nat} {x : Launch} {m : ModelRec} {st d va moved : Nat} (h : Kept P s t) :
    Kept P s (Machine.failModel l x m st d va moved t) :=
  .endLaunch (.ite h.evictModels.fillFault h.evictModels.signalFault)

theorem Kept.loadImage {x : Launch} {m : ModelRec} {img : List Byte} (h : Kept P s t) : Kept P s (Machine.loadImage x m img t) :=
  .set (h.fold fun _ _ hk => hk.putTs.tickCross)

theorem Kept.loadNext {l : Nat} {x : Launch} {c : Ctx} {m : ModelRec} {fail : Option MemFail} (h : Kept P s t) :
    Kept P s (Machine.loadNext l x c m fail t) := by
  unfold Machine.loadNext
  dsimp only
  split
  · exact h.failModel
  · exact h.failModel
  · exact h.failModel
  · exact h.failModel
  · exact h.failModel
  · exact .ite (h.loadImage.fold fun _ _ hk => hk.countRgnBytes) h

theorem Kept.execModelLoadComplete {l : Nat} {fail : Option MemFail} (h : Kept P s t) :
    KeptBy P s (Machine.execModelLoadComplete l fail t) := by
  unfold Machine.execModelLoadComplete
  split
  · exact .next h
  · refine .ite (.next h) ?_
    split
    · dsimp only
      split
      · exact .next h.loadNext
      · exact .ite (.next h.loadNext) <| .ite (.next h.loadNext.beginStep) (.next h.loadNext.set)
    · exact .next (.ite h.beginStep h.set)

end Sys2Proof.Machine
end

section
/-! SUPPORT. What the rings, the objects and the plans keep (O47). -/

set_option Elab.async false

namespace Sys2Proof.Machine

variable {P : Parts} {s t u : State}

/-! ### Rings and their descriptors (R210 to R232) -/

theorem Kept.putCells {wr : List Host.Cell} (h : Kept P s t) : Kept P s (Machine.putCells t wr) :=
  h.of ⟨rfl, rfl, rfl, fun hWf => putCells_wf hWf wr, id⟩

theorem Kept.reportLtr (h : Kept P s t) : Kept P s (Machine.reportLtr t) := .ite h h.set

theorem Kept.evictCtx {ctx : Nat} (h : Kept P s t) : Kept P s (Machine.evictCtx ctx t) := by
  unfold Machine.evictCtx
  refine .ite h ?_
  split
  · exact .ite h.set h
  · exact h

theorem Kept.evictQueue {q : Nat} (h : Kept P s t) : Kept P s (Machine.evictQueue q t) := by
  unfold Machine.evictQueue
  split
  · exact h
  · exact .reportLtr (.evictCtx h.set)

theorem Kept.makeRoom {ctx fuel : Nat} (h : Kept P s t) : Kept P s (Machine.makeRoom ctx fuel t) := by
  induction fuel generalizing t with
  | zero => exact h
  | succ n ih =>
    unfold Machine.makeRoom
    refine .ite h ?_
    split
    · exact h
    · exact ih h.evictQueue

theorem Kept.makeResident {q : Nat} (h : Kept P s t) : Kept P s (Machine.makeResident q t) := by
  unfold Machine.makeResident
  split
  · exact h
  · refine .ite h ?_
    refine .ite h.makeRoom ?_
    dsimp only
    split
    · exact .set (.reportLtr h.makeRoom.set)
    · exact .reportLtr h.makeRoom.set

theorem Kept.ringWait {x : Queue} {page : Nat} (h : Kept P s t) : Kept P s (Machine.ringWait t x page) := h.waitRecord

theorem Kept.readDoorbell {q : Nat} (h : Kept P s t) : Kept P s (Machine.readDoorbell q t) := by
  unfold Machine.readDoorbell
  split
  · exact h
  · refine .ite h ?_
    dsimp only
    split
    · exact h.ringFault
    · exact h.ringWait
    · exact h.ringFault
    · exact .ite (.logViol h.set) <| .ite (.makeResident h.set) h.set

theorem Kept.startAdmin (h : Kept P s t) : Kept P s (Machine.startAdmin t) := .ite h (.writeStatus h.set)

theorem Kept.settleAdmin (h : Kept P s t) : Kept P s (Machine.settleAdmin t) := by
  unfold Machine.settleAdmin
  split
  · exact h
  · exact .ite (.startAdmin h.set) h

theorem Kept.refuse {q i st d : Nat} (h : Kept P s t) : Kept P s (Machine.refuse q i st d t) := .ite h.finishDesc.set h.finishDesc

theorem Kept.logClaim {ctx fn va user : Nat} (h : Kept P s t) : Kept P s (Machine.logClaim t ctx fn va user) := by
  unfold Machine.logClaim
  split
  · exact .ite h.logViol h
  · exact h

theorem Kept.evalWait {q : Nat} {late : Bool} (h : Kept P s t) : Kept P s (Machine.evalWait q late t) := by
  unfold Machine.evalWait
  split
  · exact h
  · split
    · exact h
    · refine .ite h ?_
      refine .ite (.ite h.refuse h) ?_
      dsimp only
      split
      · exact h.fillFault.refuse
      · refine .ite h.refuse ?_
        split
        · exact h.noteWait
        · exact h
      · exact h.fillFault.refuse
      · refine .ite h.logClaim ?_
        split
        · exact h.logClaim.refuse
        · split
          · exact h.refuse
          · exact h
        · exact .ite h.logClaim.refuse h.logClaim

theorem Kept.wakeFence {idx : Nat} (h : Kept P s t) : Kept P s (Machine.wakeFence idx t) := h.fold fun _ _ hk => hk.makeResident.evalWait

theorem Kept.execWaitTimeout {q : Nat} (h : Kept P s t) : KeptBy P s (Machine.execWaitTimeout q t) := by
  unfold Machine.execWaitTimeout
  split
  · exact .next h
  · exact .ite (.next h.evalWait) (.next h)

theorem Kept.kickQueue {q : Nat} (h : Kept P s t) : Kept P s (Machine.kickQueue q t) := h.makeResident.readDoorbell.evalWait

theorem Kept.sweepQueue {q : Nat} (h : Kept P s t) : Kept P s (Machine.sweepQueue q t) := by
  unfold Machine.sweepQueue
  dsimp only
  split
  · exact .ite h.readDoorbell.evalWait h.readDoorbell
  · exact h.readDoorbell

theorem Kept.bindLaunch {q i : Nat} (h : Kept P s t) : Kept P s (Machine.bindLaunch q i t) := by
  unfold Machine.bindLaunch
  split
  · refine .ite h ?_
    split <;> exact h.setDesc
  · exact h

theorem Kept.bindAll {q : Nat} (h : Kept P s t) : Kept P s (Machine.bindAll q t) := by
  unfold Machine.bindAll
  split
  · exact h
  · exact h.fold fun _ _ hk => hk.bindLaunch

theorem Kept.readNext {q : Nat} (h : Kept P s t) : Kept P s (Machine.readNext q t) := by
  unfold Machine.readNext
  split
  · exact h
  · refine .ite h ?_
    dsimp only
    split
    · exact h.ringFault
    · exact h.ringWait
    · exact h.ringFault
    · exact .bindLaunch (.writeStatus (.tickCross h.set))

theorem Kept.execLaunch {q i : Nat} (h : Kept P s t) : KeptBy P s (Machine.execLaunch q i t) := by
  unfold Machine.execLaunch
  refine .next (.bindLaunch ?_)
  split
  · exact .ite h.readNext h
  · exact h

theorem Kept.execPlanResidency {q i : Nat} (h : Kept P s t) : KeptBy P s (Machine.execPlanResidency q i t) := by
  unfold Machine.execPlanResidency
  split
  · exact .next h
  · exact .ite (.next (.getD h.useVer h)) (.next h)

/-! ### Frames, contexts and fences (R186 to R196, R221 to R230, R249) -/

theorem Kept.refuseAt {q i ctx va tag st d : Nat} (h : Kept P s t) : Kept P s (Machine.refuseAt q i ctx va tag st d t) :=
  .refuse (.ite h.fillFault h)

theorem Kept.descRow {op : Nat} {eff : Queue → Desc → W512 → State → State} {q i : Nat} (h : Kept P s t)
    (heff : ∀ x0 x1 x2 a, Kept P s a → Kept P s (eff x0 x1 x2 a)) :
    KeptBy P s (Machine.descRow op eff q i t) := by
  unfold Machine.descRow
  split
  · exact .ite (.next (heff _ _ _ _ h)) (.next h)
  · exact .next h

theorem Kept.done {q i result : Nat} (h : Kept P s t) : Kept P s (Machine.done q i result t) := h.finishDesc

theorem Kept.failed {q i st d : Nat} (h : Kept P s t) : Kept P s (Machine.failed q i st d t) := h.finishDesc

theorem Kept.stopDesc {q i : Nat} {x : Queue} {d : W512} {va source off : Nat} {t' : Tr} {result : Nat} (h : Kept P s t) :
    Kept P s (Machine.stopDesc q i x d va source off t' result t) := by
  unfold Machine.stopDesc
  split
  · split
    · exact h.noteWait
    · exact h
  · exact h.fillFault.finishDesc
  · exact h.fillFault.finishDesc

theorem Kept.execFenceRegister {q i : Nat} (h : Kept P s t) : KeptBy P s (Machine.execFenceRegister q i t) := by
  unfold Machine.execFenceRegister
  refine h.descRow fun _ _ _ _ hk => ?_
  dsimp only
  split
  · exact hk.stopDesc
  · split
    · exact .ite (.done (.mirrorFence hk.set)) hk.failed
    · split
      · exact .ite hk.failed (.done (.mirrorFence hk.set))
      · exact hk.failed

theorem Kept.execFenceRelease {q i : Nat} (h : Kept P s t) : KeptBy P s (Machine.execFenceRelease q i t) := by
  unfold Machine.execFenceRelease
  refine h.descRow fun _ _ _ _ hk => ?_
  split
  · exact hk.failed
  · exact .ite hk.failed (.done (.mirrorFence hk.set))

theorem Kept.clearFault {ctx : Nat} (h : Kept P s t) : Kept P s (Machine.clearFault ctx t) := by
  unfold Machine.clearFault
  split
  · exact h
  · exact .writeCtxEntry h.set

theorem Kept.execCtxQuery {q i : Nat} (h : Kept P s t) : KeptBy P s (Machine.execCtxQuery q i t) := by
  unfold Machine.execCtxQuery
  refine h.descRow fun _ _ _ _ hk => ?_
  dsimp only
  split
  · exact hk.failed
  · refine .ite ?_ ?_
    · split
      · exact hk.failed
      · exact .done (.ite hk.writePhys.clearFault hk.writePhys)
    · split
      · exact .done (.ite hk.writePieces.clearFault hk.writePieces)
      · exact hk.stopDesc

theorem Kept.mapPage {c : Ctx} {h' : Nat} {o : Obj} {k : Nat} {dup : Bool} (h : Kept P s t) :
    ∀ u, Machine.mapPage t c h' o k dup = some u → Kept P s u.1 := by
  intro u e
  unfold Machine.mapPage at e
  split at e
  · cases e
  · obtain rfl := Option.some.inj e
    exact h.set

theorem Kept.mapPages {c : Ctx} {h' : Nat} {o : Obj} {ks : List Nat} (h : Kept P s t) : Kept P s (Machine.mapPages c h' o ks t) := by
  unfold Machine.mapPages
  refine h.fold fun _ _ hk => ?_
  split
  next b _ e => exact hk.mapPage _ e
  · exact hk

theorem Kept.unmapPage {c : Ctx} {p : Nat} (h : Kept P s t) : Kept P s (Machine.unmapPage c p t) := .ite (.releaseFrame h.set) h

theorem Kept.execMemAlloc {q i : Nat} (h : Kept P s t) : KeptBy P s (Machine.execMemAlloc q i t) := by
  unfold Machine.execMemAlloc
  refine h.descRow fun _ _ _ _ hk => ?_
  split
  · exact hk
  · exact .ite hk.failed (.done (.fold hk.set fun _ _ hk2 => hk2.set))

theorem Kept.execMemMap {q i : Nat} (h : Kept P s t) : KeptBy P s (Machine.execMemMap q i t) := by
  unfold Machine.execMemMap
  refine h.descRow fun _ _ _ _ hk => ?_
  split
  · exact .ite hk.done <| .ite hk.failed <| .ite hk.contextWalk.mapPages.done <| .ite hk hk.failed
  · exact hk.failed

theorem Kept.execMemUnmap {q i : Nat} (h : Kept P s t) : KeptBy P s (Machine.execMemUnmap q i t) := by
  unfold Machine.execMemUnmap
  refine h.descRow fun _ _ _ _ hk => ?_
  split
  · exact hk
  · exact .ite hk.failed <| .ite hk.done <| .ite hk.failed <| .ite hk.failed (.done (.settleStacks
      (hk.contextWalk.fold fun _ _ hk2 => hk2.unmapPage)))

theorem Kept.execMemFree {q i : Nat} (h : Kept P s t) : KeptBy P s (Machine.execMemFree q i t) := by
  unfold Machine.execMemFree
  refine h.descRow fun _ _ _ _ hk => ?_
  split
  · exact .ite hk.failed <| .ite hk.failed (.done (.settleStacks (.set (hk.contextWalk.fold fun _ _ hk2 => hk2.unmapPage.set))))
  · exact hk.failed

theorem Kept.pageIn {x : Queue} {c : Ctx} {o : Obj} {q i h' k host : Nat} {d : W512} (h : Kept P s t) :
    KeptOk P s (Machine.pageIn t x c o q i h' k host d) := by
  unfold Machine.pageIn
  dsimp only
  split
  · exact .ok h
  · split
    · exact .error
    · split
      · exact .error
      · split
        · split <;> exact .error
        next s1 f e => exact .ok (.countHub (.hubWrite (h.mapPage _ e)))

theorem Kept.pageOut {c : Ctx} {q i h' k host : Nat} {d : W512} (h : Kept P s t) : KeptOk P s (Machine.pageOut t c q i h' k host d) := by
  unfold Machine.pageOut
  dsimp only
  split
  · exact .ok h
  · split
    · exact .ok h.unmapPage
    · split
      · exact .error
      · exact .ok h.tickHub.writePieces.unmapPage.countHub

theorem Kept.migrateFrom {x : Queue} {c : Ctx} {o : Obj} {q i : Nat} {d : W512} {fuel n : Nat} (h : Kept P s t) :
    Kept P s (Machine.migrateFrom x c o q i d fuel n t) := by
  induction fuel generalizing t n with
  | zero => exact h.done
  | succ m ih =>
    unfold Machine.migrateFrom
    dsimp only
    split
    next s1 e =>
      refine ih ?_
      split at e
      · exact h.pageIn _ e
      · split at e
        · exact KeptOk.ok h _ e
        · split at e
          · cases e
          · exact h.pageOut _ e
    · exact h
    · exact h.finishDesc
    · exact h.stopDesc

theorem Kept.execMigrate {q i : Nat} (h : Kept P s t) : KeptBy P s (Machine.execMigrate q i t) := by
  unfold Machine.execMigrate
  refine h.descRow fun _ _ _ _ hk => ?_
  split
  · exact .ite hk.done <| .ite hk.stopDesc <| .ite hk hk.contextWalk.migrateFrom.settleStacks
  · exact hk.failed

theorem Kept.advisePage {c : Ctx} {o : Obj} {held : Bool} {p adv : Nat} (h : Kept P s t) : Kept P s (Machine.advisePage c o held p adv t) :=
  h.set

theorem Kept.execAdvise {q i : Nat} (h : Kept P s t) : KeptBy P s (Machine.execAdvise q i t) := by
  unfold Machine.execAdvise
  refine h.descRow fun _ _ _ _ hk => ?_
  split
  · exact .ite hk.done (.done (hk.contextWalk.fold fun _ _ hk2 => hk2.advisePage))
  · exact hk.failed

theorem Kept.copyJob {q i len : Nat} {a b : Walk} {pa pb stop : Option (Nat × Nat × Nat)} (h : Kept P s t) :
    Kept P s (Machine.copyJob q i len a b pa pb stop t) := by
  unfold Machine.copyJob
  refine .ite h ?_
  dsimp only
  split
  · exact h.peerRead
  · exact h.tickHub.peerWrite
  · exact h

theorem Kept.copyBytes {n : Nat} {a b : Walk} (h : Kept P s t) : Kept P s (Machine.copyBytes n a b t) := h.tickHub.hubWrite.countHub

theorem Kept.execCopy {q i : Nat} (h : Kept P s t) : KeptBy P s (Machine.execCopy q i t) := by
  unfold Machine.execCopy
  refine h.descRow fun _ _ _ _ hk => .ite hk (.ite hk.done ?_)
  split
  split
  split
  · exact hk.stopDesc
  · refine .ite hk ?_
    split
    · exact hk.copyJob
    · exact hk.stopDesc
    · exact hk.copyBytes.stopDesc
  · exact .ite hk <| .ite hk.copyJob hk.copyBytes.done

theorem Kept.execFill {q i : Nat} (h : Kept P s t) : KeptBy P s (Machine.execFill q i t) := by
  unfold Machine.execFill
  refine h.descRow fun _ _ _ _ hk => .ite hk (.ite hk.done ?_)
  split
  split
  · exact hk.stopDesc
  · exact hk.hubWrite.countHub.stopDesc
  · exact .ite hk hk.peerWrite
  · exact .ite hk.hubWrite.countHub.done hk

theorem Kept.takeWork {e : Nat} (h : Kept P s t) : Kept P s (Machine.takeWork e t) := by
  unfold Machine.takeWork
  refine .ite h ?_
  split
  · exact h
  · exact h.setDesc

theorem Kept.takeAll (h : Kept P s t) : Kept P s (Machine.takeAll t) := h.fold fun _ _ hk => hk.takeWork

theorem Kept.signalCur {q : Nat} {x : Queue} {d : Desc} {st : Nat} (h : Kept P s t) : Kept P s (Machine.signalCur q x d st t).1 := by
  unfold Machine.signalCur
  split
  · exact h
  · split
    · exact h.applySignal
    · exact h.abandonSignal

theorem Kept.chainFault {x : Queue} {d : W512} (h : Kept P s t) : Kept P s (Machine.chainFault x d t) := by
  unfold Machine.chainFault
  split
  · exact h.fillFault
  · exact h

theorem Kept.abandonChain {q : Nat} {x : Queue} {cause tag fuel : Nat} {w : W512} (h : Kept P s t) :
    Kept P s (Machine.abandonChain q x cause tag fuel w t) := by
  induction fuel generalizing t w with
  | zero => exact h
  | succ n ih =>
    unfold Machine.abandonChain
    dsimp only
    split
    · split
      · exact ih (.ite h.abandonSignal h)
      · exact .chainFault (.ite h.abandonSignal h)
    · exact .ite h.abandonSignal h

theorem Kept.chainRefused {q : Nat} {x : Queue} {w : W512} (h : Kept P s t) : Kept P s (Machine.chainRefused q x w t) := by
  unfold Machine.chainRefused
  split
  · exact h.logViol
  · exact h

theorem Kept.countDesc {q : Nat} {x : Queue} {w : W512} {result : Nat} (h : Kept P s t) : Kept P s (Machine.countDesc q x w result t) := by
  unfold Machine.countDesc
  dsimp only
  split
  · exact h.set
  · exact .ite h.set <| .ite h.set <| .ite h.set h.set

theorem Kept.writeCompletion {q i : Nat} {x : Queue} {d : Desc} {st dt stamp : Nat} (h : Kept P s t) :
    Kept P s (Machine.writeCompletion q i x d st dt stamp t) :=
  h.ringWrite.ringWrite

theorem Kept.retireVer {v : Nat} (h : Kept P s t) : Kept P s (Machine.retireVer v t) := by
  unfold Machine.retireVer
  split
  · exact h
  · dsimp only
    split
    · exact h.set
    · refine .fold (.contextWalk h.set) fun _ _ hk => ?_
      split
      · exact .ite hk hk.set
      · exact hk

theorem Kept.settleVers (h : Kept P s t) : Kept P s (Machine.settleVers t) := by
  unfold Machine.settleVers
  refine h.fold fun _ _ hk => ?_
  split
  · exact hk
  · exact .ite hk hk.retireVer

theorem Kept.raiseAfter {q v : Nat} (h : Kept P s t) : Kept P s (Machine.raiseAfter q v t) := by
  unfold Machine.raiseAfter
  split
  · exact h.set
  · exact h.raiseVec

theorem Kept.closeDesc {q i st dt stamp : Nat} (h : Kept P s t) : Kept P s (Machine.closeDesc q i st dt stamp t) := by
  unfold Machine.closeDesc
  split
  · dsimp only
    split
    · exact .ite (.raiseAfter (.ite h.writeCompletion h)) <| .ite h.writeCompletion h
    · refine .settleAdmin (.evictCtx (.bindAll (.settleVers ?_)))
      split
      · exact .set (.set (.ite (.raiseAfter (.ite h.writeCompletion h)) (.ite h.writeCompletion h)))
      · exact .set (.ite (.raiseAfter (.ite h.writeCompletion h)) (.ite h.writeCompletion h))
  · exact h

theorem Kept.dropChain {q i : Nat} {x : Queue} {d : Desc} {cause st dt : Nat} {log : W512 → State → State} (h0 : Kept P s u)
    (h : Kept P s t)
    (hlog : ∀ w a, Kept P s a → Kept P s (log w a)) : Kept P s (Machine.dropChain q i x d cause st dt log u t) := by
  unfold Machine.dropChain
  split
  · exact h.chainFault.closeDesc
  · split
    · exact .closeDesc (hlog _ _ h)
    · split
      · exact h0.waitRecord
      · exact .closeDesc (hlog _ _ h.abandonChain)

theorem Kept.completeDesc {q i : Nat} (h : Kept P s t) : Kept P s (Machine.completeDesc q i t) := by
  unfold Machine.completeDesc
  split
  · split
    · exact h
    · split
      · exact h.waitRecord
      · split
        next s0 st0 dt0 e =>
          have h0 : Kept P s s0 := by
            split at e <;> cases e
            · exact h.countBreach
            · exact h
          dsimp only
          split
          · exact .closeDesc (.setDesc (.countDesc h0.signalCur))
          · split
            · exact .dropChain h (.setDesc (.countDesc h0.signalCur)) fun _ _ hk => hk
            · split
              · refine .ite ?_ ?_
                · exact .setDesc (.setDesc (.countDesc h0.signalCur))
                · exact .dropChain h (.setDesc (.countDesc h0.signalCur)) fun _ _ hk => hk.chainRefused
              · exact .dropChain h (.setDesc (.countDesc h0.signalCur)) fun _ _ hk => hk.chainRefused
  · exact h

theorem Kept.execIrqModerationTimeout {v : Nat} (h : Kept P s t) : KeptBy P s (Machine.execIrqModerationTimeout v t) := by
  unfold Machine.execIrqModerationTimeout
  split
  · exact .next h
  · exact .next (.fireVec h.set)

/-! ### Plans and their models (R239 to R241) -/

theorem Kept.holdPages {ctx first n : Nat} (h : Kept P s t) : Kept P s (Machine.holdPages ctx first n t) := by
  unfold Machine.holdPages
  split
  · exact h
  · exact h.contextWalk.fold fun _ _ hk => hk.set

theorem Kept.storePlan {q i : Nat} {x : Queue} {d : W512} {num : Nat} (h : Kept P s t) : Kept P s (Machine.storePlan q i x d num t) := by
  unfold Machine.storePlan
  dsimp only
  split
  · exact h.stopDesc
  · exact .ite h.failed (.done (.holdPages h.set))

theorem Kept.execPlanPatch {q i : Nat} (h : Kept P s t) : KeptBy P s (Machine.execPlanPatch q i t) := by
  unfold Machine.execPlanPatch
  refine h.descRow fun _ _ _ _ hk => ?_
  dsimp only
  split
  · exact hk.failed
  · exact .ite hk hk.storePlan

theorem Kept.execPlanFree {q i : Nat} (h : Kept P s t) : KeptBy P s (Machine.execPlanFree q i t) := by
  unfold Machine.execPlanFree
  refine h.descRow fun _ _ _ _ hk => ?_
  dsimp only
  split
  · exact hk.failed
  · exact .done hk.set

/-! ### Releases and the region life (R50 to R64, R218, R245) -/

theorem Kept.capDie {d : Nat} (h : Kept P s t) : Kept P s (Machine.capDie d t) := .set (.setMhz h.set)

theorem Kept.uncapDie {d : Nat} (h : Kept P s t) : Kept P s (Machine.uncapDie d t) := .ite (.retarget h.set) h

theorem Kept.capWatch (h : Kept P s t) : Kept P s (Machine.capWatch t) :=
  .ite (h.fold fun _ _ hk => hk.capDie) <| .ite h.set (.fold h.set fun _ _ hk => hk.uncapDie)

theorem Kept.uncapLc (h : Kept P s t) : Kept P s (Machine.uncapLc t) := h.fold fun _ _ hk => .ite hk.uncapDie hk

theorem Kept.admitIn {c : Launch} {p : Plan} {g : Nat} {rs : List Nat} (h : Kept P s t) : KeptOk P s (Machine.admitIn t c p g rs) := by
  unfold Machine.admitIn
  dsimp only
  split
  · exact .error
  · split
    · exact .error
    · split
      · exact .error
      · split
        · exact .error
        · split
          · exact .error
          · split
            · exact .error
            next s1 e => exact .ok (.set (h.enterModels _ e))

theorem Kept.admitGroups {c : Launch} {p : Plan} {why : Nat} {gs : List Nat} (h : Kept P s t) :
    KeptOk P s (Machine.admitGroups t c p why gs) := by
  induction gs generalizing why with
  | nil => exact .error
  | cons g gs ih =>
    unfold Machine.admitGroups
    split
    · exact ih
    · split
      next e => exact .ok (h.admitIn _ e)
      · exact ih

theorem Kept.released {q i : Nat} {l : Option Nat} (h : Kept P s t) : Kept P s (Machine.released q i l t) := by
  unfold Machine.released
  split
  · exact h
  · exact .ite h.setDesc.dropWaits.takeAll h.setDesc.dropWaits

theorem Kept.askForTurn {g : Nat} (h : Kept P s t) : Kept P s (Machine.askForTurn g t) := by
  unfold Machine.askForTurn
  split
  · exact h
  · exact .ite (h.fold fun _ _ hk => hk.askYield) h

theorem Kept.watchHeat (h : Kept P s t) : Kept P s (Machine.watchHeat t) := h.fold fun _ _ hk => .ite hk.beginEmergency hk

theorem Kept.refuseK {q i ctx st d : Nat} (h : Kept P s t) : Kept P s (Machine.refuseK q i ctx st d t) := h.signalFault.refuse

theorem Kept.admitLc {q i : Nat} {x : Queue} {d : Desc} {v : Nat} {p : Plan} {args : List Nat} (h : Kept P s t) :
    Kept P s (Machine.admitLc q i x d v p args t) := by
  unfold Machine.admitLc
  split
  · exact h.refuse
  · refine .ite h.refuse ?_
    refine .ite h.refuse ?_
    split
    · exact h.refuse
    · refine .ite h.refuse ?_
      dsimp only
      split
      · exact .ite h.refuseK h.refuse
      next s1 e => exact .askForTurn (.watchHeat (.uncapLc (.released (.getD (.useVer (h.admitGroups _ e)) (h.admitGroups _ e)))))

theorem Kept.releaseBe {q i : Nat} {x : Queue} {d : Desc} {v : Nat} {p : Plan} {args : List Nat} (h : Kept P s t) :
    Kept P s (Machine.releaseBe q i x d v p args t) := by
  unfold Machine.releaseBe
  split
  · exact h.refuse
  · exact .ite h.refuse (.released (.getD (.useVer h.set) h))

theorem Kept.waitHost {q i : Nat} {x : Queue} {page : Nat} (h : Kept P s t) : Kept P s (Machine.releaseLaunch.waitHost q i x page t) := by
  unfold Machine.releaseLaunch.waitHost
  split
  · exact h.noteWait
  · exact h

theorem Kept.releaseLaunch {q i : Nat} {x : Queue} {d : Desc} (h : Kept P s t) : Kept P s (Machine.releaseLaunch q i x d t) := by
  unfold Machine.releaseLaunch
  dsimp only
  split
  · exact .ite h.refuseK h.refuse
  · exact h
  · split
    · exact h
    · refine .ite h.refuse ?_
      refine .ite h.refuseK ?_
      split
      · exact h.refuse
      · exact h.fillFault.refuse
      · exact h.waitHost
      · exact h.fillFault.refuse
      · refine .ite h.refuse ?_
        refine .ite h.refuse <| .ite h.refuse ?_
        split
        · exact h
        · exact h.refuse
        · exact .ite h.refuse <| .ite h <| .ite h.admitLc h.releaseBe

theorem Kept.releaseHead {q i : Nat} {x : Queue} {d : Desc} (h : Kept P s t) : Kept P s (Machine.releaseHead q i x d t) := by
  unfold Machine.releaseHead
  split
  · exact h
  · exact h.refuse
  · split
    · exact h.refuse
    · refine .ite h.releaseLaunch ?_
      split
      · exact h.refuseAt
      · exact h.released

theorem Kept.execDescriptorRelease {q : Nat} (h : Kept P s t) : KeptBy P s (Machine.execDescriptorRelease q t) := by
  unfold Machine.execDescriptorRelease
  split
  · exact .next h
  · split
    · exact .next h
    · exact .ite (.next h.releaseHead) (.next h)

/-! ### Admin operations (R184, R233 to R243) -/

theorem Kept.execCtxCreate {q i : Nat} (h : Kept P s t) : KeptBy P s (Machine.execCtxCreate q i t) := by
  unfold Machine.execCtxCreate
  refine h.descRow fun _ _ _ _ hk => ?_
  dsimp only
  split
  · exact hk.failed
  · refine .ite hk ?_
    refine .ite hk.failed <| .ite hk.failed ?_
    split
    · exact hk.failed
    · exact .done (.writeCtxEntry hk.set)

theorem Kept.execQueueCreate {q i : Nat} (h : Kept P s t) : KeptBy P s (Machine.execQueueCreate q i t) := by
  unfold Machine.execQueueCreate
  refine h.descRow fun _ _ _ _ hk => ?_
  dsimp only
  split
  · exact hk.failed
  · split
    · exact hk.failed
    · exact .ite hk <| .ite hk.failed <| .ite hk.failed (.done (.writeStatus hk.set))

theorem Kept.dropUnreleased {q : Nat} (h : Kept P s t) : Kept P s (Machine.dropUnreleased q t) := by
  unfold Machine.dropUnreleased
  split
  · exact h
  · exact h.set

theorem Kept.stopForGood {l : Nat} (h : Kept P s t) : Kept P s (Machine.stopForGood l t) := by
  unfold Machine.stopForGood
  split
  · exact h
  · exact .fold (h.fold fun _ _ hk => hk.freeRegion) fun _ _ hk => hk.resetRegion

theorem Kept.abortDesc {q i : Nat} {d : Desc} (h : Kept P s t) : Kept P s (Machine.abortDesc q i d t) := by
  unfold Machine.abortDesc
  refine .completeDesc ?_
  split
  · exact h.stopForGood.endLaunch
  · exact h.finishDesc

theorem Kept.endReleased {q i : Nat} (h : Kept P s t) : Kept P s (Machine.endReleased q i t) := by
  unfold Machine.endReleased
  split
  · exact h
  · refine .ite h.abortDesc ?_
    dsimp only
    split
    · exact .ite h.completeDesc h.completeDesc.abortDesc
    · exact h.completeDesc

theorem Kept.abandonProducer {ctx k : Nat} (h : Kept P s t) : Kept P s (Machine.abandonProducer ctx k t) :=
  h.fold fun _ _ hk => hk.abandonFence

theorem Kept.removeQueue {q : Nat} (h : Kept P s t) : Kept P s (Machine.removeQueue q t) := by
  unfold Machine.removeQueue
  split
  · exact h
  · exact .reportLtr (.evictCtx (.writeCtxEntry (.settleVers (.set (.tryRecord h.set)))))

theorem Kept.execQueueDestroy {q i : Nat} (h : Kept P s t) : KeptBy P s (Machine.execQueueDestroy q i t) := by
  unfold Machine.execQueueDestroy
  refine h.descRow fun _ _ _ _ hk => ?_
  dsimp only
  split
  · exact hk.failed
  · exact .ite (.fold (.set (.dropUnreleased hk.set)) fun _ _ hk2 => hk2.endReleased) (.done (.settleDraining (.removeQueue
      (.abandonProducer (.fold (.set (.dropUnreleased hk.set)) fun _ _ hk2 => hk2.endReleased)))))

theorem Kept.endCtxLaunch {l : Nat} (h : Kept P s t) : Kept P s (Machine.endCtxLaunch l t) := by
  unfold Machine.endCtxLaunch
  split
  · exact h
  · exact .dropWaits (.set (.ite h h.stopForGood.dropPins.returnUnits))

theorem Kept.dropCtxState {ctx : Nat} {c : Ctx} (h : Kept P s t) : Kept P s (Machine.dropCtxState ctx c t) :=
  .ite (.wr (.fold h.evictModels.set fun _ _ hk => .ite hk.set hk)) (.fold h.evictModels.set fun _ _ hk => .ite hk.set hk)

theorem Kept.destroyCtx {ctx : Nat} (h : Kept P s t) : Kept P s (Machine.destroyCtx ctx t) := by
  unfold Machine.destroyCtx
  split
  · exact h
  · refine .reportLtr (.settleDraining (.settleStacks (.settleFrames (.lapseBounds (.flushAll (.writeCtxEntry (.fold (.set (.fold
      (.leaveHeld (.fold (.dropCtxState (.contextWalk (.fold (.fold (.writeCtxEntry h.set) fun _ _ hk => hk.set) fun _ _ hk =>
      hk.endCtxLaunch))) fun _ _ hk => hk.abandonFence.wakeFence)) fun _ _ hk => hk.unmapPage)) fun _ _ hk => ?_)))))))
    split
    · exact hk.askHeld
    · exact hk

end Sys2Proof.Machine
end

section
/-! SUPPORT. What the display, the media engines and the caravan keep (O47). -/

set_option Elab.async false

namespace Sys2Proof.Machine

variable {P : Parts} {s t u : State}

/-! ### Accesses of BAR0 (R6, R404, R421) -/

theorem Kept.badAccess {fn off size : Nat} (h : Kept P s t) : Kept P s (Machine.badAccess t fn off size) := .ite h.logViol h

theorem Kept.regRefused {fn off v : Nat} (h : Kept P s t) : Kept P s (Machine.regRefused t fn off v) := h.logViol

theorem Kept.regWrite {off : Nat} {eff : State → State} (h : Kept P s t) (heff : ∀ a, Kept P s a → Kept P s (eff a)) :
    KeptBy P s (Machine.regWrite off eff t) :=
  .next (.ite (heff _ h) h.badAccess)

/-! ### Display heads (R315 to R331) -/

theorem Kept.headIrq {h' : Nat} (h : Kept P s t) : Kept P s (Machine.headIrq h' t) := by
  unfold Machine.headIrq
  split
  · exact .ite h h.raiseIrq
  · exact h

theorem Kept.sinkEvent {h' what : Nat} (h : Kept P s t) : Kept P s (Machine.sinkEvent h' what t) := h.logViol

theorem Kept.readCommit {q i : Nat} (h : Kept P s t) : Kept P s (Machine.readCommit q i t) := by
  unfold Machine.readCommit
  split
  · refine .ite h ?_
    refine .ite h.refuse ?_
    dsimp only
    split
    · exact h.refuseAt
    · exact h
    · split
      · exact h.refuseAt
      · exact h
      · exact h.set
  · exact h

theorem Kept.headArrives {q : Nat} (h : Kept P s t) : Kept P s (Machine.headArrives q t) := by
  unfold Machine.headArrives
  split
  · exact h
  · split
    · exact h
    · refine .ite h ?_
      dsimp only
      split
      · exact h.setDesc.refuse.logViol
      · exact h.setDesc.readCommit.evalWait

theorem Kept.execDispCommit {q i : Nat} (h : Kept P s t) : KeptBy P s (Machine.execDispCommit q i t) := by
  unfold Machine.execDispCommit
  split
  · exact .next (.ite h.headArrives h)
  · exact .next h

theorem Kept.execCommitValidationDone {h' : Fin 4} (h : Kept P s t) : KeptBy P s (Machine.execCommitValidationDone h' t) := by
  unfold Machine.execCommitValidationDone
  dsimp only
  split
  · exact .next h
  · refine .ite (.next h) ?_
    split
    · exact .next (.refuse h.set)
    · split
      · exact .next (.refuseAt h.set)
      · exact .next h.set

theorem Kept.fetchLayers {h' : Nat} (h : Kept P s t) : Kept P s (Machine.fetchLayers h' t) := by
  unfold Machine.fetchLayers
  split
  · exact h
  · refine h.fold fun _ _ hk => ?_
    split
    · exact hk
    · exact .ite hk.set (.fillFault hk.set)

theorem Kept.countFetch {h' : Nat} (h : Kept P s t) : Kept P s (Machine.countFetch h' t) := by
  unfold Machine.countFetch
  split
  · exact h
  · exact h.countHub

theorem Kept.captureFrame {h' : Nat} (h : Kept P s t) : Kept P s (Machine.captureFrame h' t) := by
  unfold Machine.captureFrame
  dsimp only
  split
  · exact h
  · exact .ite h.set h

theorem Kept.dropGone {h' : Nat} (h : Kept P s t) : Kept P s (Machine.dropGone h' t) := by
  unfold Machine.dropGone
  dsimp only
  split
  · exact .ite h h.set
  · exact h

theorem Kept.execVblankStart {h' : Fin 4} (h : Kept P s t) : KeptBy P s (Machine.execVblankStart h' t) := by
  unfold Machine.execVblankStart
  refine .ite (.next h) ?_
  dsimp only
  split
  · exact .next h.captureFrame.dropGone.set
  · refine .ite (.next h.captureFrame.dropGone.set) ?_
    refine .ite (.next h.captureFrame.dropGone.set) ?_
    split
    · exact .next h.captureFrame.dropGone.set
    · exact .ite (.next (.done h.captureFrame.dropGone.set)) (.next (.ite h.captureFrame.dropGone.set
        (.faultEvent h.captureFrame.dropGone.set)))

theorem Kept.execWritebackDone {h' : Fin 4} (h : Kept P s t) : KeptBy P s (Machine.execWritebackDone h' t) := by
  unfold Machine.execWritebackDone
  dsimp only
  split
  · exact .next h
  · refine .ite (.next h.set) ?_
    split
    · exact .next h.waitRecord
    · split
      · exact .next h.set
      · refine .next (.applySignal (.fold h.set fun _ _ hk => ?_))
        split
        · exact hk.writePieces.countHub
        · exact hk.fillFault
        · exact hk

theorem Kept.execSignatureLatch {h' : Fin 4} {r : Fin 16} (h : Kept P s t) : KeptBy P s (Machine.execSignatureLatch h' r t) := by
  unfold Machine.execSignatureLatch
  dsimp only
  split
  · exact .next h
  · exact .ite (.next h) (.next (.ite (.headIrq h.set) h.set))

theorem Kept.enableHead {h' : Nat} (h : Kept P s t) : Kept P s (Machine.enableHead h' t) := .ite (.set (.ite h.set h)) h.wr.set

theorem Kept.disableHead {h' : Nat} (h : Kept P s t) : Kept P s (Machine.disableHead h' t) := h.set

theorem Kept.retrainHead {h' : Nat} (h : Kept P s t) : Kept P s (Machine.retrainHead h' t) := .ite h.set h

theorem Kept.writeDispCtrl {h' v : Nat} (h : Kept P s t) : Kept P s (Machine.writeDispCtrl h' v t) :=
  .ite h.regRefused <| .ite (.retrainHead (.ite (.enableHead (.ite h.wr (.wr (.ite h h.regRefused)))) (.ite (.disableHead (.ite h.wr (.wr
    (.ite h h.regRefused)))) (.ite h.wr (.wr (.ite h h.regRefused)))))) <| .ite (.enableHead (.ite h.wr (.wr (.ite h h.regRefused)))) <|
    .ite (.disableHead (.ite h.wr (.wr (.ite h h.regRefused)))) <| .ite h.wr (.wr (.ite h h.regRefused))

theorem Kept.writeTiming {h' off v : Nat} (h : Kept P s t) : Kept P s (Machine.writeTiming h' off v t) := .ite h.wr h.regRefused

theorem Kept.hpdChange {h' : Nat} {x : Head} (h : Kept P s t) : Kept P s (Machine.hpdChange h' x t) := .ite (.headIrq h.set) h.set

theorem Kept.auxSend {h' : Nat} (h : Kept P s t) : Kept P s (Machine.auxSend h' t) := .ite h h.set

theorem Kept.writeAux {h' v : Nat} (h : Kept P s t) : Kept P s (Machine.writeAux h' v t) := .ite (.auxSend h.wr.set) h.wr

theorem Kept.putAuxData {h' k : Nat} {bs : List Byte} (h : Kept P s t) : Kept P s (Machine.putAuxData h' k bs t) := by
  induction bs generalizing t k with
  | nil => exact h
  | cons b bs ih => exact ih (.ite h.wr h)

theorem Kept.execAuxComplete {h' : Fin 4} {reply : AuxReply} {data : List Byte} (h : Kept P s t) :
    KeptBy P s (Machine.execAuxComplete h' reply data t) := by
  unfold Machine.execAuxComplete
  dsimp only
  split
  · exact .next h
  · split
    · exact .next h.putAuxData.set
    · exact .next (.sinkEvent h.set)
    · split
      · exact .next (.auxSend h.set)
      · exact .next h.set
    · exact .next (.sinkEvent h.set)

/-! ### Decode and encode engines (R332 to R339) -/

theorem Kept.keepStream {q i : Nat} {x : Queue} {c : Ctx} {d : Desc} {va n : Nat} {args : List Nat} {t' : Stream} {k : State → State}
    (h : Kept P s t) (hk : ∀ a, Kept P s a → Kept P s (k a)) :
    Kept P s (Machine.keepStream q i x c d va n args t' k t) := by
  unfold Machine.keepStream
  dsimp only
  split
  · exact h.stopDesc
  · exact hk _ h.writePieces.set

theorem Kept.countPicture {e : Nat} (h : Kept P s t) : Kept P s (Machine.countPicture e t) := h.set

theorem Kept.mediaRow {op : Nat} {bad : Nat → Bool} {serve : Queue →
  Ctx → Desc → Nat → Nat → State → State} {q i : Nat} (h : Kept P s t) (hserve : ∀ x0 x1 x2 x3 x4 a, Kept P s a → Kept P s
    (serve x0 x1 x2 x3 x4 a)) : KeptBy P s (Machine.mediaRow op bad serve q i t) := by
  unfold Machine.mediaRow
  refine h.descRow fun _ _ _ _ hk2 => .takeAll (.ite hk2.failed ?_)
  split
  · refine .ite hk2 ?_
    refine .ite hk2.failed ?_
    split
    · exact hk2.stopDesc
    · exact .ite hk2.failed <| .ite hk2.failed (hserve _ _ _ _ _ _ hk2)
  · exact hk2

theorem Kept.rangeFail {q i : Nat} {x : Queue} {w : W512} {e : Nat × Nat × Nat} (h : Kept P s t) :
    Kept P s (Machine.rangeFail q i x w e t) :=
  .failed (.ite h.fillFault h)

theorem Kept.decodePicture {q i : Nat} {x : DecodeReport} {y : Queue} {c : Ctx} {d : Desc} {e w k : Nat} {refs : List Nat}
    (h : Kept P s t) :
    Kept P s (Machine.decodePicture q i x y c d e w k refs t) := by
  unfold Machine.decodePicture
  dsimp only
  split
  · exact h.stopDesc
  · exact h.stopDesc
  · exact h.stopDesc
  · exact h.keepStream fun _ hk => .ite hk.writePieces.countPicture.countHub.finishDesc hk.writePieces.countPicture.countHub.done

theorem Kept.execMediaDecode {q i : Nat} {x : DecodeReport} (h : Kept P s t) : KeptBy P s (Machine.execMediaDecode q i x t) := by
  unfold Machine.execMediaDecode
  refine h.mediaRow fun _ _ _ _ _ _ hk => ?_
  dsimp only
  split
  · exact hk.rangeFail
  · refine .ite (hk.keepStream fun _ hk2 => hk2.done) ?_
    refine .ite hk.failed ?_
    split
    · exact hk.failed
    · exact hk.decodePicture

theorem Kept.execMediaEncode {q i : Nat} (h : Kept P s t) : KeptBy P s (Machine.execMediaEncode q i t) := by
  unfold Machine.execMediaEncode
  refine h.mediaRow fun _ _ _ _ _ _ hk => ?_
  dsimp only
  split
  · exact hk.rangeFail
  · refine .ite hk.failed ?_
    split
    · exact hk.stopDesc
    · refine .ite hk.failed ?_
      split
      · exact hk.stopDesc
      · exact hk.keepStream fun _ hk2 => hk2.writePieces.countPicture.countHub.done

/-! ### The caravan (R291 to R313) -/

theorem Kept.peerLost {l : Nat} (h : Kept P s t) : Kept P s (Machine.peerLost l t) := by
  unfold Machine.peerLost
  split
  · exact h
  · exact .ite h h.endLaunch.faultEvent

theorem Kept.dropJobs {id : Nat} (h : Kept P s t) : Kept P s (Machine.dropJobs id t) := by
  unfold Machine.dropJobs
  refine h.fold fun _ _ hk => ?_
  split
  · split
    · exact .settleStacks (.settleFrames (.finishDesc (.landPrefix hk.set)))
    · exact hk.set
  · exact hk

theorem Kept.leaveNode {id : Nat} (h : Kept P s t) : Kept P s (Machine.leaveNode id t) := .dropJobs (h.fold fun _ _ hk => hk.peerLost)

theorem Kept.loseNode {id : Nat} (h : Kept P s t) : Kept P s (Machine.loseNode id t) := by
  unfold Machine.loseNode
  split
  · exact h
  · exact .leaveNode h.set

theorem Kept.tryUp {id : Nat} (h : Kept P s t) : Kept P s (Machine.tryUp id t) := by
  unfold Machine.tryUp
  split
  · exact h
  · exact .ite h.set h

theorem Kept.sendHello {id : Nat} (h : Kept P s t) : Kept P s (Machine.sendHello id t) := by
  unfold Machine.sendHello
  split
  · exact h
  · exact .ite h (.tryUp h.qSend.set)

theorem Kept.execPeerTimeout {node : W32} (h : Kept P s t) : KeptBy P s (Machine.execPeerTimeout node t) := by
  unfold Machine.execPeerTimeout
  split
  · exact .next (.ite h.loseNode h)
  · exact .next h

theorem Kept.retransmit {id : Nat} (h : Kept P s t) : Kept P s (Machine.retransmit id t) := by
  unfold Machine.retransmit
  split
  · exact h
  · exact .ite h <| .ite h.loseNode (.fold h.set fun _ _ hk => hk.sendPkt)

theorem Kept.endCopy {q i : Nat} {j : Job} (h : Kept P s t) : Kept P s (Machine.endCopy q i j t) := by
  unfold Machine.endCopy
  refine .settleStacks (.settleFrames ?_)
  split
  · exact h.fillFault.finishDesc
  · exact h.done

theorem Kept.settleJob {k : Nat} (h : Kept P s t) : Kept P s (Machine.settleJob k t) := by
  unfold Machine.settleJob
  split
  · exact h
  · split
    · exact h
    · refine .ite h ?_
      refine .ite (.endCopy h.set) ?_
      split
      · exact .ite (.peerWrite h.set) (.startJob h.set)
      · exact .ite (.endCopy (.landPrefix h.set)) h

theorem Kept.settleJobs {id : Nat} (h : Kept P s t) : Kept P s (Machine.settleJobs id t) := h.fold fun _ _ hk => hk.settleJob

theorem Kept.refuseJob {k detail off : Nat} (h : Kept P s t) : Kept P s (Machine.refuseJob k detail off t) := by
  unfold Machine.refuseJob
  split
  · exact h
  · dsimp only
    split
    · refine .launchFault ?_
      split
      · split
        · exact .ite h.set (.putRows h.set)
        · exact h.set
      · exact h.set
    · split
      · exact .settleStacks (.settleFrames (.finishDesc (.fillFault (.landPrefix h.set))))
      · exact h.set

theorem Kept.countDrop {q : Nat} (h : Kept P s t) : Kept P s (Machine.countDrop q t) := h.set

theorem Kept.frameViol {q src code : Nat} (h : Kept P s t) : Kept P s (Machine.frameViol q src code t) := h.logViol

theorem Kept.dropFrame {q : Nat} {k : QPacket} (h : Kept P s t) : Kept P s (Machine.dropFrame q k t) := h.countDrop.frameViol

theorem Kept.ackNode {id : Nat} (h : Kept P s t) : Kept P s (Machine.ackNode id t) := by
  unfold Machine.ackNode
  split
  · exact h
  · exact h.qSend

theorem Kept.nakNode {id code : Nat} (h : Kept P s t) : Kept P s (Machine.nakNode id code t) := by
  unfold Machine.nakNode
  split
  · exact h
  · exact h.qSend

theorem Kept.countArrival {i c lines : Nat} (h : Kept P s t) : Kept P s (Machine.countArrival i c lines t) := h.set

theorem Kept.takePsn {id : Nat} (h : Kept P s t) : Kept P s (Machine.takePsn id t) := by
  unfold Machine.takePsn
  split
  · exact h
  · exact h.set

theorem Kept.applyPacket {q : Nat} {k : QPacket} (h : Kept P s t) : Kept P s (Machine.applyPacket q k t) := by
  unfold Machine.applyPacket
  dsimp only
  split
  · exact h.takePsn.frameViol.countDrop.nakNode
  · exact .ite h <| .ite (.ackNode (.ite h.takePsn.hubWrite.countHub.countArrival h.takePsn.hubWrite.countHub)) (.ackNode (.countHub
      (.qSend (.tickHub h.takePsn.set))))

theorem Kept.inSequence {q : Nat} {k : QPacket} (h : Kept P s t) : Kept P s (Machine.inSequence q k t) := by
  unfold Machine.inSequence
  dsimp only
  split
  · exact h
  · exact .ite h.frameViol.countDrop.nakNode <| .ite (.ite h.frameViol.countDrop (.nakNode h.frameViol.countDrop.set)) <|
      .ite h.ackNode h.applyPacket

theorem Kept.acked {id psn : Nat} (h : Kept P s t) : Kept P s (Machine.acked id psn t) := by
  unfold Machine.acked
  split
  · exact h
  · split
    refine .fold h.set fun _ _ hk => ?_
    split
    · exact .ite hk.set hk
    · exact hk

theorem Kept.ackReceived {id psn : Nat} (h : Kept P s t) : Kept P s (Machine.ackReceived id psn t) := h.acked.pumpAll.settleJobs

theorem Kept.refusedBy {id psn detail : Nat} (h : Kept P s t) : Kept P s (Machine.refusedBy id psn detail t) := by
  unfold Machine.refusedBy
  split
  · exact h
  · split
    · exact h.ackReceived
    · exact h.acked.refuseJob.ackReceived

theorem Kept.readBack {id : Nat} {k : QPacket} (h : Kept P s t) : Kept P s (Machine.readBack id k t) := by
  unfold Machine.readBack
  split
  · exact h
  · split
    · exact h
    · exact .settleJob h.set

theorem Kept.helloFrom {q : Nat} {k : QPacket} (h : Kept P s t) : Kept P s (Machine.helloFrom q k t) := by
  unfold Machine.helloFrom
  dsimp only
  split
  · exact h.dropFrame
  · exact .ite h.frameViol <| .ite h <| .ite (.loseNode h.set) (.pumpAll (.tryUp h.set))

theorem Kept.fromNode {q : Nat} {k : QPacket} (h : Kept P s t) : Kept P s (Machine.fromNode q k t) := by
  unfold Machine.fromNode
  dsimp only
  split
  · exact h.inSequence
  · exact h.inSequence
  · exact h.readBack
  · exact h.ackReceived
  · split
    · exact h.acked.logViol.retransmit
    · exact h.acked.retransmit
    · exact h.refusedBy
    · exact h.refusedBy
    · exact h.dropFrame
  · exact h.loseNode

theorem Kept.arrives {q : Nat} {k : QPacket} (h : Kept P s t) : Kept P s (Machine.arrives q k t) := by
  unfold Machine.arrives
  refine .ite h.helloFrom ?_
  split
  · exact h.dropFrame
  · exact .ite h.dropFrame (.fromNode h.set)

theorem Kept.drainTransit {q : Nat} (h : Kept P s t) : Kept P s (Machine.drainTransit q t) := h.fold fun _ _ hk => .ite (.netSend hk.set) hk

theorem Kept.drainAll (h : Kept P s t) : Kept P s (Machine.drainAll t) := h.fold fun _ _ hk => hk.drainTransit

theorem Kept.bufferTransit {q : Nat} {e : Nat × OutMsg} (h : Kept P s t) : Kept P s (Machine.bufferTransit q e t) :=
  .ite h (.drainTransit h.set)

theorem Kept.transit {q : Nat} {k : QPacket} (h : Kept P s t) : Kept P s (Machine.transit q k t) := by
  unfold Machine.transit
  split
  · exact h.frameViol
  · exact .ite h.frameViol h.bufferTransit

theorem Kept.badFrame {q : Nat} (h : Kept P s t) : Kept P s (Machine.badFrame q t) := .ite (.logViol h.countDrop.set) h.countDrop.set

theorem Kept.receive {q : Nat} {k : QPacket} (h : Kept P s t) : Kept P s (Machine.receive q k t) :=
  .ite h <| .ite h.badFrame <| .ite h.dropFrame <| .ite h.frameViol <| .ite h.arrives <| .ite h.dropFrame h.transit

theorem Kept.receiveAs {t' q : Nat} {k : QPacket} (h : Kept P s t) : KeptBy P s (Machine.receiveAs t' q k t) := .next (.ite h.receive h)

theorem Kept.sendBye {id : Nat} (h : Kept P s t) : Kept P s (Machine.sendBye id t) := h.qSend

theorem Kept.writeNetCtrl {q v : Nat} (h : Kept P s t) : Kept P s (Machine.writeNetCtrl q v t) :=
  .ite (.wr (.set (h.fold fun _ _ hk => hk.sendBye))) <| .ite h.wr h.wr.unpause

theorem Kept.writeSakCmd {q v : Nat} (h : Kept P s t) : Kept P s (Machine.writeSakCmd q v t) :=
  .ite h.wr (.fold h.wr.set fun _ _ hk => hk.wr)

theorem Kept.execInvalidFrameReceived {p : Fin 4} {why : BadFrame} (h : Kept P s t) :
    KeptBy P s (Machine.execInvalidFrameReceived p why t) := by
  unfold Machine.execInvalidFrameReceived
  refine .ite (.next h) ?_
  split
  · exact .next h.badFrame
  · exact .next (.ite h.badFrame h)
  · exact .next (.ite h.countDrop.frameViol h.badFrame)

theorem Kept.caravanRow {kind : Nat} {eff : Queue → Desc → Nat → State → State} {q i : Nat} (h : Kept P s t)
    (heff : ∀ x0 x1 x2 a, Kept P s a → Kept P s (eff x0 x1 x2 a)) :
    KeptBy P s (Machine.caravanRow kind eff q i t) := by
  unfold Machine.caravanRow
  refine h.descRow fun _ _ _ _ hk2 => ?_
  split
  · exact hk2.stopDesc
  · exact .ite hk2.failed <| .ite (heff _ _ _ _ hk2) hk2

theorem Kept.execNodeSet {q i : Nat} (h : Kept P s t) : KeptBy P s (Machine.execNodeSet q i t) := by
  unfold Machine.execNodeSet
  refine h.caravanRow fun _ _ _ _ hk => .ite hk.failed (.done (.set ?_))
  split
  · exact .ite hk.leaveNode hk
  · exact hk

theorem Kept.execNodeClear {q i : Nat} (h : Kept P s t) : KeptBy P s (Machine.execNodeClear q i t) := by
  unfold Machine.execNodeClear
  refine h.caravanRow fun _ _ _ _ hk => ?_
  dsimp only
  split
  · exact hk.failed
  · exact .done (.set (.ite (.leaveNode (.ite hk hk.sendBye)) (.ite hk hk.sendBye)))

theorem Kept.execNodeQuery {q i : Nat} (h : Kept P s t) : KeptBy P s (Machine.execNodeQuery q i t) := by
  unfold Machine.execNodeQuery
  refine h.caravanRow fun _ _ _ _ hk => ?_
  split
  · exact hk.failed
  · exact .ite hk hk.done

theorem Kept.execExportRange {q i : Nat} (h : Kept P s t) : KeptBy P s (Machine.execExportRange q i t) := by
  unfold Machine.execExportRange
  refine h.caravanRow fun _ _ _ _ hk => .ite hk.failed ?_
  split
  · exact hk.failed
  · exact .done hk.set

theorem Kept.failQp {n : Nat} (h : Kept P s t) : Kept P s (Machine.failQp n t) := by
  unfold Machine.failQp
  split
  · exact h
  · exact .settleFrames (.fold h.set fun _ _ hk => hk.finishDesc)

theorem Kept.execQpCreate {q i : Nat} (h : Kept P s t) : KeptBy P s (Machine.execQpCreate q i t) := by
  unfold Machine.execQpCreate
  refine h.caravanRow fun _ _ _ _ hk => .ite hk.failed ?_
  split
  · exact hk.failed
  · exact .done hk.set

theorem Kept.execQpDestroy {q i : Nat} (h : Kept P s t) : KeptBy P s (Machine.execQpDestroy q i t) := by
  unfold Machine.execQpDestroy
  refine h.caravanRow fun _ _ _ _ hk => ?_
  dsimp only
  split
  · exact hk.failed
  · exact .ite hk.failed (.done hk.failQp.set)

theorem Kept.roceSend {n : Nat} {x : Qp} {kind va key len : Nat} {bs : List Byte} (h : Kept P s t) :
    Kept P s (Machine.roceSend t n x kind va key len bs) :=
  h.roceOut

theorem Kept.sendPost {n : Nat} {p : Post} (h : Kept P s t) : Kept P s (Machine.sendPost n p t) := by
  unfold Machine.sendPost
  split
  · exact h
  · exact .ite h.roceSend <| .ite h.tickHub.roceSend.countHub h

theorem Kept.roceRow {op q i : Nat} (h : Kept P s t) : KeptBy P s (Machine.roceRow op q i t) := by
  unfold Machine.roceRow
  refine h.descRow fun _ _ _ _ hk => ?_
  split
  · exact hk.stopDesc
  · refine .ite hk.failed ?_
    refine .ite hk ?_
    dsimp only
    split
    · exact hk.failed
    · refine .ite hk.failed ?_
      refine .ite hk.failed <| .ite hk <| .ite hk ?_
      split
      · exact hk.rangeFail
      · split
        · exact hk.stopDesc
        · exact .ite hk.set <| .ite hk (.sendPost hk.set)

theorem Kept.postDone {n : Nat} {x : Qp} {p : Post} (h : Kept P s t) : Kept P s (Machine.postDone n x p t) := .settleFrames (.done h.set)

theorem Kept.execRoceResponseReceived {qpn : Nat} {x : RoceResp} (h : Kept P s t) :
    KeptBy P s (Machine.execRoceResponseReceived qpn x t) := by
  unfold Machine.execRoceResponseReceived
  split
  · exact .next h
  · split
    · exact .next h
    · refine .ite (.next h) ?_
      refine .ite (.next h.badFrame) ?_
      split
      · exact .next (.ite h h.postDone)
      · exact .ite (.next h) (.next h.hubWrite.postDone.countHub)
      · exact .next h.failQp
      · exact .next (.ite h.failQp h.set)

theorem Kept.execRoceRetryTimeout {qpn : Nat} {rnr : Bool} (h : Kept P s t) : KeptBy P s (Machine.execRoceRetryTimeout qpn rnr t) := by
  unfold Machine.execRoceRetryTimeout
  split
  · exact .next h
  · exact .ite (.next h) <| .ite (.next (h.fold fun _ _ hk => hk.sendPost)) <|
      .ite (.next h.failQp) (.next (.fold h.set fun _ _ hk => hk.sendPost))

theorem Kept.writePackets {p n : Nat} {y : Qp} {key fuel va : Nat} {bs : List Byte} (h : Kept P s t) :
    Kept P s (Machine.writePackets p n y key fuel va bs t) := by
  induction fuel generalizing t va bs with
  | zero => exact h.roceSend
  | succ f ih =>
    unfold Machine.writePackets
    dsimp only
    split
    · exact h.frameViol.countDrop.roceSend
    · exact .ite h (ih h.hubWrite.countHub)

theorem Kept.roceInbound {p : Nat} {x : RoceReq} {y : Qp} (h : Kept P s t) : Kept P s (Machine.roceInbound p x y t) := by
  unfold Machine.roceInbound
  dsimp only
  split
  · split
    · exact h.roceSend
    · split
      · exact h.roceSend.failQp
      · split
        · exact h
        · exact .roceSend (.countHub (.settleFrames (.done h.hubWrite.set)))
  · split
    · exact h.writePackets
    · split
      · exact h.frameViol.countDrop.roceSend
      · split
        · exact h
        · exact h.tickHub.roceSend.countHub

theorem Kept.execRoceRequestReceived {p : Fin 4} {x : RoceReq} (h : Kept P s t) : KeptBy P s (Machine.execRoceRequestReceived p x t) := by
  unfold Machine.execRoceRequestReceived
  refine .ite (.next h) <| .ite (.next h.badFrame) <| .ite (.next h) ?_
  split
  · exact .next h
  · exact .next (.ite (.ite h.roceOut h) (.roceInbound (.ite h.roceOut h)))

end Sys2Proof.Machine
end

section
/-! SUPPORT. What faults, memory events, the security block, resets and clocks keep (O47). -/

set_option Elab.async false

namespace Sys2Proof.Machine

variable {P : Parts} {kSec kOas kSafe : Bool} {s t u : State}

/-! ### Faults and the collector (R33, R397 to R409) -/

theorem Kept.failHead {h' : Nat} (h : Kept P s t) : Kept P s (Machine.failHead h' t) :=
  .setMap (.set (.wr (.disableHead (h.fold fun _ _ hk => hk.refuse))))

theorem Kept.failPort {b : Nat} (h : Kept P s t) : Kept P s (Machine.failPort b t) := .setMap (.set (h.fold fun _ _ hk => hk.set))

theorem Kept.failEngine {e : Nat} (h : Kept P s t) : Kept P s (Machine.failEngine e t) := .setMap (.takeAll h.set)

theorem Kept.execUnitHardwareFault {u' : HwUnit} (h : Kept P s t) : KeptBy P s (Machine.execUnitHardwareFault u' t) := by
  unfold Machine.execUnitHardwareFault
  refine .ite (.next h) ?_
  split
  · exact .next h.faultEvent.regionFail
  · exact .next h.faultEvent.regionFail
  · exact .next h.faultEvent
  · exact .next h.faultEvent
  · exact .next h.faultEvent
  · exact .next h.faultEvent.failPort
  · exact .next h.faultEvent.failHead
  · exact .next h.faultEvent.failEngine

theorem Kept.clusterError {cl l : Nat} (h : Kept P s t) : Kept P s (Machine.clusterError cl l t) :=
  .ite (.regionFail (.faultEvent h.set)) h.set

theorem Kept.dataEnd {l : Nat} {x : Launch} {source unit cl d : Nat} (h : Kept P s t) : Kept P s (Machine.dataEnd l x source unit cl d t) :=
  h.endLaunch.faultEvent.clusterError

theorem Kept.execCoreEccError {c : Nat} {corrected : Bool} {place : EccPlace} (h : Kept P s t) :
    KeptBy P s (Machine.execCoreEccError c corrected place t) := by
  unfold Machine.execCoreEccError
  refine .ite (.next h) <| .ite (.next (.faultEvent h.set)) ?_
  dsimp only
  split
  · refine .next (.dataEnd ?_)
    split
    · refine .evictModels ?_
      split
      · exact h
      · exact h.set
    · split
      · exact h
      · exact h.set
  · refine .next (.faultEvent ?_)
    split
    · refine .evictModels ?_
      split
      · exact h
      · exact h.set
    · split
      · exact h
      · exact h.set

theorem Kept.parityEnd {cl c d : Nat} (h : Kept P s t) : Kept P s (Machine.parityEnd cl c d t) := by
  unfold Machine.parityEnd
  split
  · exact h.dataEnd
  · exact h.faultEvent

theorem Kept.execCdcParityError {cl c : Nat} {site : ParitySite} (h : Kept P s t) :
    KeptBy P s (Machine.execCdcParityError cl c site t) := by
  unfold Machine.execCdcParityError
  refine .ite (.next h) ?_
  dsimp only
  split
  · split
    · exact .ite (.next h) <| .ite (.next (.parityEnd h.set)) (.next (.faultEvent (.set (.tickLine h.set))))
    · exact .next h
  · split
    · exact .next (.ite (.parityEnd h.set) h)
    · exact .next h
  · exact .next (.parityEnd h.set)
  · exact .next (.ite (.parityEnd h.set) h)
  · exact .next h.parityEnd

theorem Kept.execFaultHandlingEnd {seq : Nat} (h : Kept P s t) : KeptBy P s (Machine.execFaultHandlingEnd seq t) := by
  unfold Machine.execFaultHandlingEnd
  split
  · exact .next (.ite h.set h)
  · exact .next h

theorem Kept.writeFltAck {v : Nat} (h : Kept P s t) : Kept P s (Machine.writeFltAck v t) := .ite h.regRefused h.set

theorem Kept.writeAcctMode {v : Nat} (h : Kept P s t) : Kept P s (Machine.writeAcctMode v t) := .ite h.regRefused h.set

/-! ### Memory events and translation (R174 to R192) -/

theorem Kept.readFailed {q i st d off : Nat} (h : Kept P s t) : Kept P s (Machine.readFailed q i st d off t) := by
  unfold Machine.readFailed
  split
  · exact h
  · exact .ite h <| .ite (.settleFrames (.finishDesc h.set)) <| .ite h.refuse h

theorem Kept.endMemUser {user : MemUser} (h : Kept P s t) : Kept P s (Machine.endMemUser user t).1 := by
  have hLaunch (l d : Nat) : Kept P s (match t.launch? l with
      | some x => if x.phase = Phase.ended then (t, 0) else (Machine.endLaunch l 0x10 d t, endInfo x 0x10 d)
      | none => (t, 0)).1 := by
    split
    · split
      · exact h
      · dsimp only
        exact h.endLaunch
    · exact h
  cases user with
  | transfer l => exact hLaunch l 0x0701
  | cdcFill l => exact hLaunch l 0x0702
  | descriptor q i => exact h.readFailed

theorem Kept.execMemUncorrectableError {frame : Nat} {u' : MemUser} (h : Kept P s t) :
    KeptBy P s (Machine.execMemUncorrectableError frame u' t) := by
  unfold Machine.execMemUncorrectableError
  refine .ite (.next h) ?_
  dsimp only
  exact .next (.settleStacks (.faultEvent (.ite (.set (.endMemUser h.set)) (.endMemUser h.set))))

theorem Kept.zeroFrame {a n : Nat} (h : Kept P s t) : Kept P s { t with devMem := zeroRange t.devMem a n } :=
  h.of ⟨rfl, rfl, rfl, fun hWf => (wf_iff _).2 ⟨((wf_iff t).1 hWf).1, zeroRange_wf a n ((wf_iff t).1 hWf).2⟩, id⟩

theorem Kept.retryRecords {fn : Nat} (h : Kept P s t) : Kept P s (Machine.retryRecords fn t) :=
  h.flushHeld.flushAll.fold fun _ _ hk => hk.startWaiting

theorem Kept.askAgain {fn : Nat} (h : Kept P s t) : Kept P s (Machine.askAgain fn t) := by
  unfold Machine.askAgain
  split
  · exact h
  · exact .ite h.set h.set

theorem Kept.dropPrg {k : Nat} (h : Kept P s t) : Kept P s (Machine.dropPrg k t) := by
  unfold Machine.dropPrg
  split
  · exact h
  · exact .askAgain h.set

theorem Kept.dropRetried {fn : Nat} {p : Option Nat} {page : Nat} (h : Kept P s t) : Kept P s (Machine.dropRetried fn p page t) := by
  unfold Machine.dropRetried
  split
  · exact .ite h.dropPrg h
  · exact h

theorem Kept.notPresent {fn : Nat} {p : Option Nat} {page : Nat} (h : Kept P s t) : Kept P s (Machine.notPresent fn p page t) := by
  unfold Machine.notPresent
  refine .ite h.set <| .ite (.retryRecords h.set) ?_
  dsimp only
  split
  · exact .ite (.retryRecords h.dropPrg.set) h
  · refine .ite h.set ?_
    split
    · exact h
    · exact h.set

theorem Kept.execAtsTranslationCompletion {f : Nat} {pasid : Option (BitVec 20)} {page : Nat} {ans : AtsAnswer} (h : Kept P s t) :
    KeptBy P s (Machine.execAtsTranslationCompletion f pasid page ans t) := by
  unfold Machine.execAtsTranslationCompletion
  refine .ite (.next h.dropRetried) ?_
  dsimp only
  split
  · refine .next (.retryRecords (.set ?_))
    split
    · exact .dropPrg h.set
    · exact h.set
  · exact .next h.notPresent
  · exact .next (.retryRecords h.dropRetried.set)

theorem Kept.execPageRequestResponse {prg : Nat} {code : PrgCode} (h : Kept P s t) :
    KeptBy P s (Machine.execPageRequestResponse prg code t) := by
  unfold Machine.execPageRequestResponse
  split
  · exact .next h
  · refine .ite (.next h.dropPrg) ?_
    refine .ite (.next h) ?_
    dsimp only
    split
    · exact .ite (.next h.dropPrg.set) (.next h.set)
    · exact .next (.retryRecords h.dropPrg.set)
    · exact .next (.retryRecords (.set (.dropPrg h.set)))
    · exact .next (.retryRecords h.dropPrg.set)

theorem Kept.execPageRequestTimeout {prg : Nat} (h : Kept P s t) : KeptBy P s (Machine.execPageRequestTimeout prg t) := by
  unfold Machine.execPageRequestTimeout
  split
  · exact .next h
  · exact .ite (.next h) (.next (.retryRecords h.set))

/-! ### Shared set-up registers (R360, R361, R421 to R424) -/

theorem Kept.cisternSave (h : Kept ⟨kSec, false, kSafe⟩ s t) : Kept ⟨kSec, false, kSafe⟩ s (Machine.cisternSave t) := h.setOas

theorem Kept.cisternUpset {bit : Option Nat} (h : Kept ⟨kSec, false, kSafe⟩ s t) :
    Kept ⟨kSec, false, kSafe⟩ s (Machine.cisternUpset bit t) := by
  unfold Machine.cisternUpset
  split
  · exact h
  · exact h.setOas

theorem Kept.restoreEntry {e : List Byte} (h : Kept P s t) : Kept P s (Machine.restoreEntry e t) := .ite h.set h.wr

theorem Kept.restoreEntries {n : Nat} {bs : List Byte} (h : Kept P s t) : Kept P s (Machine.restoreEntries n bs t) := by
  induction n generalizing t bs with
  | zero => exact h
  | succ n ih => exact ih h.restoreEntry

theorem Kept.cisternRestore (h : Kept ⟨kSec, false, kSafe⟩ s t) : Kept ⟨kSec, false, kSafe⟩ s (Machine.cisternRestore t) :=
  .ite h.setOas <| .ite (.restoreEntries h.setOas) (.faultEvent h.setOas)

/-! ### The security block (R378 to R396) -/

theorem Kept.setFlash {a : Nat} {bs : List Byte} (h : Kept ⟨false, kOas, kSafe⟩ s t) :
    Kept ⟨false, kOas, kSafe⟩ s (Machine.setFlash a bs t) :=
  h.setSec

theorem Kept.bootLog (h : Kept P s t) : Kept P s (Machine.bootLog t) := .ite h h.set

theorem Kept.execBootImageLoaded {readErrA readErrB : Bool} (h : Kept ⟨false, kOas, kSafe⟩ s t) :
    KeptBy ⟨false, kOas, kSafe⟩ s (Machine.execBootImageLoaded readErrA readErrB t) := by
  unfold Machine.execBootImageLoaded
  split
  · exact .next h
  · dsimp only
    split
    · exact .next (.setMap (.setMap (.bootLog h.setSec)))
    · exact .next (.bootLog h.setSec)

theorem Kept.flashGo {v : Nat} (h : Kept ⟨false, kOas, kSafe⟩ s t) : Kept ⟨false, kOas, kSafe⟩ s (Machine.flashGo v t) :=
  .ite (.regRefused h.setSec) h.setSec

theorem Kept.disarm (h : Kept ⟨false, kOas, kSafe⟩ s t) : Kept ⟨false, kOas, kSafe⟩ s (Machine.disarm t) := h.setSec

theorem Kept.writeFlashCmd {v : Nat} (h : Kept ⟨false, kOas, kSafe⟩ s t) : Kept ⟨false, kOas, kSafe⟩ s (Machine.writeFlashCmd v t) :=
  .ite h.disarm.wr.flashGo h.disarm.wr

theorem Kept.execFlashOpDone (h : Kept ⟨false, kOas, kSafe⟩ s t) : KeptBy ⟨false, kOas, kSafe⟩ s (Machine.execFlashOpDone t) := by
  unfold Machine.execFlashOpDone
  split
  · exact .next h
  · exact .ite (.next h.setSec) <| .ite (.next (.setFlash h.setSec)) (.next (.setFlash h.setSec))

theorem Kept.resetPage (h : Kept ⟨false, kOas, kSafe⟩ s t) : Kept ⟨false, kOas, kSafe⟩ s (Machine.resetPage t) := h.setSec

theorem Kept.cutFlash (h : Kept ⟨false, kOas, kSafe⟩ s t) : Kept ⟨false, kOas, kSafe⟩ s (Machine.cutFlash t) := by
  unfold Machine.cutFlash
  split
  · exact h
  · exact h.setFlash.setSec

theorem Kept.setOtp {code v : Nat} (h : Kept ⟨false, kOas, kSafe⟩ s t) : Kept ⟨false, kOas, kSafe⟩ s (Machine.setOtp code v t) := h.setSec

theorem Kept.addLedger {e : LedgerEntry} (h : Kept ⟨false, kOas, kSafe⟩ s t) : Kept ⟨false, kOas, kSafe⟩ s (Machine.addLedger e t) :=
  .ite h.setSec h

theorem Kept.completeEntries (h : Kept ⟨false, kOas, kSafe⟩ s t) : Kept ⟨false, kOas, kSafe⟩ s (Machine.completeEntries t) := h.setSec

theorem Kept.onOpenEntry {setting : Nat} {f : LedgerEntry → LedgerEntry} (h : Kept ⟨false, kOas, kSafe⟩ s t) :
    Kept ⟨false, kOas, kSafe⟩ s (Machine.onOpenEntry setting f t) := by
  unfold Machine.onOpenEntry
  dsimp only
  split
  · exact h.setSec
  · exact h

theorem Kept.ledgerComplete {setting v : Nat} (h : Kept ⟨false, kOas, kSafe⟩ s t) :
    Kept ⟨false, kOas, kSafe⟩ s (Machine.ledgerComplete setting v t) :=
  h.onOpenEntry

theorem Kept.ledgerFail {setting v : Nat} (h : Kept ⟨false, kOas, kSafe⟩ s t) :
    Kept ⟨false, kOas, kSafe⟩ s (Machine.ledgerFail setting v t) :=
  h.onOpenEntry

theorem Kept.ledgerCut {setting v : Nat} (h : Kept ⟨false, kOas, kSafe⟩ s t) :
    Kept ⟨false, kOas, kSafe⟩ s (Machine.ledgerCut setting v t) :=
  h.onOpenEntry

theorem Kept.otpDoArm {v : Nat} (h : Kept ⟨false, kOas, kSafe⟩ s t) : Kept ⟨false, kOas, kSafe⟩ s (Machine.otpDoArm v t) := h.wr.setSec

theorem Kept.otpDoGo {v : Nat} (h : Kept ⟨false, kOas, kSafe⟩ s t) : Kept ⟨false, kOas, kSafe⟩ s (Machine.otpDoGo v t) :=
  .ite (.logViol (.ite h.disarm.wr h.disarm.wr.setSec)) h.disarm.wr.addLedger.setSec

theorem Kept.writeOtpCmd {v : Nat} (h : Kept ⟨false, kOas, kSafe⟩ s t) : Kept ⟨false, kOas, kSafe⟩ s (Machine.writeOtpCmd v t) :=
  .ite h.disarm.wr <| .ite h.otpDoGo <| .ite h.otpDoArm h.disarm.wr

theorem Kept.execOtpChangeDone {verified : Nat} (h : Kept ⟨false, kOas, kSafe⟩ s t) :
    KeptBy ⟨false, kOas, kSafe⟩ s (Machine.execOtpChangeDone verified t) := by
  unfold Machine.execOtpChangeDone
  split
  · exact .next h
  · refine .ite (.next h) ?_
    refine .next (.ite (.setSec ?_) (.faultEvent (.setSec ?_)))
    · split
      · exact h.setOtp.ledgerComplete
      · exact h.setOtp.ledgerFail
    · split
      · exact h.setOtp.ledgerComplete
      · exact h.setOtp.ledgerFail

theorem Kept.cutChange (h : Kept ⟨false, kOas, kSafe⟩ s t) : Kept ⟨false, kOas, kSafe⟩ s (Machine.cutChange t) := by
  unfold Machine.cutChange
  split
  · exact h
  · exact .setSec (.ledgerCut (.setOtp h.set))

theorem Kept.eraseKeys (h : Kept ⟨false, kOas, kSafe⟩ s t) : Kept ⟨false, kOas, kSafe⟩ s (Machine.eraseKeys t) :=
  .setSec (h.fold fun _ _ hk => hk.wr)

theorem Kept.eraseAll (h : Kept ⟨false, kOas, kSafe⟩ s t) : Kept ⟨false, kOas, kSafe⟩ s (Machine.eraseAll t) :=
  .ite h.eraseKeys (h.eraseKeys.fold fun _ _ hk => hk.destroyCtx)

theorem Kept.setAction {a : Nat} (h : Kept ⟨false, kOas, kSafe⟩ s t) : Kept ⟨false, kOas, kSafe⟩ s (Machine.setAction a t) := h.setSec

theorem Kept.alarmEvent (h : Kept P s t) : Kept P s (Machine.alarmEvent t) := h.faultEvent

theorem Kept.startHaboob (h : Kept ⟨false, kOas, kSafe⟩ s t) : Kept ⟨false, kOas, kSafe⟩ s (Machine.startHaboob t) := by
  unfold Machine.startHaboob
  refine .setSec ?_
  split
  · exact h.addLedger
  · exact h

theorem Kept.runAction {bit : Nat} (h : Kept ⟨false, kOas, kSafe⟩ s t) : Kept ⟨false, kOas, kSafe⟩ s (Machine.runAction bit t) :=
  .ite h.alarmEvent <| .ite h.cutChange.setAction.alarmEvent <| .ite h.cutChange.setAction.eraseAll.alarmEvent
    h.cutChange.setAction.eraseAll.startHaboob

theorem Kept.raiseAlarm {bit : Nat} (h : Kept ⟨false, kOas, kSafe⟩ s t) : Kept ⟨false, kOas, kSafe⟩ s (Machine.raiseAlarm bit t) :=
  .ite h.setSec (.runAction h.setSec)

theorem Kept.writeAlarm {v tripping : Nat} (h : Kept ⟨false, kOas, kSafe⟩ s t) :
    Kept ⟨false, kOas, kSafe⟩ s (Machine.writeAlarm v tripping t) :=
  h.disarm.setSec

theorem Kept.destroySeed (h : Kept ⟨false, kOas, kSafe⟩ s t) : Kept ⟨false, kOas, kSafe⟩ s (Machine.destroySeed t) := by
  unfold Machine.destroySeed
  split
  · exact h.setSec
  · exact h

theorem Kept.cutHaboob (h : Kept ⟨false, kOas, kSafe⟩ s t) : Kept ⟨false, kOas, kSafe⟩ s (Machine.cutHaboob t) :=
  .ite h (.setSec (.set (.ite h.destroySeed.ledgerCut h)))

theorem Kept.attestStart (h : Kept ⟨false, kOas, kSafe⟩ s t) : Kept ⟨false, kOas, kSafe⟩ s (Machine.attestStart t) := h.setSec

theorem Kept.drawSeed (h : Kept ⟨false, kOas, kSafe⟩ s t) : Kept ⟨false, kOas, kSafe⟩ s (Machine.drawSeed t) := by
  unfold Machine.drawSeed
  split
  · exact .fold (.addLedger h.setSec) fun _ _ hk => hk.setFlash
  · exact h

/-! ### Resets, power and start-up (R34, R355 to R377) -/

theorem Kept.moduleReset {lost : Bool} (h : Kept ⟨false, kOas, false⟩ s t) : Kept ⟨false, kOas, false⟩ s (Machine.moduleReset lost t) := by
  have hCut : Kept ⟨false, kOas, false⟩ s (Machine.cutHaboob (Machine.cutChange (Machine.cutFlash t))) := h.cutFlash.cutChange.cutHaboob
  exact ⟨hCut.pending, fun hWf => (wf_iff _).2 ⟨((wf_iff _).1 (hCut.wf hWf)).1, keptMem_wf (hCut.wf hWf) lost⟩, nofun, hCut.oas, nofun⟩

theorem Kept.setBlower (h : Kept P s t) : Kept P s (Machine.setBlower t) := .ite h h.set

theorem Kept.lockAll (h : Kept P s t) : Kept P s (Machine.lockAll t) := .fold h.set fun _ _ hk => hk.setSrc

theorem Kept.checkSupply (h : Kept P s t) : Kept P s (Machine.checkSupply t) := .ite (.fold h.set fun _ _ hk => hk.setRgnState) h.set

theorem Kept.tamperAtStart (h : Kept ⟨false, kOas, kSafe⟩ s t) : Kept ⟨false, kOas, kSafe⟩ s (Machine.tamperAtStart t) :=
  .ite h <| .ite (.raiseAlarm h.set) (.setSec h.set)

theorem Kept.startUp (h : Kept ⟨false, false, kSafe⟩ s t) : Kept ⟨false, false, kSafe⟩ s (Machine.startUp t) :=
  .ite (.setMap (.setMap (.tamperAtStart (.completeEntries h.set)))) (.setBlower (.checkSupply (.lockAll (.cisternRestore (.tamperAtStart
    (.completeEntries h.set))))))

theorem Kept.resetStart (h : Kept ⟨false, false, false⟩ s t) : Kept ⟨false, false, false⟩ s (Machine.resetStart t) := h.moduleReset.startUp

theorem Kept.setWake {c : Nat} (h : Kept ⟨kSec, false, kSafe⟩ s t) : Kept ⟨kSec, false, kSafe⟩ s (Machine.setWake c t) := h.setOas

theorem Kept.enterOasis (h : Kept ⟨false, kOas, false⟩ s t) : Kept ⟨false, kOas, false⟩ s (Machine.enterOasis t) := h.moduleReset.set

theorem Kept.powerLoss (h : Kept ⟨false, kOas, false⟩ s t) : Kept ⟨false, kOas, false⟩ s (Machine.powerLoss t) :=
  .ite h.set (.enterOasis h.set)

theorem Kept.safeExitBit {v : Nat} (h : Kept ⟨false, false, false⟩ s t) : Kept ⟨false, false, false⟩ s (Machine.safeExitBit v t) :=
  .ite h.resetStart h.regRefused

theorem Kept.sendTripIrq (h : Kept ⟨kSec, false, kSafe⟩ s t) : Kept ⟨kSec, false, kSafe⟩ s (Machine.sendTripIrq t) :=
  .ite (.raiseIrq h.setOas) h

theorem Kept.placeReserved (h : Kept P s t) : Kept P s (Machine.placeReserved t) :=
  .ite h <| .ite (.setMap h.set) (h.setMap.fold fun _ _ hk => hk.faultEvent)

theorem Kept.headReports {h' : Nat} (h : Kept P s t) : Kept P s (Machine.headReports h' t) := .ite h.setMap.enableHead h.setMap

theorem Kept.portReports {b : Nat} (h : Kept P s t) : Kept P s (Machine.portReports b t) := .setMap h.set

theorem Kept.execUnitReady {u' : BootUnit} {ok : Bool} (h : Kept P s t) : KeptBy P s (Machine.execUnitReady u' ok t) := by
  unfold Machine.execUnitReady
  refine .ite (.next h) ?_
  split
  · exact .next (.ite h.headReports h.faultEvent.failHead)
  · exact .next (.ite (.setMap h.set) h.faultEvent.failEngine)
  · exact .next (.ite h.portReports h.faultEvent.failPort)

theorem Kept.markFence {ctx : Nat} {d : W512} (h : Kept P s t) : Kept P s (Machine.markFence ctx d t) := by
  unfold Machine.markFence
  refine .ite h ?_
  split
  · exact h.set
  · exact h

theorem Kept.endForSleep {q : Nat} {x : Queue} {e : Nat × Desc} (h : Kept P s t) : Kept P s (Machine.endForSleep q x e t) := by
  unfold Machine.endForSleep
  refine .ite h ?_
  refine .markFence ?_
  split
  · exact h.endLaunch
  · exact h.finishDesc

theorem Kept.endAllForSleep (h : Kept P s t) : Kept P s (Machine.endAllForSleep t) :=
  h.fold fun _ _ hk => hk.fold fun _ _ hk2 => hk2.endForSleep

theorem Kept.sleepRegions (h : Kept P s t) : Kept P s (Machine.sleepRegions t) := .set (h.fold fun _ _ hk => hk.rgnFlush)

theorem Kept.clearUnitBits (h : Kept P s t) : Kept P s (Machine.clearUnitBits t) := h.of (clearUnitBits_keeps ..)

theorem Kept.sleepRest (h : Kept ⟨kSec, false, kSafe⟩ s t) : Kept ⟨kSec, false, kSafe⟩ s (Machine.sleepRest t) := h.setOas

theorem Kept.restoreFailed (h : Kept P s t) : Kept P s (Machine.restoreFailed t) := h.fold fun _ _ hk => hk.setMap

theorem Kept.firePending {fn : Nat} (h : Kept P s t) : Kept P s (Machine.firePending fn t) := h.fold fun _ _ hk => .ite (.fireVec hk.set) hk

theorem Kept.resumeFn {fn : Nat} (h : Kept P s t) : Kept P s (Machine.resumeFn fn t) := h.retryRecords.firePending

theorem Kept.wakeClocks (h : Kept P s t) : Kept P s (Machine.wakeClocks t) := h.lockAll.endEmergency

/-! ### Clocks, trips and heat (R342 to R354, R415, R418) -/

theorem Kept.stopHead {h' : Nat} {st : HeadState} (h : Kept P s t) : Kept P s (Machine.stopHead h' st t) := .ite h h.set

theorem Kept.stopPort {b : Nat} (h : Kept P s t) : Kept P s (Machine.stopPort b t) := h.fold fun _ _ hk => hk.set

theorem Kept.stopAllUnits (h : Kept P s t) : Kept P s (Machine.stopAllUnits t) :=
  .fold (h.fold fun _ _ hk => hk.stopHead) fun _ _ hk => hk.stopPort

theorem Kept.tripLatch {bit : Nat} (h : Kept ⟨kSec, false, kSafe⟩ s t) : Kept ⟨kSec, false, kSafe⟩ s (Machine.tripLatch bit t) := h.setOas

theorem Kept.tripRecord {unit : Nat} {severe : Bool} (h : Kept ⟨false, kOas, kSafe⟩ s t) :
    Kept ⟨false, kOas, kSafe⟩ s (Machine.tripRecord unit severe t) :=
  .ite h.faultEvent.raiseAlarm h.faultEvent

theorem Kept.answerTrip {a : TripAnswer} (h : Kept ⟨false, false, false⟩ s t) : Kept ⟨false, false, false⟩ s (Machine.answerTrip a t) := by
  unfold Machine.answerTrip
  dsimp only
  split
  · exact h.tripRecord.beginEmergency
  · exact h.tripRecord.beginEmergency.stopAllUnits
  · exact h.tripRecord.resetStart

theorem Kept.oasisSafe (h : Kept ⟨false, kOas, kSafe⟩ s t) : Kept ⟨false, kOas, kSafe⟩ s (Machine.oasisSafe t) :=
  .ite (.set (.ite (.ite h h.enterSafe.set) (.faultEvent (.fold h.set fun _ _ hk => hk.tripRecord)))) <|
    .ite (.ite h h.enterSafe.set) (.faultEvent (.fold h.set fun _ _ hk => hk.tripRecord))

theorem Kept.fallBack {a : TripAnswer} (h : Kept ⟨false, false, false⟩ s t) : Kept ⟨false, false, false⟩ s (Machine.fallBack a t) :=
  .ite h.answerTrip <| .ite (.answerTrip (h.fold fun _ _ hk => hk.setSrc)) <|
    .ite (.oasisSafe (.fold h.setOas fun _ _ hk => hk.stopDomain)) (.fold h.setOas fun _ _ hk => hk.stopDomain)

theorem Kept.trip {bit : Nat} {a : TripAnswer} (h : Kept ⟨false, false, false⟩ s t) : Kept ⟨false, false, false⟩ s (Machine.trip bit a t) :=
  h.tripLatch.fallBack.sendTripIrq

theorem Kept.restartHead {h' : Nat} (h : Kept P s t) : Kept P s (Machine.restartHead h' t) := .ite h h.set

theorem Kept.enterOwed (h : Kept P s t) : Kept P s (Machine.enterOwed t) := .ite (.signalFault (.newRecord h.set)) h

theorem Kept.writeClkSrc {v : Nat} (h : Kept P s t) : Kept P s (Machine.writeClkSrc v t) :=
  .ite (.regRefused h.set) <| .ite (.fold h.set fun _ _ hk => hk.setSrc) (.endEmergency (.fold h.set fun _ _ hk => hk.setSrc))

theorem Kept.writeCoreCtrl {d v : Nat} (h : Kept P s t) : Kept P s (Machine.writeCoreCtrl d v t) := .ite h.regRefused h.wr.retarget

theorem Kept.writeFabCtrl {v : Nat} (h : Kept P s t) : Kept P s (Machine.writeFabCtrl v t) := .ite h.wr h.regRefused

theorem Kept.writeFeCtrl {v : Nat} (h : Kept P s t) : Kept P s (Machine.writeFeCtrl v t) := .ite h.wr h.regRefused

theorem Kept.lowerDie {mhz d : Nat} (h : Kept P s t) : Kept P s (Machine.lowerDie mhz d t) := .ite h.setMhz h

theorem Kept.setJunction {d t' : Nat} (h : Kept P s t) : Kept P s (Machine.setJunction d t' t) := .ite h.set h.set

theorem Kept.writeThermal {v : Nat} (h : Kept P s t) : Kept P s (Machine.writeThermal v t) := h.wr.set

theorem Kept.engageBrake {cause mhz : Nat} (h : Kept P s t) : Kept P s (Machine.engageBrake cause mhz t) :=
  .ite h (.fold (.beginEmergency h.set) fun _ _ hk => hk.lowerDie)

theorem Kept.writeCap {v : Nat} (h : Kept P s t) : Kept P s (Machine.writeCap v t) := .capWatch h.wr.set

end Sys2Proof.Machine
end

section
/-! SUPPORT. What tile rendering keeps (O47). -/

set_option Elab.async false

namespace Sys2Proof.Machine

variable {P : Parts} {s t u : State}

/-! ### Data of tile rendering (R125 to R153) -/

theorem Kept.poke {k : Ctx} {va : Nat} {bs : List Byte} (h : Kept P s t) : Kept P s (Machine.poke t k va bs) := h.writePieces

theorem Kept.pokeOver {d : Nat} {k : Ctx} {va : Nat} {bs : List Byte} (h : Kept P s t) : Kept P s (Machine.pokeOver d k va bs t) :=
  h.poke.tickCross

theorem Kept.putOver {c a : Nat} {bs : List Byte} (h : Kept P s t) : Kept P s (Machine.putOver c a bs t) := h.putTs.tickCross

/-! ### Events of tile rendering (R125 to R153) -/

theorem Kept.setGfx {c : Nat} {g : CoreGfx} (h : Kept P s t) : Kept P s (Machine.setGfx t c g) := h.set

theorem Kept.setGeo {r : Nat} {g : Geo} (h : Kept P s t) : Kept P s (Machine.setGeo t r g) := h.set

theorem Kept.noteExcess {l d : Nat} (h : Kept P s t) : Kept P s (Machine.noteExcess l d t) := by
  unfold Machine.noteExcess
  split
  · exact h
  · exact .ite h.set h

theorem Kept.leaveLc {l : Nat} (h : Kept P s t) : Kept P s (Machine.leaveLc l t) := by
  unfold Machine.leaveLc
  split
  · exact h
  · exact .ite (.settleDraining (.lapseBounds h.set)) h

theorem Kept.passFault {l r : Nat} {e : Nat × Nat} (h : Kept P s t) : Kept P s (Machine.passFault t l r e) := h.launchFault

theorem Kept.gfxPoint {r : Nat} (h : Kept P s t) : Kept P s (Machine.gfxPoint r t) := by
  unfold Machine.gfxPoint
  split
  · exact h
  · refine .ite h ?_
    split
    · exact .ite h.endLaunch h
    · exact .ite h (.fold h.set fun _ _ hk => hk.set)

theorem Kept.clearAttach {p : PassRec} {c slot t' : Nat} {a : Attach × Nat} (h : Kept P s t) :
    Kept P s (Machine.clearAttach p c slot t' a t) :=
  .ite h.set (.coreFlags (.fold h.set fun _ _ hk => hk.fold fun _ _ hk2 => hk2.putTs))

theorem Kept.promote {pl : Plan} {x : Launch} {c : Nat} (h : Kept P s t) : Kept P s (Machine.promote pl x c t) := by
  unfold Machine.promote
  dsimp only
  split
  · exact .ite h (.setGfx (h.fold fun _ _ hk => hk.clearAttach))
  · exact h

theorem Kept.settleTile {l : Nat} {pl : Plan} {c : Nat} (h : Kept P s t) : Kept P s (Machine.settleTile l pl c t) := by
  unfold Machine.settleTile
  split
  · exact h
  · dsimp only
    split
    · exact .ite h.promote <| .ite h.promote.setGfx <| .ite h.promote <| .ite h.promote h.promote.setGfx.leaveLc.promote
    · exact h.promote

theorem Kept.startGeo {r : Nat} (h : Kept P s t) : Kept P s (Machine.startGeo r t) := by
  unfold Machine.startGeo
  split
  · refine .ite h ?_
    refine .ite h.abortLaunch ?_
    dsimp only
    split
    · exact h.passFault
    · split
      · exact .passFault (.ite (.fold (.ite h.noteExcess.leaveLc h) fun _ _ hk => hk.pokeOver) (.ite h.noteExcess.leaveLc h))
      · exact .setGeo (.countRgnBytes (.ite (.fold (.ite h.noteExcess.leaveLc h) fun _ _ hk => hk.pokeOver) (.ite h.noteExcess.leaveLc h)))
  · exact h

theorem Kept.stageBlocks {k : Ctx} {x : Launch} {p : PassRec} {c buf : Nat} {bs : List (List Nat)} (h : Kept P s t) :
    Kept P s (Machine.stageBlocks t k x p c buf bs) :=
  h.fold fun _ _ hk => hk.putOver

theorem Kept.emptyPool {x : Launch} {p : PassRec} {k : Ctx} {i r : Nat} (h : Kept P s t) : Kept P s (Machine.emptyPool x p k i r t) :=
  .setGeo (h.fold fun _ _ hk => hk.pokeOver)

theorem Kept.endRound {r i : Nat} (h : Kept P s t) : Kept P s (Machine.endRound r i t) := by
  unfold Machine.endRound
  split
  · exact h
  · refine .ite h ?_
    refine .fold (.fold h.set fun _ _ hk => hk.emptyPool) fun _ _ hk => .ite ?_ hk
    split
    · exact hk.passFault
    · exact hk.countRgnBytes.setGeo

theorem Kept.leavePass {c : Nat} (h : Kept P s t) : Kept P s (Machine.leavePass c t) := by
  unfold Machine.leavePass
  refine .ite ?_ h
  dsimp only
  split
  · exact h.setGfx.endRound
  · exact h.setGfx

theorem Kept.startPass {c : Nat} (h : Kept P s t) : Kept P s (Machine.startPass c t) := by
  unfold Machine.startPass
  dsimp only
  split
  · refine .ite h ?_
    refine .ite h.abortLaunch ?_
    split
    · exact h.passFault
    · exact h.stageBlocks.countRgnBytes.setGfx.leavePass
  · exact h

theorem Kept.binPrim {l : Nat} {x : Launch} {pl : Plan} {k : Ctx} {i r : Nat} {q : Prim} (h : Kept P s t) :
    Kept P s (Machine.binPrim l x pl k i r q t).1 := by
  unfold Machine.binPrim
  dsimp only
  split
  · exact h.setGeo.noteExcess
  · split
    · exact h.passFault
    · exact .setGeo (h.fold fun _ _ hk => hk.pokeOver)

theorem Kept.countPrim {l : Nat} {pl : Plan} (h : Kept P s t) : Kept P s (Machine.countPrim l pl t) := by
  unfold Machine.countPrim
  split
  · exact h
  · dsimp only
    split
    · exact .ite (.noteExcess h.set) h.set
    · exact h.set

theorem Kept.binBatch {l : Nat} {pl : Plan} {k : Ctx} {i r : Nat} {d : Draw} {b : Batch} {fuel n : Nat} (h : Kept P s t) :
    Kept P s (Machine.binBatch l pl k i r d b fuel n t).1 := by
  induction fuel generalizing t n with
  | zero => exact h
  | succ m ih =>
    unfold Machine.binBatch
    dsimp only
    split
    · exact ih h
    · split
      · exact ih (.countPrim h.set)
      · split
        · exact h
        · split
          next s1 e => exact ih (.countPrim (.ofFst h.binPrim e))
          next s1 e => exact .ofFst h.binPrim e

theorem Kept.finishBatch {l : Nat} {x : Launch} {pl : Plan} {k : Ctx} {i r draw : Nat} {bs : List Batch} (h : Kept P s t) :
    Kept P s (Machine.finishBatch l x pl k i r draw bs t) := by
  unfold Machine.finishBatch
  dsimp only
  split
  · exact .gfxPoint (.setGeo (.ite h h.leaveLc))
  · split
    · exact .passFault (.ite h h.leaveLc)
    · exact .gfxPoint (.setGeo (.countRgnBytes (.ite h h.leaveLc)))

theorem Kept.execBatchBinned {r : Nat} (h : Kept P s t) : KeptBy P s (Machine.execBatchBinned r t) := by
  unfold Machine.execBatchBinned
  split
  · refine .ite (.next h) ?_
    refine .ite (.next h) ?_
    dsimp only
    split
    · exact .next h
    · split
      next s1 e =>
        split
        · exact .next (.finishBatch (.ofFst h.binBatch e))
        · exact .next (.ofFst h.binBatch e)
      next s1 e => exact .next (.ofFst h.binBatch e)
  · exact .next h

theorem Kept.execBinPoolFull {r : Nat} (h : Kept P s t) : KeptBy P s (Machine.execBinPoolFull r t) := by
  unfold Machine.execBinPoolFull
  split
  · exact .ite (.next h) (.next (h.setGeo.fold fun _ _ hk => hk.setGfx))
  · exact .next h

theorem Kept.loadAttach {k : Ctx} {x : Launch} {p : PassRec} {c slot t' : Nat} {a : Attach × Nat} (h : Kept P s t) :
    Kept P s (Machine.loadAttach k x p c slot t' a t) :=
  .fold h.set fun _ _ hk => hk.fold fun _ _ hk2 => hk2.putOver

theorem Kept.execTileStagingDone {c : Nat} (h : Kept P s t) : KeptBy P s (Machine.execTileStagingDone c t) := by
  unfold Machine.execTileStagingDone
  dsimp only
  split
  · refine .ite (.next h) ?_
    split
    · exact .next h.passFault
    · split
      · exact .next h.passFault
      · exact .ite (.next h.coreAbort) (.next (.settleTile (.ite (.noteExcess (.setGfx (.countRgnBytes (.fold
          (.ite h.stageBlocks h) fun _ _ hk => hk.loadAttach)))) (.setGfx (.countRgnBytes (.fold
          (.ite h.stageBlocks h) fun _ _ hk => hk.loadAttach))))))
  · exact .next h

theorem Kept.writeSample {c : Nat} {p : PassRec} {slot a i j m v : Nat} (h : Kept P s t) :
    Kept P s (Machine.writeSample t c p slot a i j m v) :=
  h.putTs

theorem Kept.testSample {c : Nat} {p : PassRec} {slot : Nat} {it : GItem} {lane m : Nat} (h : Kept P s t) :
    Kept P s (Machine.testSample c p slot it lane m t).1 := by
  unfold Machine.testSample
  dsimp only
  split
  · exact h
  · exact h.writeSample

theorem Kept.testItem {c : Nat} {p : PassRec} {slot : Nat} {it : GItem} (h : Kept P s t) : Kept P s (Machine.testItem c p slot it t).1 := by
  unfold Machine.testItem
  refine List.foldlRecOn (motive := fun a : State × List Nat => Kept P s a.1) _ _ h fun a ha lane _ => ?_
  exact List.foldlRecOn (motive := fun b : State × Nat => Kept P s b.1) _ _ ha fun b hb m _ => hb.testSample

theorem Kept.blendSample {c : Nat} {p : PassRec} {slot : Nat} {it : GItem} {lane m : Nat} (h : Kept P s t) :
    Kept P s (Machine.blendSample c p slot it lane m t) := by
  have hTested : Kept P s (match it.early with
      | some ms => (t, bitOf (ms.getD lane 0) m)
      | none => Machine.testSample c p slot it lane m t).1 := by
    split
    · exact h
    · exact h.testSample
  exact .ite hTested (hTested.fold fun _ _ hk => hk.writeSample.coreFlags)

theorem Kept.blendItem {c : Nat} {p : PassRec} {slot : Nat} {it : GItem} (h : Kept P s t) : Kept P s (Machine.blendItem c p slot it t) :=
  h.fold fun _ _ hk => hk.fold fun _ _ hk2 => hk2.blendSample

theorem Kept.countOverdraw {l : Nat} {pl : Plan} {c : Nat} {p : PassRec} {it : GItem} (h : Kept P s t) :
    Kept P s (Machine.countOverdraw l pl c p it t) := by
  unfold Machine.countOverdraw
  dsimp only
  split
  · exact .ite h.setGfx.noteExcess h.setGfx
  · exact h.setGfx

theorem Kept.execFragmentBlended {c : Nat} (h : Kept P s t) : KeptBy P s (Machine.execFragmentBlended c t) := by
  unfold Machine.execFragmentBlended
  dsimp only
  split
  · split
    · exact .next h.settleTile.gfxPoint
    · split
      · exact .next (.gfxPoint (.settleTile (.setGfx (.ite (.ite h h.countOverdraw) (.blendItem (.ite h h.countOverdraw))))))
      · exact .next (.setLg (.ite (.ite h h.countOverdraw) (.blendItem (.ite h h.countOverdraw))))
  · exact .next h

theorem Kept.storeAttach {k : Ctx} {x : Launch} {p : PassRec} {round : Bool} {c slot t' : Nat} {a : Attach × Nat} (h : Kept P s t) :
    Kept P s (Machine.storeAttach k x p round c slot t' a t) :=
  h.fold fun _ _ hk => .ite (hk.fold fun _ _ hk2 => hk2.pokeOver) (.ite hk.pokeOver.coreFlags hk)

theorem Kept.execTileWriteOutDone {c : Nat} (h : Kept P s t) : KeptBy P s (Machine.execTileWriteOutDone c t) := by
  unfold Machine.execTileWriteOutDone
  dsimp only
  split
  · split
    · exact .next h.passFault
    · exact .next (.gfxPoint (.leavePass (.settleTile (.countRgnBytes (.setGfx (h.fold fun _ _ hk => hk.storeAttach))))))
  · exact .next h

theorem Kept.closeLg {c g : Nat} (h : Kept P s t) : Kept P s (Machine.closeLg t c g) := .setLg (.closeVertex h.set)

theorem Kept.zeroScratch {p : PassRec} {c g : Nat} (h : Kept P s t) : Kept P s (Machine.zeroScratch p c g t) := h.set

theorem Kept.giveVertex {pl : Plan} {k : Ctx} {x : Launch} {c g : Nat} {it : GItem} {win : Nat} (h : Kept P s t) :
    Kept P s (Machine.giveVertex pl k x c g it win t) := by
  unfold Machine.giveVertex
  refine .setLg (.zeroScratch (h.setGeo.fold fun _ _ hk => ?_))
  split
  · exact hk.putOver.countRgnBytes
  · exact hk.putTs

theorem Kept.giveFragment {pl : Plan} {c g : Nat} {it : GItem} (h : Kept P s t) : Kept P s (Machine.giveFragment pl c g it t) := by
  have hEarly : Kept P s (if testsEarly t c then
      (let r := Machine.testItem c (passAt pl it.pass) (gfxOn t c).slot it t; (r.1, some r.2)) else (t, none)).1 := by
    split
    · dsimp only
      exact h.testItem
    · exact h
  exact .setLg (.zeroScratch (.set hEarly))

theorem Kept.giveNetwork {pl : Plan} {c g i t' : Nat} (h : Kept P s t) : Kept P s (Machine.giveNetwork pl c g i t' t) :=
  .setLg (.zeroScratch (.ite h.setGfx.set h.setGfx))

theorem Kept.belowU {c n : Nat} (h : Kept P s t) (k : Kept P s u) : Kept P s (Machine.belowU t c n u) := .ite h.coreAbort k

theorem Kept.giveVert {c g : Nat} {x : Launch} {pl : Plan} {k : Ctx} {vs : List GItem} (h : Kept P s t) :
    Kept P s (Machine.giveItem.giveVert c g t x pl k vs) := by
  unfold Machine.giveItem.giveVert
  split
  · split
    · exact .ite h.gfxPoint (h.belowU h.giveVertex)
    · exact h
  · split
    · exact h.setLg
    · exact h.gfxPoint

theorem Kept.giveItem {c g : Nat} (h : Kept P s t) : Kept P s (Machine.giveItem c g t) := by
  unfold Machine.giveItem
  dsimp only
  split
  · exact h
  · split
    · exact h.belowU h.giveNetwork
    · split
      · exact h.belowU h.giveFragment
      · exact h.giveVert
    · exact h.giveVert

theorem Kept.execGfxNext {c g : Nat} {w : W128} (h : Kept P s t) : KeptBy P s (Machine.execGfxNext c g w t) := by
  unfold Machine.execGfxNext
  refine h.coreRow fun _ hk => ?_
  split
  · exact hk
  · exact hk.closeLg.settleTile.giveItem

theorem Kept.itemRow {op kind : Nat} {eff : PassRec →
  GItem → Lg → State → State} {c g : Nat} {w : W128} (h : Kept P s t) (heff : ∀ x0 x1 x2 a, Kept P s a → Kept P s
    (eff x0 x1 x2 a)) : KeptBy P s (Machine.itemRow op kind eff c g w t) := by
  unfold Machine.itemRow
  refine h.coreRow fun _ hk2 => ?_
  split
  · exact .ite (heff _ _ _ _ hk2) hk2.coreAbort
  · exact hk2.coreAbort

theorem Kept.cdcTexel {c g : Nat} {k : Ctx} {x : Launch} {m : Sampler} {e : Texel} {n : Nat} (h : Kept P s t) :
    Kept P s (Machine.cdcTexel c g k x m e n t) := by
  unfold Machine.cdcTexel
  dsimp only
  split
  · exact h.makeAcc
  · exact h

theorem Kept.sampleDone {c g : Nat} {w : W128} {m : Sampler} {lanes : List Nat} {zero : Nat → Bool} {reads : Nat → List Texel}
    {uv : Nat → Nat × Nat} {lod : Nat → ℤ} {nan : Bool} {vals : List Nat} (h : Kept P s t) :
    Kept P s (Machine.sampleDone c g w m lanes zero reads uv lod nan vals t) :=
  h.coreFlags.setLg

theorem Kept.sampleLanes {c g : Nat} {w : W128} {p : PassRec} {it : GItem} {y : Lg} {plan : Bool} {uv : Nat → Nat × Nat}
    {lod : Sampler → Nat → ℤ} (h : Kept P s t) :
    Kept P s (Machine.sampleLanes c g w p it y plan uv lod t) := by
  unfold Machine.sampleLanes
  split
  · exact h
  · split
    · dsimp only
      split
      · refine ?_
        split
        · split
          · exact h.sampleDone
          · exact h
        · exact h
      · split
        · exact h.launchFault
        · refine .ite ?_ ?_
          · exact h
          · refine ?_
            split
            · split
              · exact .sampleDone (h.setLg.fold fun _ _ hk => hk.cdcTexel)
              · exact h.setLg.fold fun _ _ hk => hk.cdcTexel
            · exact h.setLg.fold fun _ _ hk => hk.cdcTexel
    · exact h.setLg

end Sys2Proof.Machine
end

section
/-! SUPPORT. What Oasis, the host link and register writes keep (O47). -/

set_option Elab.async false

namespace Sys2Proof.Machine

variable {P : Parts} {kSec kOas kSafe : Bool} {s t u : State}

/-! ### Oasis (R363 to R372) -/

theorem Kept.setCmp {n : Nat} {c : Cmp} (h : Kept ⟨kSec, false, kSafe⟩ s t) : Kept ⟨kSec, false, kSafe⟩ s (Machine.setCmp n c t) := h.setOas

theorem Kept.wakeAction (h : Kept ⟨kSec, false, kSafe⟩ s t) : Kept ⟨kSec, false, kSafe⟩ s (Machine.wakeAction t) :=
  .ite h.set <| .ite (.setOas h.set) h

theorem Kept.fireCmp {n : Nat} (h : Kept ⟨kSec, false, kSafe⟩ s t) : Kept ⟨kSec, false, kSafe⟩ s (Machine.fireCmp n t) :=
  .ite (.raiseIrq (.ite h.setCmp.wakeAction h.setCmp)) <| .ite h.setCmp.wakeAction h.setCmp

theorem Kept.checkCmp {n : Nat} (h : Kept ⟨kSec, false, kSafe⟩ s t) : Kept ⟨kSec, false, kSafe⟩ s (Machine.checkCmp n t) := .ite h.fireCmp h

theorem Kept.writeCmpLo {n v : Nat} (h : Kept ⟨kSec, false, kSafe⟩ s t) : Kept ⟨kSec, false, kSafe⟩ s (Machine.writeCmpLo n v t) := h.setCmp

theorem Kept.writeCmpHi {n v : Nat} (h : Kept ⟨kSec, false, kSafe⟩ s t) : Kept ⟨kSec, false, kSafe⟩ s (Machine.writeCmpHi n v t) :=
  h.setCmp.checkCmp

theorem Kept.writeCmpCtrl {n v : Nat} (h : Kept ⟨kSec, false, kSafe⟩ s t) : Kept ⟨kSec, false, kSafe⟩ s (Machine.writeCmpCtrl n v t) :=
  h.setCmp.checkCmp

theorem Kept.setTemp {t' : Nat} {c : TempCmp} (h : Kept ⟨kSec, false, kSafe⟩ s t) : Kept ⟨kSec, false, kSafe⟩ s (Machine.setTemp t' c t) :=
  h.setOas

theorem Kept.writeTemp {t' v : Nat} (h : Kept ⟨kSec, false, kSafe⟩ s t) : Kept ⟨kSec, false, kSafe⟩ s (Machine.writeTemp t' v t) :=
  h.setTemp

theorem Kept.writeAuxCmp {v : Nat} (h : Kept ⟨kSec, false, kSafe⟩ s t) : Kept ⟨kSec, false, kSafe⟩ s (Machine.writeAuxCmp v t) := h.setOas

theorem Kept.writeOasEvent {v : Nat} (h : Kept ⟨kSec, false, kSafe⟩ s t) : Kept ⟨kSec, false, kSafe⟩ s (Machine.writeOasEvent v t) :=
  .ite h.setOas h

theorem Kept.writePad {v : Nat} (h : Kept ⟨kSec, false, kSafe⟩ s t) : Kept ⟨kSec, false, kSafe⟩ s (Machine.writePad v t) :=
  .ite (.setBlower h.setOas) h

theorem Kept.writeCistern {v : Nat} (h : Kept ⟨kSec, false, kSafe⟩ s t) : Kept ⟨kSec, false, kSafe⟩ s (Machine.writeCistern v t) :=
  .ite h.setOas h

/-! ### The host link (R266 to R290) -/

theorem Kept.writeCommand {f : Nat} {bus mem : Bool} (h : Kept P s t) : Kept P s (Machine.writeCommand f bus mem t) := h.set

theorem Kept.resizeBar4 {bar4 : Option (Fin 12)} (h : Kept P s t) : Kept P s (Machine.resizeBar4 bar4 t) := by
  unfold Machine.resizeBar4
  split
  · exact .ite h h.set
  · exact h

theorem Kept.writeMsix {f off size v : Nat} (h : Kept P s t) : Kept P s (Machine.writeMsix f off size v t) :=
  .ite h.badAccess (.firePending (.ite h.set h.set))

theorem Kept.destroyFns {p : Nat → Bool} (h : Kept P s t) : Kept P s (Machine.destroyFns p t) := h.fold fun _ _ hk => hk.destroyCtx

theorem Kept.flrDone {f : Nat} (h : Kept P s t) : Kept P s (Machine.flrDone f t) := .raiseIrq h.set

theorem Kept.closeDestroy {gone : List Nat} {e : Nat × Desc} (h : Kept P s t) : Kept P s (Machine.closeDestroy gone e t) :=
  .ite h.finishDesc h

theorem Kept.resetFns {p : Nat → Bool} (h : Kept P s t) : Kept P s (Machine.resetFns p t) := by
  unfold Machine.resetFns
  dsimp only
  split
  · exact h.destroyFns.fold fun _ _ hk => hk.closeDestroy
  · exact h.destroyFns

theorem Kept.stopAdmin (h : Kept P s t) : Kept P s (Machine.stopAdmin t) := by
  unfold Machine.stopAdmin
  split
  · exact h
  · exact .settleAdmin (.dropUnreleased h.set)

theorem Kept.resetFields (h : Kept P s t) : Kept P s (Machine.resetFields t) := by
  unfold Machine.resetFields
  extract_lets s1 s2
  have hPorts : Kept P s s1 := h.fold fun _ _ hk => .ite hk.writeNetCtrl hk
  have hHeads : Kept P s s2 := hPorts.fold fun _ _ hk => .ite hk hk.disableHead
  exact .stopAdmin (.set hHeads)

theorem Kept.bar4Log {off : Nat} (h : Kept P s t) : Kept P s (Machine.bar4Log off t) := .ite h h.logViol

theorem Kept.bar4Get {fuel off n : Nat} (h : Kept P s t) : Kept P s (Machine.bar4Get fuel off n t).1 := by
  induction fuel generalizing t off n with
  | zero => exact h
  | succ k ih =>
    unfold Machine.bar4Get
    dsimp only
    split
    · exact h
    · split
      · exact ih h
      · exact ih h.bar4Log

theorem Kept.putEnabled {pa : Nat} {bs : List (Option Byte)} (h : Kept P s t) : Kept P s (Machine.putEnabled pa bs t) := by
  refine List.foldlRecOn (motive := Kept P s) _ _ h fun a ha e _ => ?_
  split
  · exact ha.writePhys
  · exact ha

theorem Kept.bar4Put {fuel off : Nat} {bs : List (Option Byte)} (h : Kept P s t) : Kept P s (Machine.bar4Put fuel off bs t) := by
  induction fuel generalizing t off bs with
  | zero => exact h
  | succ k ih =>
    refine .ite h (ih ?_)
    split
    · exact h.putEnabled
    · exact h.bar4Log

theorem Kept.execBar4Read {off n : Nat} (h : Kept P s t) : KeptBy P s (Machine.execBar4Read off n t) := by
  unfold Machine.execBar4Read
  split
  · exact .next h
  · split
    next s1 bs e => exact .next (.set (.ofFst h.bar4Get e))

theorem Kept.pcieEvent {req : Nat} {aer : Option (Nat × Byte)} {hdr : List Byte} (h : Kept P s t) :
    Kept P s (Machine.pcieEvent req aer hdr t) := by
  unfold Machine.pcieEvent
  refine .logViol ?_
  split
  · exact h.set
  · exact h

theorem Kept.failRead {d : Nat} {u' : ReadUser} (h : Kept P s t) : Kept P s (Machine.failRead d u' t) := by
  unfold Machine.failRead
  split
  · split
    · exact .ite h.ringFault h
    · exact h
  · split
    · exact .ite h.launchFault h
    · exact h
  · split
    · exact .ite (.readFailed (.ite h h.fillFault)) h
    · exact h

theorem Kept.readError {d : Nat} {aer : Option (Nat × Byte)} {hdr : List Byte} {u' : ReadUser} (h : Kept P s t) :
    Kept P s (Machine.readError d aer hdr u' t) :=
  h.pcieEvent.failRead

theorem Kept.doeRequest {code : Nat} {m : List Byte} {act : DoeAct} (h : Kept P s t) : KeptBy P s (Machine.doeRequest code m act t) :=
  .ite (.next h) <| .ite (.next h.set) (.next h.set)

theorem Kept.noteSpdm {code : Nat} {m : List Byte} {fresh : Bool} {session : Option Bool} (h : Kept ⟨false, kOas, kSafe⟩ s t) :
    Kept ⟨false, kOas, kSafe⟩ s (Machine.noteSpdm code m fresh session t) :=
  h.setSec

theorem Kept.ideKm {k : Nat} {kind : IdeKm} (h : Kept P s t) : Kept P s (Machine.ideKm k kind t) := by
  unfold Machine.ideKm
  split
  · exact h.set
  · exact .ite (.fold h.set fun _ _ hk => hk.resumeFn) h
  · exact h.set

theorem Kept.doeAct {r : DoeReq} (h : Kept ⟨false, kOas, kSafe⟩ s t) : Kept ⟨false, kOas, kSafe⟩ s (Machine.doeAct r t) := by
  unfold Machine.doeAct
  split
  · exact h
  · exact h.noteSpdm
  · exact .ite h.ideKm h

theorem Kept.execDoeResponseReady (h : Kept ⟨false, kOas, kSafe⟩ s t) : KeptBy ⟨false, kOas, kSafe⟩ s (Machine.execDoeResponseReady t) := by
  unfold Machine.execDoeResponseReady
  split
  · exact .next h
  · exact .ite (.next h) (.next (.ite (.raiseIrq h.doeAct.set) h.doeAct.set))

theorem Kept.spdm {code : Nat} {m : List Byte} {fresh : Bool} {session : Option Bool} (h : Kept P s t) :
    KeptBy P s (Machine.spdm code m fresh session t) :=
  h.doeRequest

/-! ### Register writes (R6 to R8, R422) -/

theorem Kept.writeGroups {v : Nat} (h : Kept P s t) : Kept P s (Machine.writeGroups v t) := .ite h.wr.set h.regRefused

theorem Kept.writeAdmCtrl {v : Nat} (h : Kept P s t) : Kept P s (Machine.writeAdmCtrl v t) := .ite h.regRefused h.wr

theorem Kept.zeroArea (h : Kept P s t) : Kept P s (Machine.zeroArea t) := h.fold fun _ _ hk => hk.set

theorem Kept.writeResCtrl {v : Nat} (h : Kept P s t) : Kept P s (Machine.writeResCtrl v t) := .ite h.wr.zeroArea h.regRefused

theorem Kept.writeRegionCmd {v : Nat} (h : Kept P s t) : Kept P s (Machine.writeRegionCmd v t) :=
  .fold (h.fold fun _ _ hk => hk.drainRegion) fun _ _ hk => hk.forceOut

theorem Kept.writeRegionReturn {v : Nat} (h : Kept P s t) : Kept P s (Machine.writeRegionReturn v t) := h.fold fun _ _ hk => hk.returnRegion

theorem Kept.writeAdminReg {off v : Nat} (h : Kept P s t) : Kept P s (Machine.writeAdminReg off v t) := .ite h h.wr

theorem Kept.writeAdminCtrl {v : Nat} (h : Kept P s t) : Kept P s (Machine.writeAdminCtrl v t) :=
  .ite (.ite h h.wr.stopAdmin) h.wr.startAdmin

theorem Kept.writeReadyCopy {hi : Bool} {v : Nat} (h : Kept P s t) : Kept P s (Machine.writeReadyCopy hi v t) := .copyReady (.ite h.wr h.wr)

theorem Kept.writeFltCtrl {v : Nat} (h : Kept ⟨false, false, false⟩ s t) : Kept ⟨false, false, false⟩ s (Machine.writeFltCtrl v t) :=
  .ite h.wr.safeExitBit h.wr

theorem Kept.writeDispStatus {h' v : Nat} (h : Kept P s t) : Kept P s (Machine.writeDispStatus h' v t) := h.set

theorem Kept.writeMismatch {h' v : Nat} (h : Kept P s t) : Kept P s (Machine.writeMismatch h' v t) := h.set

theorem Kept.writePage {w v : Nat} (h : Kept ⟨false, kOas, kSafe⟩ s t) : Kept ⟨false, kOas, kSafe⟩ s (Machine.writePage w v t) := h.setSec

theorem Kept.writeOther {off v : Nat} (h : Kept P s t) : Kept P s (Machine.writeOther off v t) := by
  unfold Machine.writeOther
  split
  · exact h.wr
  · exact .ite h h.regRefused

theorem Kept.writeHeadReg {h' o off v : Nat} (h : Kept P s t) : Kept P s (Machine.writeHeadReg h' o off v t) :=
  .ite h.writeDispCtrl <| .ite h.writeTiming <| .ite h.writeDispStatus <| .ite h.writeMismatch <| .ite h.writeAux h.writeOther

theorem Kept.writeSubReg {q o off v : Nat} (h : Kept P s t) : Kept P s (Machine.writeSubReg q o off v t) :=
  .ite h.writeNetCtrl <| .ite h.writeSakCmd h.writeOther

theorem Kept.writeHif {off v : Nat} (h : Kept P s t) : Kept P s (Machine.writeHif off v t) :=
  .ite h.writeReadyCopy <| .ite h.writeReadyCopy <| .ite h.writeAdminCtrl <| .ite h.writeAdminReg <| .ite h.wr <| .ite h.wr <|
    .ite (h.writeOther.fold fun _ _ hk => hk.resumeFn) <| .ite h.writeOther.settleMod h.writeOther

theorem Kept.writeFe {off v : Nat} (h : Kept P s t) : Kept P s (Machine.writeFe off v t) :=
  .ite h.writeAdmCtrl <| .ite h.writeGroups <| .ite h.writeResCtrl <| .ite h.writeRegionCmd <| .ite h.writeRegionReturn h.writeOther

theorem Kept.writeClkReg {off v : Nat} (h : Kept P s t) : Kept P s (Machine.writeClkReg off v t) :=
  .ite h.writeClkSrc <| .ite h.set <| .ite h.writeCoreCtrl <| .ite h.writeCoreCtrl <| .ite h.writeFabCtrl <| .ite h.writeFeCtrl h.writeOther

theorem Kept.writeSecReg {off v : Nat} (h : Kept ⟨false, kOas, kSafe⟩ s t) : Kept ⟨false, kOas, kSafe⟩ s (Machine.writeSecReg off v t) :=
  .ite h.writeOtpCmd <| .ite h.writeAlarm <| .ite h.writeFlashCmd <| .ite h.disarm.writePage h.disarm.writeOther

theorem Kept.writeOasReg {off v : Nat} (h : Kept ⟨kSec, false, kSafe⟩ s t) : Kept ⟨kSec, false, kSafe⟩ s (Machine.writeOasReg off v t) :=
  .ite (.ite h.writeCmpLo <| .ite h.writeCmpHi <| .ite h.writeCmpCtrl h.writeOther) <| .ite h.writeTemp <| .ite h.writeTemp <|
    .ite h.writeAuxCmp <| .ite h.writeOasEvent <| .ite h.writePad <| .ite h.writeCistern h.writeOther

theorem Kept.writeReg {off v : Nat} (h : Kept ⟨false, false, false⟩ s t) : Kept ⟨false, false, false⟩ s (Machine.writeReg off v t) := by
  unfold Machine.writeReg
  split
  · exact h.writeHeadReg
  · exact h.writeSubReg
  · exact .ite h.writeHif <| .ite h.writeFe <| .ite h.writeClkReg <| .ite h.writeCap <| .ite h.writeThermal <| .ite h.writeFltCtrl <|
      .ite h.writeFltAck <| .ite h.writeSecReg <| .ite h.writeOasReg <| .ite h.writeAcctMode <| .ite (.ite h.set h) h.writeOther

theorem Kept.writeVf {f off v : Nat} (h : Kept P s t) : Kept P s (Machine.writeVf f off v t) := .ite h.badAccess <| .ite h h.regRefused

theorem Kept.execRegisterWrite {f : Fin 64} {off : Nat} {v : W32} (h : Kept ⟨false, false, false⟩ s t) :
    KeptBy ⟨false, false, false⟩ s (Machine.execRegisterWrite f off v t) := by
  unfold Machine.execRegisterWrite
  refine .ite (.next h) <| .ite (.next h.badAccess) <| .ite (.next h.writeMsix) <| .ite ?_ (.next h.writeVf)
  refine h.regWrite fun _ hk => ?_
  split
  · exact hk
  · exact hk.writeReg

/-! ### The tick of an empty queue (R5, R347, R365) -/

theorem Kept.tickRegion {r n : Nat} (h : Kept P s t) : Kept P s (Machine.tickRegion r n t) := .ite h <| .ite h.set h.set

theorem Kept.tickOas {n : Nat} (h : Kept ⟨kSec, false, kSafe⟩ s t) : Kept ⟨kSec, false, kSafe⟩ s (Machine.tickOas n t) := .ite h.setOas h

theorem Kept.tick (h : Kept ⟨kSec, false, kSafe⟩ s t) : Kept ⟨kSec, false, kSafe⟩ s (Machine.tick t) :=
  .ite h.tickOas (.set (.tickOas (h.fold fun _ _ hk => hk.tickRegion)))

end Sys2Proof.Machine
end

section
/-! SUPPORT. Every command and every step keep the memories in form (O47). -/

set_option Elab.async false

namespace Sys2Proof.Machine

variable {s t : State}

/-- Each command goes through its operations alone: the rows by their shared frames, the others by the lemma about their meaning. -/
theorem Kept.exec {i : Instr} (h : Kept ⟨false, false, false⟩ s t) : KeptBy ⟨false, false, false⟩ s (Machine.exec i t) := by
  cases i
  all_goals dsimp only [Machine.exec]
  -- Descriptors of a queue.
  case nop => exact h.descRow fun _ _ _ _ hk => hk.done
  case fenceRegister => exact h.execFenceRegister
  case fenceRelease => exact h.execFenceRelease
  case ctxQuery => exact h.execCtxQuery
  case launch => exact h.execLaunch
  case planLoad => exact h.descRow fun _ _ _ _ hk => .ite hk.failed hk.storePlan
  case planPatch => exact h.execPlanPatch
  case planFree => exact h.execPlanFree
  case planResidency => exact h.execPlanResidency
  case copy => exact h.execCopy
  case fill => exact h.execFill
  case memAlloc => exact h.execMemAlloc
  case memFree => exact h.execMemFree
  case memMap => exact h.execMemMap
  case memUnmap => exact h.execMemUnmap
  case migrate => exact h.execMigrate
  case advise => exact h.execAdvise
  case dispCommit => exact h.execDispCommit
  case commitValidationDone => exact h.execCommitValidationDone
  case mediaDecode => exact h.execMediaDecode
  case mediaEncode => exact h.execMediaEncode
  case nodeSet => exact h.execNodeSet
  case nodeClear => exact h.execNodeClear
  case nodeQuery => exact h.execNodeQuery
  case exportRange => exact h.execExportRange
  case unexportRange => exact h.caravanRow fun _ _ _ _ hk => .ite hk.failed (.done hk.set)
  case qpCreate => exact h.execQpCreate
  case qpDestroy => exact h.execQpDestroy
  case roceSend | roceWrite | roceRead | roceRecv => exact h.roceRow
  case ctxCreate => exact h.execCtxCreate
  case ctxDestroy => exact h.descRow fun _ _ _ _ hk => .ite hk.failed hk.destroyCtx.done
  case queueCreate => exact h.execQueueCreate
  case queueDestroy => exact h.execQueueDestroy
  -- Rings, waits and launches.
  case kick =>
    exact .ite (.next h.putCells) <| .ite (.next h.putCells.logViol) <| .ite (.next (.ite h.putCells.kickQueue h.putCells.logViol)) <|
      .ite (.next h.putCells.kickQueue) (.next h.putCells.logViol)
  case sweep =>
    exact .ite (.next h.putCells) (.next (.set (.fold (h.putCells.fold fun _ _ hk => hk.sweepQueue) fun _ _ hk => hk.readDoorbell)))
  case descriptorRead => exact .next h.readNext
  case descriptorHead => exact .next h.headArrives
  case descriptorRelease => exact h.execDescriptorRelease
  case waitReevaluation => exact .ite (.next h) (.next h.wakeFence)
  case waitTimeout => exact h.execWaitTimeout
  case descriptorComplete => exact .ite (.next h.completeDesc.settleStacks.takeAll) (.next h)
  case irqModerationTimeout => exact h.execIrqModerationTimeout
  case lcStart => exact h.execLcStart
  case beStart => exact .ite (.next h) (.next (.fold (h.fold fun _ _ hk => hk.tryBe) fun _ _ hk => hk.tryDisplace))
  case beSliceExpiry => exact h.execBeSliceExpiry
  case slipPoint => exact h.execSlipPoint
  case saveComplete => exact h.execSaveComplete
  case restore => exact h.execRestore
  case stepEnd => exact h.execStepEnd
  case crossModuleStepStart => exact h.execCrossModuleStepStart
  case stepOverrun => exact h.execStepOverrun
  case hardStop => exact h.execHardStop
  -- Regions and the admin registers.
  case drainRegion => exact h.regWrite fun _ hk => hk.drainRegion
  case forceRegion => exact h.regWrite fun _ hk => hk.forceOut
  case returnRegion => exact h.regWrite fun _ hk => hk.returnRegion
  case regionSelfTestDone =>
    exact .ite (.next h) <| .ite (.next h.setRgnState.barStarted) (.next (.regionFail (.ite (.faultEvent
      (h.fold fun _ _ hk => hk.faultEvent)) (h.fold fun _ _ hk => hk.faultEvent))))
  case regionNap => exact .ite (.next h) (.next (.setMap (.set (.fold (h.rgnFlush.fold fun _ _ hk => hk.set) fun _ _ hk => hk.set))))
  case napExit => exact .ite (.next h) (.next (.setMap h.set))
  case regionGroupsWrite => exact h.regWrite fun _ hk => hk.writeGroups
  case lcEnableWrite => exact h.regWrite fun _ hk => hk.writeAdmCtrl
  case resCtrlWrite => exact h.regWrite fun _ hk => hk.writeResCtrl
  case capWrite => exact h.regWrite fun _ hk => hk.writeCap
  -- Rows of a core.
  case ctrlNop | valuSel | valuShfl | valuBcast | vcvtCvt | vcvtCvtmx => exact h.lgRow
  case ctrlBr => exact h.coreRow fun _ hk => .ite (.ite hk.coreAbort hk.setLg) hk.setLg
  case ctrlBar => exact h.coreRow fun _ hk => .ite hk hk.setLg.set
  case ctrlSlip => exact h.coreRow fun _ hk => hk.setLg
  case ctrlEnd => exact h.coreRow fun _ hk => .set (.setLg hk.closeVertex.set)
  case scalarSmov | scalarSadd | scalarSsub | scalarSmul | scalarSand | scalarSor | scalarSxor | scalarSnot | scalarSshl | scalarSshr |
      scalarSsar | scalarScmp | scalarSucmp =>
    exact h.scalarRow
  case valuFadd | valuFsub | valuFmul | valuFfma | valuFmin | valuFmax | valuFabs | valuFneg | valuHadd2 | valuHmul2 | valuHfma2 |
      valuBadd2 | valuBmul2 | valuBfma2 | valuHmin2 | valuHmax2 | valuIadd4 | valuIsub4 | valuIadds4 | valuIsubs4 | valuIdot4 | valuMov =>
    exact h.valuRow
  case valuFcmp | valuIcmp | valuUcmp => exact h.predRow
  case valuIadd | valuIsub | valuImul | valuImulhi | valuImulhu | valuIadds | valuIsubs | valuShl | valuShr | valuSar | valuAnd | valuOr |
      valuXor | valuNot =>
    exact h.intRow
  case vfuncRcp | vfuncSqrt | vfuncRsq | vfuncExp2 | vfuncLog2 | vfuncSinpi | vfuncCospi | vfuncTanh | vfuncSigm => exact h.vfuncRow
  case tsLd => exact h.execTsLd
  case tsSt => exact h.execTsSt
  case matMma | accClear | accLoad => exact h.coreRow fun _ hk => hk.queueMat
  case accStore => exact h.coreRow fun _ hk => .ite hk (.setLg hk.set)
  case semSig => exact h.coreRow fun _ hk => .ite hk (.ite hk.coreAbort (.serveSem (.setLg hk.set)))
  case semWait => exact h.coreRow fun _ hk => .ite (.setLg hk.set) (.setLg hk.set)
  case semTry => exact h.coreRow fun _ hk => .setLg (.ite hk.set hk)
  case unpLd | unpSt | unpLfill => exact h.unpRow fun _ _ _ _ _ hk => hk.fold fun _ _ hk2 => hk2.makeAcc
  case unpAtomAdd | unpAtomFadd | unpAtomSmin | unpAtomSmax | unpAtomUmin | unpAtomUmax | unpAtomAnd | unpAtomOr | unpAtomXor |
      unpAtomExch | unpAtomCas =>
    exact h.atomRow
  case unpWb => exact h.unpRow fun _ _ _ _ _ hk => hk.fold fun _ _ hk2 => hk2.cleanLine
  case unpInv => exact h.unpRow fun _ _ _ _ _ hk => hk.fold fun _ _ hk2 => hk2.invLine
  case xferStart => exact h.execXferStart
  case xferWait => exact h.coreRow fun _ hk => .ite hk.setLg hk
  case gfxNext => exact h.execGfxNext
  case gfxVout => exact h.itemRow fun _ _ _ _ hk => hk.setGeo.setLg
  case gfxAttr | gfxFout | gfxKill => exact h.itemRow fun _ _ _ _ hk => hk.setLg
  case gfxSample | gfxUsample => exact h.itemRow fun _ _ _ _ hk => hk.sampleLanes
  case gfxTwait => exact h.itemRow fun _ _ _ _ hk => .ite hk.setLg hk.setLg
  -- Events of the cores, the cluster data cache and tile rendering.
  case autoTransferStart => exact h.execAutoTransferStart
  case transferComplete => exact h.execTransferComplete
  case cdcMissComplete => exact h.execCdcMissComplete
  case evictionWriteComplete => exact h.execEvictionWriteComplete
  case passStart => exact .next h.startGeo.startPass
  case binPoolFull => exact h.execBinPoolFull
  case tileStagingDone => exact h.execTileStagingDone
  case fragmentBlended => exact h.execFragmentBlended
  case tileWriteOutDone => exact h.execTileWriteOutDone
  -- Translation and device memory.
  case atsInvalidate => exact .next (.ite (.fold h.set fun _ _ hk => hk.contextWalk) (.set (.fold h.set fun _ _ hk => hk.contextWalk)))
  case pageRequestResponse => exact h.execPageRequestResponse
  case pageRequestTimeout => exact h.execPageRequestTimeout
  case priEnableWrite => exact .next (.ite h.set h.set)
  case frameScrubbed => exact .ite (.next h) (.next (.settleStacks (.countHub (.set h.zeroFrame))))
  case memCorrectedError => exact .ite (.next h) (.next (.faultEvent h.set))
  case memUncorrectableError => exact h.execMemUncorrectableError
  case stackFailure => exact .next (.ite h h.failStack)
  case mirrorRebuildDone => exact .ite (.next h) <| .ite (.next h.set) (.next (.set (h.fold fun _ _ hk => hk.set)))
  -- Faults and accounting.
  case ltaError => exact .next (.ite h.faultEvent h.faultEvent)
  case coreEccError => exact h.execCoreEccError
  case cdcParityError => exact h.execCdcParityError
  case unitHardwareFault => exact h.execUnitHardwareFault
  case faultHandlingEnd => exact h.execFaultHandlingEnd
  case collectorSelfFault => exact .next (.set (.ite h.faultEvent h.enterSafe.signalFault))
  case fltAckWrite => exact h.regWrite fun _ hk => hk.writeFltAck
  case safeExit => exact h.regWrite fun _ hk => hk.safeExitBit
  case acctModeWrite => exact h.regWrite fun _ hk => hk.writeAcctMode
  case acctClear => exact h.regWrite fun _ hk => hk.set
  case energySample => exact .next (.ite (.capWatch h.set) (.set (.capWatch h.set)))
  -- Resets, start-up and power states.
  case perstAssert => exact .ite (.next h.set) <| .ite (.next (.enterOasis h.set)) (.next (.moduleReset h.set))
  case perstDeassert =>
    exact .ite (.next h) <| .ite (.next h.setOas) (.next (.startUp (.cisternUpset (.set (.ite (.setWake h.setOas) h.setOas)))))
  case hotReset | linkDisable | dlDown => exact .next (.ite h.resetStart h)
  case linkTrained => exact .ite (.next h) (.next (.sendTripIrq (.setMap h.set)))
  case bootImageLoaded => exact h.execBootImageLoaded
  case feReady => exact .ite (.next h) (.next (.sendTripIrq (.startAdmin (.setMap (.setMap (.set (.attestStart (.ite h.drawSeed h))))))))
  case stackTrainingDone =>
    exact .ite (.next h) <| .ite (.next (.placeReserved (.setMap h.set))) (.next (.placeReserved (.setMap (.set (.faultEvent h.set)))))
  case unitReady => exact h.execUnitReady
  case vfFlr => exact .ite (.next h) (.next (.flrDone h.resetFns.set))
  case pfFlr => exact .ite (.next h) (.next (.flrDone (h.resetFns.resetFields.fold fun _ _ hk => hk.set)))
  case vfEnableClear => exact .ite (.next h) (.next (.flrDone (.set (h.resetFns.fold fun _ _ hk => hk.set))))
  case d3hotEntry => exact .ite (.next h) (.next (.clearUnitBits (.sleepRest (.cisternSave h.endAllForSleep.sleepRegions.set))))
  case dormantExit =>
    exact .ite (.next h) (.next (.sendTripIrq (.fold (.set (.setBlower (.restoreFailed (.fold (.cisternRestore (.cisternUpset (.set
      (.wakeClocks (.resetPage (.setWake h.set)))))) fun _ _ hk => hk.retarget)))) fun _ _ hk => hk.resumeFn)))
  case stackReady => exact .ite (.next h) <| .ite (.next (.set (.setMap h.set))) (.next (.faultEvent (.setMap h.set)))
  case mainPowerLoss => exact .next h.powerLoss
  -- The host link.
  case busMasterEnableSet => exact .ite (.next h) (.next h.resizeBar4.writeCommand.resumeFn)
  case busMasterEnableClear => exact .ite (.next h) (.next h.resizeBar4.writeCommand)
  case msixEnable => exact .ite (.next h) (.next (.firePending h.set))
  case msixTableWrite => exact .ite (.next h) (.next h.writeMsix)
  case aspmL1Entry => exact .ite (.next h.set) (.next h)
  case doeDiscovery | ideKmMessage => exact h.doeRequest
  case doeAbort | subportLinkDown | stackTemperature85c => exact .next h.set
  case doeResponseReady => exact h.execDoeResponseReady
  case getVersion | getCapabilities | negotiateAlgorithms | getDigests | getCertificate | challenge | getMeasurements | keyExchange |
      finish | heartbeat | keyUpdate | endSession =>
    exact h.spdm
  case mctpControlMessage | pldmMonitoringRequest | blowerStall => exact .next (.ite h.set h)
  case malformedTlp | poisonedWrite | unexpectedCompletion => exact .next (.ite h.pcieEvent h)
  case unsupportedRequest => exact .next (.ite h.pcieEvent.set h)
  case poisonedCompletion | errorCompletion | completionTimeout => exact .next (.ite h.readError h)
  case ideCheckFailed => exact .ite (.next h) (.next (.ite (.fold (.logViol h.set) fun _ _ hk => hk.failRead) (.logViol h.set)))
  case unalignedBar0Access => exact .ite (.next h) <| .ite (.next h) (.next (.ite h.badAccess h.badAccess.set))
  case bar4Read => exact h.execBar4Read
  case bar4Write => exact .ite (.next h) (.next h.bar4Put)
  case registerWrite => exact h.execRegisterWrite
  case adminCtrlWrite => exact h.regWrite fun _ hk => hk.writeAdminCtrl
  -- The display.
  case headEnable | headDisable | retrain => exact h.regWrite fun _ hk => hk.writeDispCtrl
  case timingWrite => exact .ite (h.regWrite fun _ hk => hk.writeTiming) (.next h)
  case linkTrainingComplete => exact .ite (.next h) <| .ite (.next h.set) <| .ite (.next h.set) (.next (.sinkEvent h.set))
  case auxRequest => exact h.regWrite fun _ hk => hk.writeAux
  case auxComplete => exact h.execAuxComplete
  case hpdLow | hpdRise => exact .ite (.next h) (.next h.hpdChange)
  case irqHpd => exact .ite (.next h) <| .ite (.next (.sinkEvent h.set)) (.next (.sinkEvent h.set))
  case frameStart => exact .ite (.next h) (.next (.set (.countFetch (.fetchLayers h.set))))
  case vblankStart => exact h.execVblankStart
  case writebackDone => exact h.execWritebackDone
  case signatureLatch => exact h.execSignatureLatch
  -- The caravan.
  case subportEnable => exact h.regWrite fun _ hk => hk.writeNetCtrl.drainAll
  case subportDisable => exact h.regWrite fun _ hk => hk.writeNetCtrl
  case sakInstall => exact h.regWrite fun _ hk => hk.writeSakCmd.drainAll
  case qanatData | qanatReadReq | qanatReadResp | qanatAck | qanatNak | qanatHello | qanatBye => exact h.receiveAs
  case qanatTransit => exact .next (.ite h h.receive)
  case retransmissionTimeout => exact .next (.ite h h.retransmit)
  case helloTimer => exact .next (.ite h (h.fold fun _ _ hk => hk.sendHello))
  case peerTimeout => exact h.execPeerTimeout
  case roceRequestReceived => exact h.execRoceRequestReceived
  case roceResponseReceived => exact h.execRoceResponseReceived
  case roceRetryTimeout => exact h.execRoceRetryTimeout
  case cnpReceived => exact .ite (.next h.badFrame) (.next h)
  -- Clocks.
  case xtalTrip => exact .ite (.next h) (.next (.trip h.set))
  case xtalLpoTrip => exact .ite (.next h) <| .ite (.next (.tripRecord (.tripLatch h.set))) (.next (.trip h.set))
  case refclkTrip => exact .ite (.next h) <| .ite (.next (.answerTrip (.tripLatch h.set))) <| .ite (.next (.trip h.set)) (.next h)
  case iboTrip => exact .ite (.next h) (.next h.tripLatch.tripRecord.sendTripIrq.set)
  case lockTrip =>
    exact .ite (.next h) <| .ite (.next (.trip h.set)) <| .ite (.next (.trip h.set)) <|
      .ite (.next (.stopPort (.faultEvent h.set))) (.next (.stopHead (.faultEvent h.set)))
  case pllRelock => exact .ite (.next h) (.next (.ite (.restartHead h.set) h.set))
  case pllRelockTimeout =>
    exact .ite (.next h) <| .ite (.next (.ite h h.faultEvent.failHead)) <| .ite (.next (.ite h.faultEvent.failPort h)) (.next h)
  case iboReady =>
    exact .ite (.next h) (.next (.sendTripIrq (.enterOwed (.fold (.fold h.set fun _ _ hk => hk.setSrc) fun _ _ hk => hk.answerTrip))))
  case iboStartTimeout => exact .ite (.next h) (.next h.oasisSafe)
  case clockSwitch => exact h.regWrite fun _ hk => hk.writeClkSrc
  case coreCtrlWrite => exact h.regWrite fun _ hk => hk.writeCoreCtrl
  case fabCtrlWrite => exact h.regWrite fun _ hk => hk.writeFabCtrl
  case feCtrlWrite => exact h.regWrite fun _ hk => hk.writeFeCtrl
  -- Heat, Oasis and the security block.
  case thermalLimitReached =>
    exact .ite (.next h) <| .ite (.next (.setBlower h.setJunction.set)) (.next (.watchHeat (.lowerDie (.set
      (.setBlower h.setJunction.set)))))
  case thermalLimitCleared => exact .ite (.next h) (.next (.setBlower (.retarget (.set h.setJunction.set))))
  case thermalEmergencyEnd => exact .next h.endEmergency
  case pwrbrkNLow | inputOvercurrent => exact .next (.ite h.engageBrake h)
  case brakeRelease => exact .ite (.next h) (.next (.fold (.endEmergency h.set) fun _ _ hk => hk.retarget))
  case thermalTrip => exact .next (.ite h.powerLoss h)
  case temperatureMeasurement =>
    exact .ite (.next h) <| .ite (.next h.setTemp.setSec) (.next (.ite (.raiseAlarm (.ite h.setTemp.wakeAction h.setTemp))
      (.ite h.setTemp.wakeAction h.setTemp)))
  case auxBelowThreshold =>
    exact .ite (.next h) (.next (.ite (.setOas (.ite h (.ite (.faultEvent h.setOas) h.setOas))) (.ite h (.ite
      (.faultEvent h.setOas) h.setOas))))
  case lpoCalUpdate => exact .ite (.next h) (.next h.setOas)
  case cmpArm => exact h.regWrite fun _ hk => hk.writeCmpHi
  case compareFire => exact .next (.ite h.checkCmp h)
  case clkTripClear => exact h.regWrite fun _ hk => hk.writeOasEvent
  case padRelease => exact h.regWrite fun _ hk => hk.writePad
  case readyCopyWrite => exact h.regWrite fun _ hk => hk.writeReadyCopy
  case otpArm | otpGo => exact h.regWrite fun _ hk => hk.writeOtpCmd
  case otpChangeDone => exact h.execOtpChangeDone
  case flashRead | flashProgram | flashErase => exact h.regWrite fun _ hk => hk.writeFlashCmd
  case flashOpDone => exact h.execFlashOpDone
  case voltageGlitch => exact .next (.ite h.raiseAlarm h)
  case tamper => exact .next (.ite h.raiseAlarm h.setSec)
  case alarmClear => exact h.regWrite fun _ hk => hk.writeAlarm
  case auxPowerUp => exact .next (.ite h h.setOas)
  case mainPowerUp => exact .ite (.next h) <| .ite (.next h.set) (.next (.startUp (.cisternUpset (.set (.setWake h.set)))))
  case xtal25Restart =>
    exact .ite (.next h) <| .ite (.next h.set) (.next (.fold (.fold (.fold h.set fun _ _ hk => hk.set) fun _ _ hk => .ite hk.set hk) fun _
      _ hk => .ite hk (.restartHead hk.set)))
  case matrixOpComplete => exact h.execMatrixOpComplete
  case batchBinned => exact h.execBatchBinned
  case modelLoadComplete => exact h.execModelLoadComplete
  case atsTranslationCompletion => exact h.execAtsTranslationCompletion
  case subportLinkUp => exact .ite (.next (.drainAll h.set)) (.next h)
  case invalidFrameReceived => exact h.execInvalidFrameReceived
  case pfcFrameReceived => exact .ite (.next (.ite h.set h.unpause.drainAll)) (.next h)
  case osfpModuleInsertion => exact .ite (.next h.set) <| .ite (.next (.setMap (.fold h.set fun _ _ hk => hk.set))) (.next (.setMap h.set))
  case haboobSeedBurned => exact .ite (.next h) (.next (.faultEvent h.destroySeed.ledgerComplete.setSec))
  case uartConsoleInput => exact .ite (.next h) (.next h.set)

/-- Settles O47: a step is a command on the state without it, or a tick. -/
theorem memoryStaysCanonical : Obligations.MemoryStaysCanonical := by
  intro s t hWf hStep
  rw [step] at hStep
  split at hStep
  · exact (KeptBy.next (Kept.refl s).tick t hStep : Kept ⟨false, false, false⟩ s t).wf hWf
  next i rest _ =>
    refine ((Kept.refl { s with pending := rest }).exec t hStep).wf ?_
    exact wf_of_same hWf rfl rfl

end Sys2Proof.Machine
end

section
/-! SUPPORT. Proofs about memory objects (O3) and about contexts and queues (O10): a served row whose checks all pass has its effect. -/

namespace Sys2Proof.Machine

/-- A row of a served descriptor leaves what its effect gives. -/
theorem descRow_eq_next {op q i : Nat} {eff : Queue → Desc → W512 → State → State} {s t : State} {x : Queue} {d : Desc}
    (hServes : Serves s q i op x d) (h : eff x d d.cur s = t) : descRow op eff q i s = .next t := by
  rw [descRow_next hServes, h]

/-! ### Memory objects (R195, R196, R238) -/

/-- What MEM_MAP needs on each of the eight stacks is FREE there (R186). -/
theorem framesSuffice {s : State} {need : Nat → Nat} (h : ∀ st, st < 8 → need st ≤ if stackReady s st then freeIn s st else 0) :
    (List.range 8).all (fun st => decide (need st ≤ if stackReady s st then freeIn s st else 0)) = true := by
  simpa only [List.all_eq_true, List.mem_range, decide_eq_true_eq] using h

/-- Settles O3: each command is served, its object is there, and none of its checks refuses it. -/
theorem objectCommands : Obligations.ObjectCommands := by
  refine ⟨?alloc, ?free, ?map, ?unmap, ?migrate, ?advise⟩
  case alloc =>
    intro s q i x d c hServes hCtx hFits hClear
    change execMemAlloc q i s = _
    refine descRow_eq_next hServes ?_
    simp only [hCtx, hClear, Bool.or_false, decide_eq_true_eq, if_neg (Nat.not_lt.mpr hFits)]
  case free =>
    intro s q i x d c o hServes hCtx hObj hPlan hExport
    change execMemFree q i s = _
    refine descRow_eq_next hServes ?_
    simp only [hCtx, hObj, hPlan, hExport, Bool.false_eq_true, if_false]
  case map =>
    intro s q i x d c o hServes hCtx hObj hPages hQuota hFrames
    change execMemMap q i s = _
    refine descRow_eq_next hServes ?_
    simp only [hCtx, hObj, List.isEmpty_iff, hPages, Nat.not_lt.mpr hQuota, framesSuffice hFrames, if_false, if_true]
  case unmap =>
    intro s q i x d c o hServes hCtx hObj hPages hPlan hExport
    change execMemUnmap q i s = _
    refine descRow_eq_next hServes ?_
    simp only [hCtx, hObj, List.isEmpty_iff, hPages, hPlan, hExport, Option.isNone_some, Bool.false_eq_true, if_false]
  case migrate =>
    intro s q i x d c o hServes hCtx hObj hPages hHost hRuns
    change execMigrate q i s = _
    refine descRow_eq_next hServes ?_
    simp only [hCtx, hObj, hPages.ne', Nat.not_lt.mpr hHost, hRuns, Bool.not_true, Bool.false_eq_true, if_false]
  case advise =>
    intro s q i x d c o hServes hCtx hObj hPages
    change execAdvise q i s = _
    refine descRow_eq_next hServes ?_
    simp only [hCtx, hObj, List.isEmpty_iff, hPages, if_false]

/-! ### Contexts and queues (R184, R233, R235, R237, R242) -/

/-- Settles O10: the row is served, and the branch it takes is the one whose conditions hold. -/
theorem adminCommands : Obligations.AdminCommands := by
  refine ⟨?ctxCreate, ?ctxDestroy, ?queueCreate, ?queueDestroy⟩
  case ctxCreate =>
    intro s q i x d k hServes hNoReset hFn hSegment hFresh hBar
    change execCtxCreate q i s = _
    refine descRow_eq_next hServes ?_
    simp only [hBar, hNoReset, hFn, hSegment, hFresh, List.contains_nil, Bool.or_false, Bool.not_true, Bool.false_eq_true, if_false]
  case ctxDestroy =>
    intro s q i x d c hServes hCtx
    change execCtxDestroy q i s = _
    refine descRow_eq_next hServes ?_
    simp only [hCtx, Option.isNone_some, Bool.false_eq_true, if_false]
  case queueCreate =>
    intro s q i x d c hServes hCtx hNoReset hLive hBar w k taken
    have hRow : exec (.queueCreate q i) s =
        .next (if taken then failed q i 1 0x0804 s else done q i k (writeStatus k (s.setQueue k (newQueue s w)))) := by
      change execQueueCreate q i s = _
      refine descRow_eq_next hServes ?_
      simp only [hBar, hCtx, hNoReset, hLive, List.contains_nil, Bool.or_false, bne_self_eq_false, Bool.false_eq_true, if_false]
      rfl
    exact ⟨fun hFree => by rw [hRow, hFree]; rfl, fun hTaken => by rw [hRow, hTaken]; rfl⟩
  case queueDestroy =>
    intro s q i x d y t hServes hQueue hEnded hEmpty
    change execQueueDestroy q i s = _
    refine descRow_eq_next hServes ?_
    have hDrained : (t.queue? (dField d.cur 40 4 % 2 ^ 20)).any (fun z => !z.descs.isEmpty) = false := by
      cases hKept : t.queue? (dField d.cur 40 4 % 2 ^ 20) with
      | none => rfl
      | some z => simp [hEmpty z hKept]
    simp only [hQueue, hEnded, hDrained, Bool.false_eq_true, if_false]

end Sys2Proof.Machine
end

section
/-! SUPPORT. Proofs about the reports of start-up (O19). -/

namespace Sys2Proof.Machine

variable {s : State}

theorem exec_linkTrained {speed : Fin 7} {width : Fin 17} {flit : Bool} (cfg : HostCfg) (hUp : bar0Up s = true)
    (hDown : s.link.dlUp = false) (hSpeed : speed ≠ 0) (hWidth : width.val ∈ [1, 2, 4, 8, 16]) (hFlit : speed = 6 → flit = true) :
    exec (.linkTrained speed width flit cfg) s =
      .next (sendTripIrq (setMap 0 1
        (applyCfg cfg { s with link := { s.link with speed := speed, width := width, flit := flit, dlUp := true } }))) := by
  have hWidthOk : [1, 2, 4, 8, 16].contains width.val = true := List.contains_iff_mem.mpr hWidth
  have hFlitOk : (decide (speed = 6) && !flit) = false := by simpa using hFlit
  change execLinkTrained speed width flit cfg s = _
  simp only [execLinkTrained, hUp, hDown, hSpeed, hWidthOk, hFlitOk, Bool.not_true, Bool.or_false, decide_false, Bool.false_eq_true, if_false]

theorem exec_feReady (hStarting : s.pwr.dev = .starting) (hImage : s.sec.imageLoaded = true) (hSafe : s.flt.safe = false) :
    exec .feReady s =
      .next (sendTripIrq (startAdmin (setMap 1 1 (setMap 2 1 (setDev .up (attestStart (if s.sec.provisioning then drawSeed s else s))))))) := by
  change execFeReady s = _
  simp [execFeReady, hStarting, hImage, hSafe]

theorem exec_stackTrainingDone (k : Fin 8) (ok : Bool) (hUp : bar0Up s = true) (hSafe : s.flt.safe = false)
    (hFirst : s.boot.reported.contains k.val = false) (hCold : s.mem.ltaImage = false) :
    exec (.stackTrainingDone k ok) s =
      let t := { s with boot := { s.boot with reported := k.val :: s.boot.reported } }
      .next (placeReserved (if ok then setMap (4 + k) 1 (setStack t k { stackAt t k with st := .ready })
        else setMap (4 + k) 2 (setStack (faultEvent t 2 4 k 3 noCtx 0) k { stackAt t k with st := .failed }))) := by
  change execStackTrainingDone k ok s = _
  simp only [execStackTrainingDone, hUp, hSafe, hFirst, hCold]
  cases ok <;> rfl

/-- A stack's report on the exit from DORMANT (R178, R358). -/
theorem exec_stackReady (k : Fin 8) (ok : Bool) (hUp : s.pwr.dev = .up) (hSafe : s.flt.safe = false) (hImage : s.mem.ltaImage = true)
    (hTraining : (stackAt s k).st = .training) :
    exec (.stackReady k ok) s =
      .next (if ok then
        let t := setMap (4 + k) 1 (setStack s k { stackAt s k with st := .ready })
        { t with mem := { t.mem with ltaImage := (List.range 8).any (fun j => (stackAt t j).st == .training) } }
      else faultEvent (setMap (4 + k) 2 (setStack s k { stackAt s k with st := .outOfService })) 3 4 k 4 noCtx 0) := by
  change execStackReady k ok s = _
  simp only [execStackReady, hUp, hSafe, hImage, hTraining]
  cases ok <;> rfl

/-- Settles O19, report by report: none of the conditions that ignore a report holds. -/
theorem startUpReports : Obligations.StartUpReports := by
  refine ⟨fun s speed width flit cfg => exec_linkTrained cfg, fun s => exec_feReady,
    fun s k ok => exec_stackTrainingDone k ok, fun s k => exec_stackReady k true, fun s k => exec_stackReady k false, ?unit, ?module⟩
  case unit =>
    intro s u hUp hSafe hReady hFailed
    have hRow (ok : Bool) : exec (.unitReady u ok) s = execUnitReady u ok s := rfl
    simp only [hRow, execUnitReady, hUp, hSafe, hReady, hFailed]
    cases u <;> exact ⟨rfl, rfl⟩
  case module =>
    intro s b plugged watts
    change execOsfpModuleInsertion b plugged watts s = _
    simp only [execOsfpModuleInsertion, Bool.or_eq_true, Bool.not_eq_true', or_assoc]
    split_ifs <;> rfl

end Sys2Proof.Machine
end

section
/-! SUPPORT. Proofs about host translation (O25): completions, page requests and invalidations. -/

namespace Sys2Proof.Machine

section Translation
variable {s : State}

/-- A translation of a page that something awaits, with no page request open for it, enters the cache over what it overlaps and releases
what waits (R190, R192). -/
theorem exec_atsTranslationCompletion_translated {f : Fin 64} {pasid : Option (BitVec 20)} {page target : Nat} {w : Bool} {n : Fin 19}
    (hAwaited : s.link.waits.any
      (fun x => sameTag x.fn x.pasid f (pasid.map (·.toNat)) && x.page == page && x.fail == none) = true)
    (hNoPrg : prgOf s f (pasid.map (·.toNat)) page = none) :
    exec (.atsTranslationCompletion f pasid page (.translated target w n)) s =
      let tag := pasid.map (·.toNat)
      let e : Dtc := {
        fn := f, pasid := tag, page := page / 2 ^ n.val * 2 ^ n.val, target := target / 2 ^ n.val * 2 ^ n.val, write := w, size := n }
      let keep := s.mem.dtc.filter (fun y => !(sameTag y.fn y.pasid f tag && overlaps y.page (2 ^ y.size) e.page (2 ^ n.val)))
      .next (retryRecords f (releaseWaits f tag page { s with mem := { s.mem with dtc := (e :: keep).take 8192 } })) := by
  have hNoPrgAfter (dtc : List Dtc) : prgOf { s with mem := { s.mem with dtc := dtc } } f (pasid.map (·.toNat)) page = none := hNoPrg
  change execAtsTranslationCompletion f pasid page (.translated target w n) s = _
  simp only [execAtsTranslationCompletion, hAwaited, hNoPrgAfter, Bool.not_true, Bool.false_eq_true, if_false]

variable {prg : Nat} {g : Prg} (hFind : mfind s.mem.prgs prg = some g) (hLive : g.dead = false)
include hFind hLive

/-- The answer to a page request that is still awaited: only a successful one has its translation repeated (R192). -/
theorem exec_pageRequestResponse (hFirst : g.retried = false) :
    exec (.pageRequestResponse prg .success) s = .next (if reqOpen s g.fn (4096 * g.page) then
        { s with mem := { s.mem with prgs := mins s.mem.prgs prg { g with retried := true } } }.send
          { kind := .atsRequest, a := g.fn, b := g.page, bytes := pasidBytes g.pasid }
        else dropPageWaits g.fn g.pasid g.page (dropPrg prg s))
      ∧ exec (.pageRequestResponse prg .invalid) s = .next (retryRecords g.fn (failWaits g.fn g.pasid g.page 0x0701 (dropPrg prg s)))
      ∧ exec (.pageRequestResponse prg .unsupported) s =
          .next (retryRecords g.fn (failWaits g.fn g.pasid g.page 0x0702 (dropPrg prg s))) := by
  have hRow (code : PrgCode) : exec (.pageRequestResponse prg code) s = execPageRequestResponse prg code s := rfl
  simp only [hRow, execPageRequestResponse, hFind, hLive, hFirst, Bool.false_eq_true, if_false, and_true]
  cases reqOpen s g.fn (4096 * g.page) <;> rfl

/-- A page request without an answer in time fails what waits for it, and a late answer finds it dead (R192, R208). -/
theorem exec_pageRequestTimeout (hLimit : field (rd s 0x020014) 0 16 ≠ 0) :
    exec (.pageRequestTimeout prg) s = .next (retryRecords g.fn (failWaits g.fn g.pasid g.page 0x0703
      { s with mem := { s.mem with prgs := mins s.mem.prgs prg { g with dead := true } } })) := by
  change execPageRequestTimeout prg s = _
  simp only [execPageRequestTimeout, hFind, hLive, hLimit, Bool.false_or, decide_false, Bool.false_eq_true, if_false]

end Translation

/-- Settles O25, event by event: a translation that is awaited, a page request that is live, a tag that is not in use. -/
theorem hostTranslation : Obligations.HostTranslation := by
  refine ⟨?invalidate, fun s f p page target w n => exec_atsTranslationCompletion_translated,
    fun s prg g => exec_pageRequestResponse, fun s prg g => exec_pageRequestTimeout, ?priEnable⟩
  case invalidate =>
    intro s f p hIdle
    change execAtsInvalidate f p s = _
    simp only [execAtsInvalidate, hIdle, Bool.false_eq_true, if_false]
  case priEnable =>
    intro s f
    exact ⟨rfl, _, rfl, (func_setFunc s f f _).trans (if_pos rfl), rfl⟩

end Sys2Proof.Machine
end

section
/-! SUPPORT. Proofs about fences (O2) and about NOP, CTX_QUERY, COPY and FILL (O4). -/

namespace Sys2Proof.Machine

/-! ### Fences (R227, R228) -/

theorem execWaitTimeout_unregistered {s : State} {q : Nat} {x : Queue} (hRuns : feRuns s = true) (hQueue : s.queue? q = some x)
    (hWaits : waitsUnregistered s x = true) : execWaitTimeout q s = .next (evalWait q true s) := by
  simp only [execWaitTimeout, hQueue, hRuns, hWaits, Bool.and_self, if_true]

/-- Settles O2: the record is read, and what the table holds at its address decides. -/
theorem fenceCommands : Obligations.FenceCommands := by
  refine ⟨?register, ?release, ?reevaluate, fun s q x => execWaitTimeout_unregistered, ?registerAgain, ?taken, ?full, ?releaseRefused⟩
  case register =>
    intro s q i x d c bs idx hServes hCtx hRecord hNone hFresh hTable hShare
    change execFenceRegister q i s = _
    refine descRow_eq_next hServes ?_
    have hRoom : (decide (1048576 ≤ s.fe.fences.length) || decide (c.fenceMax ≤ ctxFences s x.ctx)) = false := by simp [hTable, hShare]
    simp only [hRecord, hNone, hCtx, hFresh, hRoom, Bool.false_eq_true, if_false]
  case release =>
    intro s q i x d idx f hServes hFound hOwn
    change execFenceRelease q i s = _
    refine descRow_eq_next hServes ?_
    simp only [hFound, hOwn, ne_eq, not_true_eq_false, if_false]
  case reevaluate =>
    intro s fence hRuns
    change execWaitReevaluation fence s = _
    simp only [execWaitReevaluation, wakeFence, hRuns, Bool.not_true, Bool.false_eq_true, if_false]
  case registerAgain =>
    intro s q i x d bs idx f hServes hRecord hFound hOwn
    change execFenceRegister q i s = _
    refine descRow_eq_next hServes ?_
    simp only [hRecord, hFound, hOwn, if_true]
  case taken =>
    intro s q i x d bs e hServes hRecord hFound hOther
    change execFenceRegister q i s = _
    refine descRow_eq_next hServes ?_
    simp only [hRecord, hFound, hOther, if_false]
  case full =>
    intro s q i x d c bs hServes hCtx hRecord hNone hFull
    change execFenceRegister q i s = _
    refine descRow_eq_next hServes ?_
    have hNoRoom : (decide (1048576 ≤ s.fe.fences.length) || decide (c.fenceMax ≤ ctxFences s x.ctx)) = true := by simpa using hFull
    simp only [hRecord, hNone, hCtx, hNoRoom, if_true]
    cases mfresh s.fe.fences (s.fe.fences.length + 1) 0 <;> rfl
  case releaseRefused =>
    intro s q i x d hServes hNotOwn
    change execFenceRelease q i s = _
    refine descRow_eq_next hServes ?_
    cases hFound : fenceFind s x.ctx (dField d.cur 40 8) with
    | none => rfl
    | some e =>
      have hOther : e.2.ctx ≠ x.ctx := by simpa [hFound] using hNotOwn
      simp only [hOther, ne_eq, not_false_eq_true, if_true]

/-! ### Bytes over bridges whose ratios are kept (R349) -/

@[simp] theorem crossed_true (s : State) (bs : List Byte) : crossed true s bs = bs := rfl
@[simp] theorem tickCross_true (n : Nat) (s : State) : tickCross true n s = s := rfl

theorem hubRead_of_piecesCross {s : State} {ps : List (Nat × Nat)} (h : piecesCross s ps = true) : hubRead s ps = readPieces s ps := by
  rw [hubRead, h, crossed_true]

theorem tickHub_of_piecesCross {s : State} {ps : List (Nat × Nat)} (h : piecesCross s ps = true) : tickHub ps s = s := by
  rw [tickHub, h, tickCross_true]

theorem hubWrite_of_piecesCross {s : State} {ps : List (Nat × Nat)} (bs : List Byte) (h : piecesCross s ps = true) :
    hubWrite s ps bs = writePieces s ps bs := by
  rw [hubWrite, h, crossed_true, tickCross_true]

/-- Pieces none of which is empty are what covers their own length. -/
theorem takePieces_sum {ps : List (Nat × Nat)} (hPos : ∀ p ∈ ps, 0 < p.2) : takePieces (ps.map (·.2)).sum ps = ps := by
  induction ps with
  | nil => rfl
  | cons p ps ih =>
    have hHead : 0 < p.2 := hPos p List.mem_cons_self
    have hRest := ih fun r hr => hPos r (List.mem_cons_of_mem _ hr)
    rw [List.map_cons, List.sum_cons, takePieces, if_neg (by omega), Nat.min_eq_left (by omega), Nat.add_sub_cancel_left, hRest]

theorem copyBytes_of_piecesCross {s : State} {a b : Walk} {len : Nat} (hFrom : piecesCross s a.pieces = true)
    (hTo : piecesCross s b.pieces = true) (hPos : ∀ p ∈ a.pieces ++ b.pieces, 0 < p.2) (hFromLen : (a.pieces.map (·.2)).sum = len)
    (hToLen : (b.pieces.map (·.2)).sum = len) :
    copyBytes len a b s = countHub len (writePieces s b.pieces (readPieces s a.pieces)) := by
  have hTakeFrom : takePieces len a.pieces = a.pieces := hFromLen ▸ takePieces_sum fun p hp => hPos p (List.mem_append_left _ hp)
  have hTakeTo : takePieces len b.pieces = b.pieces := hToLen ▸ takePieces_sum fun p hp => hPos p (List.mem_append_right _ hp)
  rw [copyBytes]
  simp only [hTakeFrom, hTakeTo, tickHub_of_piecesCross hFrom, hubRead_of_piecesCross hFrom, hubWrite_of_piecesCross _ hTo]

/-! ### NOP, CTX_QUERY, COPY and FILL (R219, R221, R222, R249) -/

/-- An end of a copy outside the caravan is the walk of its range. -/
theorem copyEnd_of_not_inCaravan {s : State} {x : Queue} {c : Ctx} (q i : Nat) {va : Nat} (len : Nat) (w : W512) (write : Bool)
    (hCtx : s.ctx? x.ctx = some c) (hVa : inCaravan va = false) :
    copyEnd s x q i va len w write = (walkVa s c (dTranslated w) (userDesc q i) va len write, none) := by
  simp only [copyEnd, hCtx, hVa, Bool.false_eq_true, if_false]

theorem copyStop_eq_none {a b : Walk} (src dst : Nat) (ha : a.stop = none) (hb : b.stop = none) : copyStop a b src dst = none := by
  rw [copyStop, ha, hb]

section Copy
variable {s : State} {q i : Nat} {x : Queue} {d : Desc}

/-- A COPY in its turn whose two ends translate moves its bytes, as a job of the caravan unit where an end is a peer. -/
theorem exec_copy_translated (hServes : Serves s q i 0x200 x d) (hTurn : copyTurn s q i x d = true) (hLen : 0 < dField d.cur 56 4)
    {a b : Walk} {pa pb : Option (Nat × Nat × Nat)} (hFrom : copyEnd s x q i (dField d.cur 40 8) (dField d.cur 56 4) d.cur false = (a, pa))
    (hTo : copyEnd s x q i (dField d.cur 48 8) (dField d.cur 56 4) d.cur true = (b, pb)) (ha : a.stop = none) (hb : b.stop = none)
    (hRuns : piecesRun s (a.pieces ++ b.pieces) = true) :
    exec (.copy q i) s = .next (if (pa.isSome || pb.isSome) = true then copyJob q i (dField d.cur 56 4) a b pa pb none s
      else done q i (dField d.cur 56 4) (copyBytes (dField d.cur 56 4) a b s)) := by
  change execCopy q i s = _
  refine descRow_eq_next hServes ?_
  simp only [hTurn, hLen.ne', hFrom, hTo, copyStop_eq_none _ _ ha hb, hRuns, Bool.not_true, Bool.false_eq_true, if_false]

theorem exec_copy_empty (hServes : Serves s q i 0x200 x d) (hTurn : copyTurn s q i x d = true) (hLen : dField d.cur 56 4 = 0) :
    exec (.copy q i) s = .next (done q i 0 s) := by
  change execCopy q i s = _
  refine descRow_eq_next hServes ?_
  simp only [hTurn, hLen, Bool.not_true, Bool.false_eq_true, if_false, if_true]

theorem exec_fill_empty (hServes : Serves s q i 0x201 x d) (hTurn : copyTurn s q i x d = true) (hLen : dField d.cur 56 4 = 0) :
    exec (.fill q i) s = .next (done q i 0 s) := by
  change execFill q i s = _
  refine descRow_eq_next hServes ?_
  simp only [hTurn, hLen, Bool.not_true, Bool.false_eq_true, if_false, if_true]

/-- A FILL in its turn of memory of the module. -/
theorem exec_fill_local (hServes : Serves s q i 0x201 x d) (hTurn : copyTurn s q i x d = true) (hLen : 0 < dField d.cur 56 4) {b : Walk}
    (hTo : copyEnd s x q i (dField d.cur 40 8) (dField d.cur 56 4) d.cur true = (b, none)) (hb : b.stop = none)
    (hRuns : piecesRun s b.pieces = true) :
    exec (.fill q i) s = .next (done q i (dField d.cur 56 4) (countHub (dField d.cur 56 4)
      (hubWrite s b.pieces (fillBytes (dField d.cur 48 8) (dField d.cur 40 8) (dField d.cur 56 4))))) := by
  change execFill q i s = _
  refine descRow_eq_next hServes ?_
  simp only [hTurn, hLen.ne', hTo, hb, hRuns, Bool.not_true, Bool.false_eq_true, if_false, if_true]

/-- A FILL in its turn of a caravan peer, which has no job of its own yet. -/
theorem exec_fill_peer (hServes : Serves s q i 0x201 x d) (hTurn : copyTurn s q i x d = true) (hLen : 0 < dField d.cur 56 4) {b : Walk}
    {n e o : Nat} (hTo : copyEnd s x q i (dField d.cur 40 8) (dField d.cur 56 4) d.cur true = (b, some (n, e, o))) (hb : b.stop = none)
    (hIdle : s.net.jobs.any (fun y => y.2.user == .copy q i) = false) :
    exec (.fill q i) s = .next (peerWrite { node := n, user := .copy q i, write := true, export_ := e } n e o
      (fillBytes (dField d.cur 48 8) (dField d.cur 40 8) (dField d.cur 56 4)) s) := by
  change execFill q i s = _
  refine descRow_eq_next hServes ?_
  simp only [hTurn, hLen.ne', hTo, hb, hIdle, Bool.not_true, Bool.false_eq_true, if_false]

end Copy

/-- Settles O4: each command is served, and its ends and its length decide what moves. -/
theorem dataCommands : Obligations.DataCommands := by
  refine ⟨?nop, ?queryAdmin, ?query, ?copyLocal, ?fillLocal, fun s a b len => copyBytes_of_piecesCross, fun s q i x d => exec_copy_empty,
    ?copyPeer, fun s q i x d => exec_fill_empty, ?fillPeer⟩
  case nop =>
    intro s q i x d hServes
    change execNop q i s = _
    exact descRow_eq_next hServes rfl
  case queryAdmin =>
    intro s i x d c hServes hCtx
    refine ⟨fun hOpen => ?_, fun e hBar => ?_⟩
    all_goals
      change execCtxQuery adminQid i s = _
      refine descRow_eq_next hServes ?_
    · simp only [if_true, hCtx, hOpen]
    · simp only [if_true, hCtx, hBar]
  case query =>
    intro s q i x d c hUser hServes hCtx hWalk
    change execCtxQuery q i s = _
    refine descRow_eq_next hServes ?_
    simp only [if_neg hUser, hCtx, hWalk]
  case copyLocal =>
    intro s q i x d c hServes hTurn hCtx hLen hSrc hDst len a b ha hb hRuns
    exact exec_copy_translated hServes hTurn hLen (copyEnd_of_not_inCaravan q i _ _ _ hCtx hSrc) (copyEnd_of_not_inCaravan q i _ _ _ hCtx hDst)
      ha hb hRuns
  case fillLocal =>
    intro s q i x d c hServes hTurn hCtx hLen hDst len b hb hRuns
    exact exec_fill_local hServes hTurn hLen (copyEnd_of_not_inCaravan q i _ _ _ hCtx hDst) hb hRuns
  case copyPeer =>
    intro s q i x d hServes hTurn hLen ha hb hRuns hPeer
    rw [exec_copy_translated hServes hTurn hLen Prod.mk.eta.symm Prod.mk.eta.symm ha hb hRuns, if_pos hPeer]
  case fillPeer =>
    intro s q i x d n e o hServes hTurn hLen hb hPeer hIdle
    exact exec_fill_peer hServes hTurn hLen (Prod.ext rfl hPeer) hb hIdle

end Sys2Proof.Machine
end

section
/-! SUPPORT. Proofs about doorbells and the life of a descriptor in its queue (O5). -/

namespace Sys2Proof.Machine

variable {s : State} {q i : Nat} {x : Queue} {d : Desc}

/-! ### Doorbells (R213, R214) -/

section Kick
variable {wr : List Host.Cell} (hRuns : feRuns (putCells s wr) = true) (hNoReset : s.link.flrBusy = [])
include hRuns hNoReset

theorem exec_kick_user {f : Fin 64} {off : Nat} {v : W32} (hAlign : off % 4 = 0) (hOff : off < 65536) (hUser : ¬(f.val = 0 ∧ off = 0xFFFC))
    (hLive : liveQueue (putCells s wr) (v.toNat % 2 ^ 20) f = true) :
    exec (.kick f off 4 v wr) s = .next (kickQueue (v.toNat % 2 ^ 20) (putCells s wr)) := by
  change execKick f off 4 v wr s = _
  have hIdle : (putCells s wr).link.flrBusy = [] := hNoReset
  have hInside : ¬ 65536 ≤ off := Nat.not_le.mpr hOff
  have hNotAdmin : (decide (f.val = 0) && decide (off = 0xFFFC)) = false := by simpa using hUser
  simp only [execKick, hRuns, hIdle, hAlign, hInside, hNotAdmin, hLive, List.contains_nil, ne_eq, not_true_eq_false, decide_false,
    Bool.not_true, Bool.or_self, Bool.false_eq_true, if_false, if_true]

theorem exec_kick_admin (v : W32) (hQueue : s.queue? adminQid = some x) (hActive : x.st = .active) :
    exec (.kick 0 0xFFFC 4 v wr) s = .next (kickQueue adminQid (putCells s wr)) := by
  change execKick 0 0xFFFC 4 v wr s = _
  have hIdle : (putCells s wr).link.flrBusy = [] := hNoReset
  have hAdmin : ((putCells s wr).queue? adminQid).any (·.st == .active) = true := by
    rw [show (putCells s wr).queue? adminQid = some x from hQueue]
    simp [hActive]
  simp [execKick, hRuns, hIdle, hAdmin]

end Kick

/-! ### The read of a descriptor and its arrival at the head (R212, R217) -/

/-- A queue's oldest unreleased descriptor, ready and in order, becomes its head. -/
theorem headArrives_accepted (hRuns : feRuns s = true) (hQueue : s.queue? q = some x) (hResident : x.resident = true)
    (hHead : headOf x = some (i, d)) (hRead : d.phase = .read) (hReady : launchReady s d = true) (hCheck : headCheck s q x d = none) :
    headArrives q s = evalWait q true (readCommit q i (s.setDesc q i { d with phase := .head, headStamp := s.now })) := by
  simp only [headArrives, hQueue, hHead, hRuns, hResident, hRead, hReady, hCheck, bne_self_eq_false, Bool.not_true, Bool.or_self,
    Bool.false_eq_true, if_false]

/-- Only a LAUNCH awaits a plan version. -/
theorem launchReady_of_not_launch (h : dOpcode d.raw ≠ 0x100) : launchReady s d = true := by simp [launchReady, h]

/-! ### Release (R218) -/

/-- Nothing holds the head of the queue back. -/
theorem exec_descriptorRelease (hRuns : feRuns s = true) (hQueue : s.queue? q = some x) (hHead : headOf x = some (i, d))
    (hPhase : d.phase = .head) (hReached : waitReached s q i x d = true) (hFree : heldBack x i = false) (hPatch : patchWaits s x d = false) :
    exec (.descriptorRelease q) s = .next (releaseHead q i x d s) := by
  change execDescriptorRelease q s = _
  simp only [execDescriptorRelease, hQueue, hHead, hRuns, hPhase, hReached, hFree, hPatch, beq_self_eq_true, Bool.not_false, Bool.and_self,
    if_true]

theorem patchWaits_of_launch (h : dOpcode d.raw = 0x100) : patchWaits s x d = false := by simp [patchWaits, h]

theorem releaseHead_of_launch (hNeed : descNeed s q i x d = some true) (hTranslated : translatedBad s x d = none)
    (hOp : dOpcode d.raw = 0x100) : releaseHead q i x d s = releaseLaunch q i x d s := by
  simp only [releaseHead, hNeed, hTranslated, hOp, if_true]

theorem releaseHead_of_not_launch (hNeed : descNeed s q i x d = some true) (hTranslated : translatedBad s x d = none)
    (hOp : dOpcode d.raw ≠ 0x100) (hCheck : releaseCheck s q x d.raw = none) : releaseHead q i x d s = released q i none s := by
  simp only [releaseHead, hNeed, hTranslated, hOp, hCheck, if_false]

/-- A released descriptor waits for nothing any more; an idle media engine takes it. -/
theorem released_of_desc (l : Option Nat) (hDesc : s.desc? q i = some d) :
    released q i l s =
      let t := dropWaits (s.setDesc q i { d with phase := .released, launch := l, stamp := s.now, hold := holdAt s q i d.raw }) (userDesc q i)
      if dOpcode d.raw = 0x400 ∨ dOpcode d.raw = 0x401 then takeAll t else t := by
  simp only [released, hDesc, isMedia, Bool.or_eq_true, beq_iff_eq]

/-! ### Completion (R224, R225, R229, R230) -/

/-- END_STAMP of a descriptor: now if it ran, but for a DISP_COMMIT (R224, R326). -/
def endStamp (s : State) (d : Desc) : Nat := if d.ran = true ∧ dOpcode d.cur ≠ 0x300 then s.now else d.stamp

/-- A descriptor whose signal is made, with its STATUS and END_STAMP, counted (R224, R264, R407). -/
def signalled (q i : Nat) (x : Queue) (d : Desc) (s : State) : State :=
  (countDesc q x d.cur d.result (signalCur q x d d.status s).1).setDesc q i
    { d with status := (signalCur q x d d.status s).2, stamp := endStamp s d }

theorem endStamp_eq (s : State) (d : Desc) : (if (d.ran && dOpcode d.cur != 0x300) = true then s.now else d.stamp) = endStamp s d := by
  simp [endStamp]

theorem signalPage_of_no_signal (h : dSignalEn d.cur = false) : signalPage s x d.cur = none := by simp [signalPage, h]
theorem signalCur_of_no_signal (st : Nat) (h : dSignalEn d.cur = false) : signalCur q x d st s = (s, st) := by simp [signalCur, h]

theorem exec_descriptorComplete (hRuns : feRuns s = true) :
    exec (.descriptorComplete q i) s = .next (takeAll (settleStacks (completeDesc q i s))) := by
  change execDescriptorComplete q i s = _
  rw [execDescriptorComplete, if_pos hRuns]

section Complete
variable (hQueue : s.queue? q = some x) (hDesc : s.desc? q i = some d) (hDone : d.phase = .done)
include hQueue hDesc hDone

/-- A signal whose record awaits a page holds the completion back. -/
theorem completeDesc_awaits_page {page : Nat} (hPage : signalPage s x d.cur = some page) :
    completeDesc q i s = waitRecord s x.ctx page := by
  simp only [completeDesc, hQueue, hDesc, hDone, hPage, bne_self_eq_false, Bool.false_eq_true, if_false]

variable (hLate : lateBreach d s = none) (hPage : signalPage s x d.cur = none)
include hLate hPage

theorem completeDesc_unchained (hChain : dChain d.cur = false) :
    completeDesc q i s =
      closeDesc q i (signalCur q x d d.status s).2 d.detail (endStamp s d) (signalled q i x d s) := by
  have hPhase : (d.phase != .done) = false := by simp [hDone]
  simp only [completeDesc, hQueue, hDesc, hPhase, hPage, hLate, hChain, endStamp_eq, signalled, Bool.not_false, Bool.true_or,
    Bool.false_eq_true, if_false, if_true]

/-- A chain goes on with the descriptor at CHAIN_IDX while each ends OK. -/
theorem completeDesc_chained {w : W512} (hChain : dChain d.cur = true) (hChains : chains (dOpcode d.cur) = true) (hLen : d.chainLen < 16)
    (hOk : (signalCur q x d d.status s).2 = 0) (hWord : chainWord (signalled q i x d s) x d.cur = some w)
    (hNext : chainOk (signalled q i x d s) q x w = true) :
    completeDesc q i s = (signalled q i x d s).setDesc q i { d with
      status := 0, stamp := endStamp s d, phase := .released, cur := w, chainLen := d.chainLen + 1
      hold := holdAt (signalled q i x d s) q i w } := by
  have hPhase : (d.phase != .done) = false := by simp [hDone]
  rw [signalled, hOk] at hWord hNext ⊢
  simp only [completeDesc, hQueue, hDesc, hPhase, hPage, hLate, hChain, hChains, hLen, hOk, hWord, hNext, endStamp_eq, ne_eq,
    not_true_eq_false, decide_true, Bool.not_true, Bool.or_self, Bool.and_self, Bool.false_eq_true, if_false, if_true]

end Complete

/-- Settles O5, row by row along the life of a descriptor. -/
theorem queueAndDescriptorCommands : Obligations.QueueAndDescriptorCommands := by
  refine ⟨?kick, fun s v wr x hRuns hNoReset => exec_kick_admin hRuns hNoReset v, ?sweep, ?read, ?bridge, ?head, ?commit, ?release,
    ?releaseLaunch, ?complete, ?moderation, ?awaits, ?signal, ?chain⟩
  case kick =>
    intro s f off v wr hRuns hNoReset
    exact exec_kick_user hRuns hNoReset
  case sweep =>
    intro s wr hRuns
    have hGoes : ¬ (!feRuns (putCells s wr)) = true := by rw [hRuns]; decide
    change execSweep wr s = _
    exact if_neg hGoes
  case read =>
    intro s q x hQueue hMay hWalk
    change execDescriptorRead q s = _
    simp only [execDescriptorRead, readNext, hQueue, hMay, hWalk, Bool.not_true, Bool.false_eq_true, if_false]
  case bridge =>
    intro s bs hRatio
    simp only [hRatio, crossed_true, tickCross_true, implies_true, and_self]
  case head =>
    intro s q x i d hRuns hQueue hResident hHead hRead hReady hCheck
    change execDescriptorHead q s = _
    rw [execDescriptorHead, headArrives_accepted hRuns hQueue hResident hHead hRead hReady hCheck]
  case commit =>
    intro s q x i d hRuns hQueue hResident hHead hRead hOp hCheck
    have hReady : launchReady s d = true := launchReady_of_not_launch (by rw [hOp]; decide)
    change execDispCommit q i s = _
    simp only [execDispCommit, hQueue, Option.bind_some, hHead, hOp, decide_true, Bool.and_self, if_true,
      headArrives_accepted hRuns hQueue hResident hHead hRead hReady hCheck]
  case release =>
    intro s q x i d hRuns hQueue hHead hDesc hPhase hReached hFree hNeed hTranslated hOp hPatch hCheck
    rw [exec_descriptorRelease hRuns hQueue hHead hPhase hReached hFree hPatch, releaseHead_of_not_launch hNeed hTranslated hOp hCheck,
      released_of_desc none hDesc]
  case releaseLaunch =>
    intro s q x i d hRuns hQueue hHead hPhase hReached hFree hNeed hTranslated hOp
    rw [exec_descriptorRelease hRuns hQueue hHead hPhase hReached hFree (patchWaits_of_launch hOp),
      releaseHead_of_launch hNeed hTranslated hOp]
  case complete =>
    intro s q x i d hRuns hQueue hDesc hDone hLate hNoSignal hChain
    rw [exec_descriptorComplete hRuns,
      completeDesc_unchained hQueue hDesc hDone hLate (signalPage_of_no_signal hNoSignal) hChain, signalled,
      signalCur_of_no_signal d.status hNoSignal]
    rfl
  case moderation =>
    intro s v m hTimer
    change execIrqModerationTimeout v s = _
    simp only [execIrqModerationTimeout, hTimer]
  case awaits =>
    intro s q x i d page hRuns hQueue hDesc hDone hLate hPage
    rw [exec_descriptorComplete hRuns, completeDesc_awaits_page hQueue hDesc hDone hPage]
  case signal =>
    intro s q x i d hRuns hQueue hDesc hDone hLate hPage hChain
    rw [exec_descriptorComplete hRuns, completeDesc_unchained hQueue hDesc hDone hLate hPage hChain]
    rfl
  case chain =>
    intro s q x i d w hRuns hQueue hDesc hDone hLate hPage hChain hChains hLen sig stamp t hOk hWord hNext
    rw [exec_descriptorComplete hRuns, completeDesc_chained hQueue hDesc hDone hLate hPage hChain hChains hLen hOk hWord hNext]
    rfl

end Sys2Proof.Machine
end

section
/-! SUPPORT. Proofs about plans (O6). -/

namespace Sys2Proof.Machine

variable {s : State}

/-! ### Binding and residency (R240, R241) -/

/-- A LAUNCH that has been read, with nothing before it that can change its slot, takes the version its slot and menu give. -/
theorem bindLaunch_chosen {q i v : Nat} {x : Queue} {d : Desc} (hQueue : s.queue? q = some x) (hDesc : s.desc? q i = some d)
    (hUnbound : d.bound = false) (hOp : dOpcode d.raw = 0x100) (hRead : d.phase = .read) (hFree : bindBlocked s x i d.raw = false)
    (hVer : chooseVer s x.ctx d.raw = .ok v) : bindLaunch q i s = s.setDesc q i { d with bound := true, ver := some v } := by
  simp only [bindLaunch, hQueue, hDesc, hUnbound, hOp, hRead, hFree, hVer, bne_self_eq_false, Bool.or_self, Bool.false_eq_true, if_false]

/-- A version that is resident, or finds one of the 48 slots free, becomes the last used. -/
theorem residentWith_of_room {v : Nat} (h : s.fe.resident.contains v = true ∨ (s.fe.resident.filter (· != v)).length < 48) :
    residentWith s v = some (v :: s.fe.resident.filter (· != v)) := by
  have hRoom : (s.fe.resident.contains v || decide ((s.fe.resident.filter (· != v)).length < 48)) = true := by
    simpa only [Bool.or_eq_true, decide_eq_true_eq] using h
  simp only [residentWith, hRoom, if_true]

/-- With every slot in use the least recently used version that no launch holds is replaced. -/
theorem residentWith_replaces {v old : Nat} (hAbsent : s.fe.resident.contains v = false)
    (hFull : 48 ≤ (s.fe.resident.filter (· != v)).length)
    (hOld : (s.fe.resident.filter (· != v)).reverse.find? (fun w => !verHeld s w) = some old) :
    residentWith s v = some (v :: (s.fe.resident.filter (· != v)).filter (· != old)) := by
  simp only [residentWith, hAbsent, Nat.not_lt.mpr hFull, hOld, decide_false, Bool.or_self, Bool.false_eq_true, if_false, Option.map_some]

/-- PLAN_RESIDENCY of a bound descriptor whose version finds a slot. -/
theorem exec_planResidency {q i v : Nat} {d : Desc} {l : List Nat} (hRuns : feRuns s = true) (hDesc : s.desc? q i = some d)
    (hVer : d.ver = some v) (hSlot : residentWith s v = some l) :
    exec (.planResidency q i) s = .next { s with fe := { s.fe with resident := l } } := by
  change execPlanResidency q i s = _
  simp only [execPlanResidency, hDesc, hVer, hRuns, useVer, hSlot, Option.bind_some, Option.map_some, Option.getD_some, if_true]

/-! ### Storing a container (R48, R239) -/

/-- A container that can be read and has no fault is stored, and holds its pages. -/
theorem storePlan_valid {q i : Nat} {x : Queue} {d : W512} (num : Nat)
    (hWalk : (containerWalk s q i x.ctx (dField d 40 8) (roomAt s x.ctx (dField d 40 8))).stop = none)
    (hValid : planFault (ofLe (readPieces s (containerWalk s q i x.ctx (dField d 40 8) (roomAt s x.ctx (dField d 40 8))).pieces))
      (roomAt s x.ctx (dField d 40 8)) (dField d 48 2) = 0) :
    storePlan q i x d num s =
      let va := dField d 40 8
      let p := withFigures (readPlan (ofLe (readPieces s (containerWalk s q i x.ctx va (roomAt s x.ctx va)).pieces)))
      let first := va / 65536
      let n := (va + p.totalBytes - 1) / 65536 - first + 1
      done q i num (holdPages x.ctx first n { s with fe := { s.fe with
        vers := mins s.fe.vers s.fe.nextVer ⟨x.ctx, dField d 48 2, num, p, first, n, true⟩, nextVer := s.fe.nextVer + 1 } }) := by
  simp only [storePlan, hWalk, hValid, ne_eq, not_true_eq_false, if_false]

/-- Settles O6: the binding, the slot, and the state of the plan slot decide. -/
theorem planCommands : Obligations.PlanCommands := by
  refine ⟨?bind, ?resident, ?replace, ?load, ?patch, fun s q i x d num => storePlan_valid num, ?free⟩
  case bind =>
    intro s q i x d v hQueue hDesc hPassed hUnbound hOp hRead hFree hVer
    change execLaunch q i s = _
    simp only [execLaunch, hQueue, hPassed, if_false, bindLaunch_chosen hQueue hDesc hUnbound hOp hRead hFree hVer]
  case resident =>
    intro s q i d v hRuns hDesc hVer hRoom
    exact exec_planResidency hRuns hDesc hVer (residentWith_of_room hRoom)
  case replace =>
    intro s q i d v old hRuns hDesc hVer hAbsent hFull hOld
    exact exec_planResidency hRuns hDesc hVer (residentWith_replaces hAbsent hFull hOld)
  case load =>
    intro s q i x d hServes hSlot hUnused
    change execPlanLoad q i s = _
    refine descRow_eq_next hServes ?_
    simp only [hUnused, Nat.not_le.mpr hSlot, decide_false, Option.isSome_none, Bool.or_self, Bool.false_eq_true, if_false]
  case patch =>
    intro s q i x d v y hServes hUsed hRoom
    change execPlanPatch q i s = _
    refine descRow_eq_next hServes ?_
    simp only [hUsed, Nat.not_le.mpr hRoom, if_false]
  case free =>
    intro s q i x d v y hServes hUsed
    change execPlanFree q i s = _
    refine descRow_eq_next hServes ?_
    simp only [hUsed]

end Sys2Proof.Machine
end

section
/-! SUPPORT. Proofs about functions and their interrupts (O20), DL_Down (O55), and identity and management messages (O22). -/

namespace Sys2Proof.Machine

variable {s : State}

/-! ### Bus mastering and MSI-X (R273, R274, R279, R280) -/

section Functions

variable {f : Fin 64}

/-- A write of the Command register that sets Bus Master Enable resumes the function, once the host link is ready. -/
theorem exec_busMasterEnableSet (mem : Bool) (bar : Option (Fin 12)) (hReady : isReady s 0 = true) (hFn : fnExists s f = true) :
    exec (.busMasterEnableSet ⟨f, mem, bar⟩) s = .next (resumeFn f (writeCommand f true mem (resizeBar4 bar s))) := by
  change execBusMasterEnableSet ⟨f, mem, bar⟩ s = _
  simp only [execBusMasterEnableSet, hReady, hFn, Bool.not_true, Bool.or_self, Bool.false_eq_true, if_false]

theorem exec_busMasterEnableClear (mem : Bool) (bar : Option (Fin 12)) (hReady : isReady s 0 = true) (hFn : fnExists s f = true) :
    exec (.busMasterEnableClear ⟨f, mem, bar⟩) s = .next (writeCommand f false mem (resizeBar4 bar s)) := by
  change execBusMasterEnableClear ⟨f, mem, bar⟩ s = _
  simp only [execBusMasterEnableClear, hReady, hFn, Bool.not_true, Bool.or_self, Bool.false_eq_true, if_false]

theorem exec_msixEnable (mask : Bool) (hReady : isReady s 0 = true) (hFn : fnExists s f = true) :
    exec (.msixEnable ⟨f, mask⟩) s =
      .next (firePending f (s.setFunc f { s.func f with msixEnable := true, functionMask := mask })) := by
  change execMsixEnable ⟨f, mask⟩ s = _
  simp only [execMsixEnable, hReady, hFn, Bool.not_true, Bool.or_self, Bool.false_eq_true, if_false]

theorem writeCommand_func (g : Nat) (bus mem : Bool) :
    (writeCommand g bus mem s).func g = { s.func g with busMaster := bus, memSpace := if g = 0 then mem else (s.func g).memSpace } :=
  (func_setFunc s g g _).trans (if_pos rfl)

/-- A write into the table of a function that exists is a write of its entries. -/
theorem exec_msixTableWrite {off : Nat} (size : Nat) (v : W64) (hFn : fnExists s f = true) (hOff : off < 16 * nVectors f) :
    exec (.msixTableWrite f off size v) s = .next (writeMsix f off size v.toNat s) := by
  change execMsixTableWrite f off size v s = _
  simp only [execMsixTableWrite, hFn, Nat.not_le.mpr hOff, Bool.not_true, decide_false, Bool.or_self, Bool.false_eq_true, if_false]

/-- The block that holds a function's MSI-X table answers; that of a virtual function also needs the device out of the safe state. -/
theorem msixTable_answers {g : Nat} (h : (if g = 0 then blockUp s 0xF00000 else blockUp s 0 && !s.flt.safe) = true) :
    (blockUp s (if g = 0 then 0xF00000 else 0) && (g == 0 || !s.flt.safe)) = true := by
  by_cases hPf : g = 0 <;> simpa [hPf] using h

section Table

variable {g off : Nat} (v : Nat)
  (hAnswers : (if g = 0 then blockUp s 0xF00000 else blockUp s 0 && !s.flt.safe) = true)
include hAnswers

/-- An aligned write of one DWORD. -/
theorem writeMsix_dword (hAligned : off % 4 = 0) : writeMsix g off 4 v s = firePending g (putMsix g off (v % 2 ^ 32) s) := by
  simp [writeMsix, msixTable_answers hAnswers, hAligned]

/-- An aligned write of two DWORDs puts the lower one first. -/
theorem writeMsix_qword (hAligned : off % 8 = 0) :
    writeMsix g off 8 v s = firePending g (putMsix g (off + 4) (v / 2 ^ 32) (putMsix g off (v % 2 ^ 32) s)) := by
  simp [writeMsix, msixTable_answers hAnswers, hAligned]

end Table

/-! ### Function-level resets (R282, R283) -/

theorem exec_vfFlr (hVf : f.val ≠ 0) (hFn : fnExists s f = true) (hRuns : feRuns s = true) :
    exec (.vfFlr f) s = .next (flrDone f (resetFn f (resetFns (· == f.val) s))) := by
  change execVfFlr f s = _
  simp only [execVfFlr, hVf, hFn, hRuns, decide_false, Bool.not_true, Bool.or_self, Bool.false_eq_true, if_false]

theorem exec_vfEnableClear (hVfs : s.link.vfEnable = true) (hRuns : feRuns s = true) :
    exec .vfEnableClear s =
      let t := foldState ((List.range 63).map (· + 1)) resetFn (resetFns (· != 0) s)
      .next (flrDone 0 { t with link := { t.link with vfEnable := false, numVfs := 0 } }) := by
  change execVfEnableClear s = _
  simp only [execVfEnableClear, hVfs, hRuns, Bool.not_true, Bool.or_self, Bool.false_eq_true, if_false]

theorem exec_pfFlr (hReady : isReady s 0 = true) (hRuns : feRuns s = true) :
    exec .pfFlr s = .next (flrDone 0 (foldState (List.range 64) resetFn (resetFields (resetFns (fun _ => true) s)))) := by
  change execPfFlr s = _
  simp only [execPfFlr, hReady, hRuns, Bool.not_true, Bool.or_self, Bool.false_eq_true, if_false]

end Functions

/-- Settles O20: the function exists and the units that serve it run, so each command has its effect; BAR4 is resized before the write of the
Command register. -/
theorem functionCommands : Obligations.FunctionCommands := by
  refine ⟨?command, fun s f bus mem => writeCommand_func f bus mem, ?table, fun s f => exec_vfFlr, fun s => exec_vfEnableClear,
    fun s => exec_pfFlr⟩
  case command =>
    intro s f hReady hFn
    exact ⟨fun mem bar => ⟨exec_busMasterEnableSet mem bar hReady hFn, exec_busMasterEnableClear mem bar hReady hFn⟩,
      fun mask => exec_msixEnable mask hReady hFn⟩
  case table =>
    intro s f off v hFn hOff hAnswers
    refine ⟨fun hAligned => ?_, fun hAligned => ?_⟩
    · rw [exec_msixTableWrite 4 v hFn hOff, writeMsix_dword v.toNat hAnswers hAligned]
    · rw [exec_msixTableWrite 8 v hFn hOff, writeMsix_qword v.toNat hAnswers hAligned]

/-- Settles O55: both are resets over the link. -/
theorem dlDownIsAHotReset : Obligations.DlDownIsAHotReset := by
  intro s hUp
  have hDown : exec .dlDown s = .next (resetStart s) := exec_linkReset s hUp (by simp)
  have hHot : exec .hotReset s = .next (resetStart s) := exec_linkReset s hUp (by simp)
  exact ⟨hDown.trans hHot.symm, hDown⟩

/-! ### The DOE mailbox (R287) -/

section Mailbox

variable {m : List Byte}

/-- Discovery and the SPDM requests are requests of the mailbox, each under its code and with its effect. -/
theorem exec_doeMessage {e : (List Byte → Instr) × Nat × DoeAct}
    (he : e ∈ (Instr.doeDiscovery, 0, DoeAct.none) :: spdmRequests.map (fun r => (r.1, r.2.1, DoeAct.spdm r.2.2.1 r.2.2.2))) :
    exec (e.1 m) s = doeRequest e.2.1 m e.2.2 s := by
  simp only [spdmRequests, List.map_cons, List.map_nil, List.mem_cons, List.not_mem_nil, or_false] at he
  rcases he with rfl | rfl | rfl | rfl | rfl | rfl | rfl | rfl | rfl | rfl | rfl | rfl | rfl <;> rfl

section Request

variable (code : Nat) (act : DoeAct)

theorem doeRequest_taken (hUp : s.link.dlUp = true) (hIdle : s.link.doe.request = none) (hFits : m.length ≤ 4096) :
    doeRequest code m act s =
      .next { s with link := { s.link with doe := { s.link.doe with request := some ⟨code, m, act⟩, ready := false } } } := by
  simp only [doeRequest, hUp, hIdle, Nat.not_lt.mpr hFits, Option.isSome_none, Bool.not_true, Bool.or_self, Bool.false_eq_true, if_false]

theorem doeRequest_tooLong (hUp : s.link.dlUp = true) (hIdle : s.link.doe.request = none) (hLong : 4096 < m.length) :
    doeRequest code m act s = .next { s with link := { s.link with doe := { s.link.doe with error := true } } } := by
  simp only [doeRequest, hUp, hIdle, hLong, Option.isSome_none, Bool.not_true, Bool.or_self, Bool.false_eq_true, if_false, if_true]

/-- Without a link, or while the mailbox is Busy, a request is discarded. -/
theorem doeRequest_discarded (h : s.link.dlUp = false ∨ s.link.doe.request ≠ none) : doeRequest code m act s = .next s := by
  have hDiscard : (!s.link.dlUp || s.link.doe.request.isSome) = true := by
    simpa only [Bool.or_eq_true, Bool.not_eq_true', Option.isSome_iff_ne_none] using h
  simp only [doeRequest, hDiscard, if_true]

end Request

theorem exec_doeResponseReady_serves {r : DoeReq} (hBusy : s.link.doe.request = some r) (hSec : isReady s 2 = true) :
    exec .doeResponseReady s =
      let t := doeAct r s
      let a := Config.protocolReply r.code r.bytes (responderState t)
      let u := ({ t with link := { t.link with doe := { t.link.doe with request := none, ready := true, response := a } } }).send
        { kind := .doe, bytes := a }
      .next (if s.link.doeIrq then raiseIrq u 0 0 else u) := by
  change execDoeResponseReady s = _
  simp only [execDoeResponseReady, hBusy, hSec, Bool.not_true, Bool.false_eq_true, if_false]

/-- With no request, or before SEC is ready, there is no answer. -/
theorem exec_doeResponseReady_waits (h : s.link.doe.request = none ∨ isReady s 2 = false) : exec .doeResponseReady s = .next s := by
  change execDoeResponseReady s = _
  rcases h with hIdle | hSec
  · simp only [execDoeResponseReady, hIdle]
  · cases hRequest : s.link.doe.request with
    | none => simp only [execDoeResponseReady, hRequest]
    | some r => simp only [execDoeResponseReady, hRequest, hSec, Bool.not_false, if_true]

/-! ### What a served key message does (R288) -/

theorem doeAct_ide_inSession (code k : Nat) (kind : IdeKm) (hKeys : s.sec.keys = true) :
    doeAct ⟨code, m, .ide k kind⟩ s = ideKm k kind s := if_pos hKeys

theorem doeAct_ide_noSession (code k : Nat) (kind : IdeKm) (hKeys : s.sec.keys = false) :
    doeAct ⟨code, m, .ide k kind⟩ s = s := if_neg (by simp [hKeys])

theorem ideKm_go_keyed {k : Nat} (hKeyed : (ide s k).st = .keyed) :
    ideKm k .go s = foldState (List.range 64) resumeFn (setIde k { ide s k with st := .secure } s) := if_pos (by simp [hKeyed])

/-! ### Management messages over SMBus (R419) -/

theorem exec_mctpControlMessage (hSmbus : latchesAlarms s = true) :
    exec (.mctpControlMessage m) s = .next (s.send { kind := .smbus, bytes := Config.protocolReply 0x200 m 0 }) := by
  change execMctpControlMessage m s = _
  simp only [execMctpControlMessage, smbusUp, hSmbus, if_true]

theorem exec_pldmMonitoringRequest (hSmbus : latchesAlarms s = true) :
    exec (.pldmMonitoringRequest m) s = .next (s.send { kind := .smbus, a := 1, bytes := Config.protocolReply 0x201 m (sensorState s) }) := by
  change execPldmMonitoringRequest m s = _
  simp only [execPldmMonitoringRequest, smbusUp, hSmbus, if_true]

end Mailbox

/-- Settles O22: each request is one of the mailbox, whose state decides; what it does when it is served is its own effect. -/
theorem identityCommands : Obligations.IdentityCommands := by
  refine ⟨?request, fun s k kind m => doeRequest_taken 0x200 (.ide k kind), fun s => rfl, fun s r => exec_doeResponseReady_serves,
    fun s => exec_doeResponseReady_waits, fun s m e _ => rfl, ?keyMessage,
    fun s m h => ⟨exec_mctpControlMessage h, exec_pldmMonitoringRequest h⟩⟩
  case request =>
    intro s m e he
    rw [exec_doeMessage he]
    exact ⟨doeRequest_taken e.2.1 e.2.2, doeRequest_tooLong e.2.1 e.2.2, doeRequest_discarded e.2.1 e.2.2⟩
  case keyMessage =>
    intro s k m
    exact ⟨fun rid addrs => doeAct_ide_inSession 0x200 k (.setKeys rid addrs),
      fun hKeys hKeyed => (doeAct_ide_inSession 0x200 k .go hKeys).trans (ideKm_go_keyed hKeyed),
      doeAct_ide_inSession 0x200 k .stop, fun kind => doeAct_ide_noSession 0x200 k kind⟩

end Sys2Proof.Machine
end

section
/-! SUPPORT. Proofs about caravan records (O29): a record that is read and valid is served by its own kind's row, and every other one is
refused by whichever row serves it. -/

namespace Sys2Proof.Machine

section Records
variable {s : State} {q i : Nat} {x : Queue} {d : Desc}

/-- A row of a served caravan record leaves what its effect gives. -/
theorem caravanRow_eq_next {kind r : Nat} {eff : Queue → Desc → Nat → State → State} {t : State} (hServes : CaravanServes s q i kind x d r)
    (h : eff x d r s = t) : caravanRow kind eff q i s = .next t := by
  rw [caravanRow_next hServes, h]

theorem caravanRow_invalid {r : Nat} (kind : Nat) (eff : Queue → Desc → Nat → State → State) (hServes : Serves s q i 0x500 x d)
    (hRecord : netRecord s x q i d.cur = .ok r) (hBad : caravanOk x (dField d.cur 48 4) r = false) :
    caravanRow kind eff q i s = .next (failed q i 2 0x0B01 s) := by
  refine descRow_eq_next hServes ?_
  simp only [hRecord, hBad, Bool.not_false, if_true]

theorem caravanRow_unread {e : Tr} (kind : Nat) (eff : Queue → Desc → Nat → State → State) (hServes : Serves s q i 0x500 x d)
    (hRecord : netRecord s x q i d.cur = .error e) :
    caravanRow kind eff q i s = .next (stopDesc q i x d.cur (dField d.cur 40 8) 2 0 e 0 s) := by
  refine descRow_eq_next hServes ?_
  simp only [hRecord]

/-- The seven commands of CARAVAN_OP (R311). -/
def caravanCommands : List (Nat → Nat → Instr) :=
  [.nodeSet, .nodeClear, .nodeQuery, .exportRange, .unexportRange, .qpCreate, .qpDestroy]

/-- Each of them is a caravan row. -/
theorem exec_caravanCommands {f : Nat → Nat → Instr} (h : f ∈ caravanCommands) :
    ∃ kind eff, exec (f q i) s = caravanRow kind eff q i s := by
  simp only [caravanCommands, List.mem_cons, List.not_mem_nil, or_false] at h
  rcases h with rfl | rfl | rfl | rfl | rfl | rfl | rfl
  exacts [⟨_, _, execNodeSet.eq_1 q i s⟩, ⟨_, _, execNodeClear.eq_1 q i s⟩, ⟨_, _, execNodeQuery.eq_1 q i s⟩,
    ⟨_, _, execExportRange.eq_1 q i s⟩, ⟨_, _, execUnexportRange.eq_1 q i s⟩, ⟨_, _, execQpCreate.eq_1 q i s⟩,
    ⟨_, _, execQpDestroy.eq_1 q i s⟩]

end Records

/-- Settles O29, record by record: what the tables hold decides which branch of its row is taken. -/
theorem caravanRecords : Obligations.CaravanRecords := by
  refine ⟨?nodeSet, ?nodeClear, ?nodeQuery, ?exportRange, ?unexport, ?qpCreate, ?qpDestroy, ?noNodeToClear, ?noNodeToQuery, ?noExport,
    ?noQp, ?invalid, ?unread⟩
  case nodeSet =>
    intro s q i x d r hServes
    refine ⟨fun hCredits hTable => ?_, fun hNoRoom => ?_⟩
    all_goals
      change execNodeSet q i s = _
      refine caravanRow_eq_next hServes ?_
    · have hRoom : (decide (262144 < creditsOn s (field r 8 2) (field r 32 32) + field r 96 20)
          || (node? s (field r 32 32)).isNone && decide (65536 ≤ s.net.nodes.length)) = false := by
        simpa [Nat.not_lt.mpr hCredits, imp_iff_not_or] using hTable
      refine (if_neg (Bool.eq_false_iff.mp hRoom)).trans ?_
      cases node? s (field r 32 32) with
      | none => rfl
      | some o => simp only [beq_iff_eq]
    · exact if_pos (by simpa using hNoRoom)
  case nodeClear =>
    intro s q i x d r n hServes hNode
    change execNodeClear q i s = _
    refine caravanRow_eq_next hServes ?_
    simp only [hNode, beq_iff_eq]
  case nodeQuery =>
    intro s q i x d r n hServes hNode
    refine ⟨fun hAnswer => ?_, fun hWait hSeen => ?_⟩
    all_goals
      change execNodeQuery q i s = _
      refine caravanRow_eq_next hServes ?_
      simp only [hNode]
    · exact if_neg (by simpa [imp_iff_not_or] using hAnswer)
    · exact if_pos (by simp [hWait, hSeen])
  case exportRange =>
    intro s q i x d r hServes
    refine ⟨fun k hVa hLen hObj hFree => ?_, fun hRange => ?_, fun hVa hLen hObj hFull => ?_⟩
    all_goals
      change execExportRange q i s = _
      refine caravanRow_eq_next hServes ?_
    · simp only [hVa, hLen, hObj, hFree, ne_eq, not_true_eq_false, decide_false, Bool.not_true, Bool.or_self, Bool.false_eq_true, if_false]
    · exact if_pos (by simpa [or_assoc] using hRange)
    · simp only [hVa, hLen, hObj, hFull, ne_eq, not_true_eq_false, decide_false, Bool.not_true, Bool.or_self, Bool.false_eq_true, if_false]
  case unexport =>
    intro s q i x d r hServes hLive hGen hCtx
    change execUnexportRange q i s = _
    refine caravanRow_eq_next hServes ?_
    exact if_neg (by simp [hLive, hGen, hCtx])
  case qpCreate =>
    intro s q i x d r hServes
    refine ⟨fun n hRoom hFresh => ?_, fun hFull => ?_⟩
    all_goals
      change execQpCreate q i s = _
      refine caravanRow_eq_next hServes ?_
    · simp only [Nat.not_le.mpr hRoom, hFresh, if_false]
    · exact if_pos hFull
  case qpDestroy =>
    intro s q i x d r y hServes hQp hCtx
    change execQpDestroy q i s = _
    refine caravanRow_eq_next hServes ?_
    simp only [hQp, hCtx, ne_eq, not_true_eq_false, if_false]
  case noNodeToClear =>
    intro s q i x d r hServes hNode
    change execNodeClear q i s = _
    refine caravanRow_eq_next hServes ?_
    simp only [hNode]
  case noNodeToQuery =>
    intro s q i x d r hServes hNode
    change execNodeQuery q i s = _
    refine caravanRow_eq_next hServes ?_
    simp only [hNode]
  case noExport =>
    intro s q i x d r hServes hNotOwn
    change execUnexportRange q i s = _
    refine caravanRow_eq_next hServes ?_
    exact if_pos (by simpa [or_assoc] using hNotOwn)
  case noQp =>
    intro s q i x d r hServes hNotOwn
    change execQpDestroy q i s = _
    refine caravanRow_eq_next hServes ?_
    cases hQp : qp? s (field r 32 32) with
    | none => simp only [hQp]
    | some y =>
      have hOther : y.ctx ≠ x.ctx := by simpa [hQp] using hNotOwn
      simp only [hQp, hOther, ne_eq, not_false_eq_true, if_true]
  case invalid =>
    intro s q i x d r hServes hRecord hBad f hf
    obtain ⟨kind, eff, hRow⟩ := exec_caravanCommands hf
    rw [hRow, caravanRow_invalid kind eff hServes hRecord hBad]
  case unread =>
    intro s q i x d e hServes hRecord f hf
    obtain ⟨kind, eff, hRow⟩ := exec_caravanCommands hf
    rw [hRow, caravanRow_unread kind eff hServes hRecord]

end Sys2Proof.Machine
end

section
/-! SUPPORT. Proofs about Qanat packets (O30): what a packet of an UP node reaches, and how a packet of a sequence is judged. -/

namespace Sys2Proof.Machine

/-! ### Receiving (R293, R306, R312) -/

theorem node_setNode_self (s : State) (id : Nat) (n : Node) : node? (setNode s id n) id = some n := by simp

section Receive
variable {s : State} {p : Fin 4} {k : QPacket} {n : Node}

/-- A packet for this module that its sub-port takes and whose form is valid arrives. -/
theorem receiveAs_fromUpNode {t : Nat} (h : FromUpNode s p k t n) : receiveAs t p k s = .next (arrives p k s) := by
  obtain ⟨hReceives, hSa, hOk, hType, hSrc, hDst, -, -⟩ := h
  simp only [receiveAs, receive, hReceives, hSa, hOk, hType, hSrc, hDst, Bool.not_true, Bool.false_eq_true, if_false, if_true]

/-- Any packet but HELLO of an UP node keeps it heard and is served by its type (R298). -/
theorem receiveAs_eq_next {t : Nat} {u : State} (h : FromUpNode s p k t n) (hNotHello : t ≠ 5)
    (hServed : pkType k = t → fromNode p k (setNode s (pkSrc k) { n with heard := s.now }) = u) : receiveAs t p k s = .next u := by
  rw [receiveAs_fromUpNode h]
  obtain ⟨-, -, -, hType, -, -, hNode, hUp⟩ := h
  simp only [arrives, hType, hNotHello, hNode, hUp, bne_self_eq_false, Bool.false_eq_true, if_false, ← hServed hType]

/-- HELLO of an UP node from the addresses of its entry: with INIT the node has restarted (R298). -/
theorem receiveAs_hello_fromEntry (h : FromUpNode s p k 5 n) (hEntry : fromEntry n k = true) :
    receiveAs 5 p k s =
      let t := setNode s (pkSrc k) { n with window := pkOff k, heard := s.now, helloGot := true }
      .next (if bitOf (pkFlags k) 2 then loseNode (pkSrc k) t else pumpAll (pkSrc k) (tryUp (pkSrc k) t)) := by
  rw [receiveAs_fromUpNode h]
  obtain ⟨-, -, -, hType, -, -, hNode, hUp⟩ := h
  simp [arrives, helloFrom, hType, hNode, hUp, hEntry]

theorem receiveAs_hello_foreign (h : FromUpNode s p k 5 n) (hForeign : fromEntry n k = false) :
    receiveAs 5 p k s = .next (frameViol p (pkSrc k) 0 s) := by
  rw [receiveAs_fromUpNode h]
  obtain ⟨-, -, -, hType, -, -, hNode, -⟩ := h
  simp [arrives, helloFrom, hType, hNode, hForeign]

end Receive

/-! ### A packet of a sequence (R296, R297, R312) -/

theorem diff32_self (a : Nat) : diff32 a a = 0 := by
  have hZero : (a + 2 ^ 32 - a % 2 ^ 32) % 2 ^ 32 = 0 := by omega
  simp only [diff32, signed, hZero]
  rfl

section Sequence
variable {s : State} {q : Nat} {k : QPacket} {n : Node} (hNode : node? s (pkSrc k) = some n)
include hNode

theorem inSequence_beyondWindow (hLines : n.credits < pkLines k) :
    inSequence q k s = nakNode (pkSrc k) 1 (countDrop q (frameViol q (pkSrc k) 1 s)) := by
  simp only [inSequence, hNode, hLines, if_true]

variable (hLines : pkLines k ≤ n.credits)
include hLines

theorem inSequence_behind (hPsn : diff32 (pkPsn k) n.rxPsn < 0) : inSequence q k s = ackNode (pkSrc k) s := by
  simp only [inSequence, hNode, Nat.not_lt.mpr hLines, hPsn, hPsn.le.not_gt, if_false, if_true]

/-- One NAK SEQUENCE is sent in a retransmission interval: what else arrives ahead in it is discarded. -/
theorem inSequence_aheadAgain {at_ : Nat} (hPsn : 0 < diff32 (pkPsn k) n.rxPsn) (hNak : n.nakAt = some at_)
    (hRecent : s.now < at_ + netRto s) : inSequence q k s = countDrop q (frameViol q (pkSrc k) 0 s) := by
  simp only [inSequence, hNode, Nat.not_lt.mpr hLines, hPsn, hNak, hRecent, decide_true, if_false, if_true]

theorem inSequence_ahead (hPsn : 0 < diff32 (pkPsn k) n.rxPsn) (hNak : n.nakAt = none) :
    inSequence q k s = nakNode (pkSrc k) 2
      (setNode (countDrop q (frameViol q (pkSrc k) 2 s)) (pkSrc k) { n with nakAt := some s.now }) := by
  simp only [inSequence, hNode, Nat.not_lt.mpr hLines, hPsn, hNak, Bool.false_eq_true, if_false, if_true]

theorem inSequence_inOrder (hPsn : pkPsn k = n.rxPsn) : inSequence q k s = applyPacket q k s := by
  simp only [inSequence, hNode, Nat.not_lt.mpr hLines, hPsn, diff32_self, lt_irrefl, if_false]

end Sequence

/-! ### Packets of an UP node, by type -/

section Types
variable {s : State} {p : Fin 4} {k : QPacket} {n : Node}

/-- DATA and READ_REQ of an UP node are judged by its window and its sequence. -/
theorem receiveAs_inSequence {t : Nat} (h : FromUpNode s p k t n) (hType : t = 0 ∨ t = 1) :
    receiveAs t p k s = .next (inSequence p k (setNode s (pkSrc k) { n with heard := s.now })) := by
  refine receiveAs_eq_next h (by omega) fun hSame => ?_
  rcases hType with rfl | rfl <;> simp only [fromNode, hSame]

end Types

/-! ### Transit (R306, R307) -/

/-- A packet for another node that a DIRECT sub-port takes is passed on. -/
theorem receive_transit {s : State} {q : Nat} {k : QPacket} (hReceives : canReceive s q = true) (hSa : saOk s q = true) (hOk : pkOk k = true)
    (hSrc : pkSrc k ≠ myNode s) (hDst : pkDst k ≠ myNode s) (hDirect : subSwitched s q = false) : receive q k s = transit q k s := by
  simp only [receive, hReceives, hSa, hOk, hSrc, hDst, hDirect, Bool.not_true, Bool.false_eq_true, if_false]

theorem transit_of_node {s : State} {q : Nat} {k : QPacket} {n : Node} (hNode : node? s (pkDst k) = some n) (hHops : 1 < pkHops k) :
    transit q k s = bufferTransit q (n.sub, {
      kind := .qanat, a := pkDst k, b := n.sub, bytes := leBytes 32 (k.hdr.toNat - 65536) ++ k.payload }) s := by
  simp only [transit, hNode, Nat.not_le.mpr hHops, if_false]

/-- Settles O30: a packet that its sub-port takes reaches what its type names, and the node's entry decides what follows. -/
theorem qanatPackets : Obligations.QanatPackets := by
  refine ⟨?data, ?readReq, ?readResp, ?ack, ?nakSequence, ?nakNoExport, ?hello, ?bye, ?transit, ?notInOrder, ?nakWindow, ?nakAccess,
    ?nakUnknown, ?helloInit, ?helloForeign⟩
  case data =>
    intro s p k n h hLines hPsn
    change receiveAs 0 p k s = _
    rw [receiveAs_inSequence h (.inl rfl), inSequence_inOrder (n := { n with heard := s.now }) (node_setNode_self ..) hLines hPsn]
  case readReq =>
    intro s p k n h hLines hPsn
    change receiveAs 1 p k s = _
    rw [receiveAs_inSequence h (.inr rfl), inSequence_inOrder (n := { n with heard := s.now }) (node_setNode_self ..) hLines hPsn]
  case readResp =>
    intro s p k n h
    exact receiveAs_eq_next h (by decide) fun hType => by simp only [fromNode, hType]
  case ack =>
    intro s p k n h
    exact receiveAs_eq_next h (by decide) fun hType => by simp only [fromNode, hType]
  case bye =>
    intro s p k n h
    exact receiveAs_eq_next h (by decide) fun hType => by simp only [fromNode, hType]
  case nakSequence =>
    intro s p k n h hCode
    exact receiveAs_eq_next h (by decide) fun hType => by simp only [fromNode, hType, hCode]
  case nakNoExport =>
    intro s p k n h hCode
    exact receiveAs_eq_next h (by decide) fun hType => by simp only [fromNode, hType, hCode]
  case nakWindow =>
    intro s p k n h hCode
    exact receiveAs_eq_next h (by decide) fun hType => by simp only [fromNode, hType, hCode]
  case nakAccess =>
    intro s p k n h hCode
    exact receiveAs_eq_next h (by decide) fun hType => by simp only [fromNode, hType, hCode]
  case nakUnknown =>
    intro s p k n h hCode
    simp only [List.mem_cons, List.not_mem_nil, or_false, not_or] at hCode
    exact receiveAs_eq_next h (by decide) fun hType => by simp [fromNode, hType, hCode]
  case hello =>
    intro s p k n h hEntry hRestart
    change receiveAs 5 p k s = _
    rw [receiveAs_hello_fromEntry h hEntry, hRestart]
    rfl
  case helloInit =>
    intro s p k n h hEntry hRestart
    change receiveAs 5 p k s = _
    rw [receiveAs_hello_fromEntry h hEntry, hRestart]
    rfl
  case helloForeign =>
    intro s p k n h hForeign
    exact receiveAs_hello_foreign h hForeign
  case transit =>
    intro s p k n hReceives hSa hOk hSrc hDst hDirect hNode hHops
    change execQanatTransit p k s = _
    rw [execQanatTransit, if_neg hDst, receive_transit hReceives hSa hOk hSrc hDst hDirect, transit_of_node hNode hHops]
    rfl
  case notInOrder =>
    intro s p k n f hf h
    have hRow : exec (f.1 p k) s = .next (inSequence p k (setNode s (pkSrc k) { n with heard := s.now })) := by
      simp only [List.mem_cons, List.not_mem_nil, or_false] at hf
      rcases hf with rfl | rfl
      · exact receiveAs_inSequence h (.inl rfl)
      · exact receiveAs_inSequence h (.inr rfl)
    simp only [hRow]
    have hNode := node_setNode_self s (pkSrc k) { n with heard := s.now }
    refine ⟨fun hLines => ?_, fun hLines hPsn => ?_, fun hLines hPsn => ⟨fun at_ hNak hRecent => ?_, fun hNak => ?_⟩⟩
    · rw [inSequence_beyondWindow hNode hLines]
    · rw [inSequence_behind hNode hLines hPsn]
    · rw [inSequence_aheadAgain hNode hLines hPsn hNak hRecent]
    · rw [inSequence_ahead hNode hLines hPsn hNak]
      rfl

end Sys2Proof.Machine
end

section
/-! SUPPORT. Proofs about RoCEv2 (O31): posts, responses, timeouts and inbound requests. -/

namespace Sys2Proof.Machine

/-! ### Posts (R310, R311) -/

/-- The post that a valid record gives: its local range as it translates when it is posted (R187). -/
def recordPost (s : State) (ctx q i op r : Nat) : Post :=
  ⟨q, i, op, field r 64 32, field r 128 64, field r 192 64, field r 96 32,
    (localBytes s ctx (userDesc q i) (field r 128 64) (field r 64 32) (op == 2 || op == 3)).pieces⟩

section Posts
variable {s : State} {q i op : Nat} {x : Queue} {d : Desc} {r : Nat} {y : Qp}

/-- A post that is next for its QP joins the receives, or the sends and leaves; a READ waits while 16 are outstanding. -/
theorem roceRow_posts (hOp : op < 4) (h : PostServes s q i op x d r y) :
    roceRow op q i s =
      let p := recordPost s x.ctx q i op r
      .next (if op = 3 then setQp s (field r 0 32) { y with recvs := y.recvs ++ [p] }
        else if op = 2 && decide (16 ≤ (y.sends.filter (fun o => o.op == 2)).length) then s
        else sendPost (field r 0 32) p (setQp s (field r 0 32) { y with sends := y.sends ++ [p] })) := by
  obtain ⟨hServes, hRecord, hSize, hReserved, hCode, hLen, hQp, hCtx, hLive, hNew, hNext, hRange, hWalk⟩ := h
  have hValid : (decide (dField d.cur 48 4 ≠ 32) || decide (field r 40 24 ≠ 0) || decide (4 ≤ field r 32 8)
      || decide (2 ^ 31 < field r 64 32)) = false := by
    simpa [hSize, hReserved, hCode, hOp] using hLen
  refine descRow_eq_next hServes ?_
  simp only [hRecord, hValid, Bool.false_eq_true, if_false]
  simp only [hCode, hQp, hCtx, hLive, hNew, hNext, hRange, hWalk, ne_eq, not_true_eq_false, Bool.false_eq_true, if_false,
    recordPost]

theorem roceRow_sends (hOp : op < 3) (h : PostServes s q i op x d r y)
    (hReads : op = 2 → (y.sends.filter (fun o => o.op == 2)).length < 16) :
    roceRow op q i s =
      let p := recordPost s x.ctx q i op r
      .next (sendPost (field r 0 32) p (setQp s (field r 0 32) { y with sends := y.sends ++ [p] })) := by
  have hRoom : (decide (op = 2) && decide (16 ≤ (y.sends.filter (fun o => o.op == 2)).length)) = false := by
    simpa [imp_iff_not_or] using hReads
  rw [roceRow_posts (by omega) h]
  simp only [hRoom, hOp.ne, Bool.false_eq_true, if_false]

end Posts

/-! ### Responses, timeouts and requests (R309, R310) -/

section Answers
variable {s : State} {n : Nat} {y : Qp}

theorem execRoceRetryTimeout_of_live (hQp : qp? s n = some y) (hLive : y.error = false) (hSends : y.sends ≠ [])
    (hSafe : s.flt.safe = false) (rnr : Bool) :
    execRoceRetryTimeout n rnr s = .next (if rnr then foldState y.sends (sendPost n) s
      else if qpRetry y ≤ y.retries then failQp n s
      else foldState y.sends (sendPost n) (setQp s n { y with retries := y.retries + 1 })) := by
  simp only [execRoceRetryTimeout, hQp, hLive, hSafe, List.isEmpty_eq_false_iff.mpr hSends, Bool.or_self, Bool.false_eq_true, if_false]
  split_ifs <;> rfl

theorem execRoceRequestReceived_of_live {p : Fin 4} {x : RoceReq} (hReceives : canReceive s p = true) (hSa : saOk s p = true)
    (hIcrc : x.icrcOk = true) (hCe : x.ce = false) (hQp : qp? s x.qpn = some y) (hLive : y.error = false) :
    execRoceRequestReceived p x s = .next (roceInbound p x y s) := by
  simp only [execRoceRequestReceived, hReceives, hSa, hIcrc, hCe, hQp, hLive, Bool.not_true, Bool.false_eq_true, if_false]

/-- The device performs no rate control, so a CNP changes nothing. -/
theorem execCnpReceived_of_saOk {p : Fin 4} (hSa : saOk s p = true) : execCnpReceived p s = .next s := by
  simp [execCnpReceived, hSa]

end Answers

/-- Settles O31: a post that is next leaves or waits, and each answer is judged against the QP's oldest post. -/
theorem roceCommands : Obligations.RoceCommands := by
  refine ⟨?posts, ?receive, ?response, ?timeout, ?request, fun s p => execCnpReceived_of_saOk⟩
  case posts =>
    intro s q i x d r y op hOp h hReads
    have hRow := roceRow_sends hOp h hReads
    exact ⟨by rintro rfl; exact hRow, by rintro rfl; exact hRow, by rintro rfl; exact hRow⟩
  case receive =>
    intro s q i x d r y h
    exact roceRow_posts (by decide) h
  case response =>
    intro s n y p ps hQp hSends hLive hReceives hSa
    have hRow (resp : RoceResp) : exec (.roceResponseReceived n resp) s = execRoceResponseReceived n resp s := rfl
    simp only [hRow, execRoceResponseReceived, hQp, hSends, hLive, hReceives, hSa, Bool.not_true, Bool.or_self, Bool.false_eq_true, if_false,
      true_and]
    exact ⟨fun hOp => by rw [if_neg hOp], fun bs hOp hLen hRuns => if_neg (by simp [hOp, hLen, hRuns])⟩
  case timeout =>
    intro s n y hQp hLive hSends hSafe
    have hRow := execRoceRetryTimeout_of_live hQp hLive hSends hSafe
    exact ⟨hRow true, hRow false⟩
  case request =>
    intro s p x y hReceives hSa hIcrc hCe hQp hLive
    exact execRoceRequestReceived_of_live hReceives hSa hIcrc hCe hQp hLive

end Sys2Proof.Machine
end

section
/-! SUPPORT. Proofs about sub-ports, keys, frames and timers (O32). -/

namespace Sys2Proof.Machine

/-! ### Bits of a register's word -/

theorem bitOf_eq_testBit (n i : Nat) : bitOf n i = n.testBit i := by
  rw [bitOf, Nat.testBit_eq_decide_div_mod_eq]
  rfl

theorem bitOf_setField_bit (n l j : Nat) (b : Bool) : bitOf (setField n l 1 (b2n b)) j = if j = l then b else bitOf n j := by
  simp only [bitOf_eq_testBit, testBit_setField_one]

theorem field_bit (n l : Nat) : field n l 1 = b2n (bitOf n l) := by
  rcases Nat.mod_two_eq_zero_or_one (n / 2 ^ l) with h | h <;> simp [field, bitOf, b2n, h]

theorem bitOf_field_low {i len : Nat} (h : i < len) (n : Nat) : bitOf (field n 0 len) i = bitOf n i := by
  simp [bitOf_eq_testBit, field, Nat.testBit_mod_two_pow, h]

/-- A bit replaced by itself. -/
theorem setField_own_bit (n l : Nat) : setField n l 1 (b2n (bitOf n l)) = n := by
  refine Nat.eq_of_testBit_eq fun j => ?_
  rw [testBit_setField_one, bitOf_eq_testBit]
  split_ifs with h
  · rw [h]
  · rfl

/-! ### ENABLE and BREAKOUT (R291, R298, R313) -/

section Enable
variable {s : State} {q v : Nat}

/-- The word that a write leaves in NET_CTRL_q: the second sub-port of a port holds no BREAKOUT, and the first one's is fixed while either
is enabled. -/
def netCtrlWord (s : State) (q v : Nat) : Nat :=
  setField (field v 0 9) 2 1 (if q % 2 = 1 then 0 else if !subEnabled s q && !subEnabled s (q + 1) then field v 2 1 else field (netCtrl s q) 2 1)

theorem netCtrlWord_odd (hOdd : q % 2 = 1) : netCtrlWord s q v = setField (field v 0 9) 2 1 0 := by
  rw [netCtrlWord, if_pos hOdd]

theorem netCtrlWord_free (hEven : q % 2 = 0) (hOff : subEnabled s q = false) (hPeerOff : subEnabled s (q + 1) = false) :
    netCtrlWord s q v = field v 0 9 := by
  rw [netCtrlWord, hEven, hOff, hPeerOff, field_bit v 2, ← bitOf_field_low (show 2 < 9 by decide) v]
  exact setField_own_bit (field v 0 9) 2

theorem netCtrlWord_fixed (hEven : q % 2 = 0) (hOn : subEnabled s q = true ∨ subEnabled s (q + 1) = true) :
    netCtrlWord s q v = setField (field v 0 9) 2 1 (field (netCtrl s q) 2 1) := by
  have hFixed : (!subEnabled s q && !subEnabled s (q + 1)) = false := by rcases hOn with h | h <;> simp [h]
  simp [netCtrlWord, hEven, hFixed]

/-- Every bit of the word but BREAKOUT is as it is written. -/
theorem bitOf_netCtrlWord {j : Nat} (hWidth : j < 9) (hOther : j ≠ 2) : bitOf (netCtrlWord s q v) j = bitOf v j := by
  have hBit (b : Bool) : bitOf (setField (field v 0 9) 2 1 (b2n b)) j = bitOf v j := by
    rw [bitOf_setField_bit, if_neg hOther, bitOf_field_low hWidth]
  rw [netCtrlWord, field_bit, field_bit]
  split_ifs
  exacts [hBit false, hBit _, hBit _]

/-- What a write of NET_CTRL_q does, by the ENABLE and PFC_EN bits it writes. -/
theorem writeNetCtrl_eq : writeNetCtrl q v s =
    if subEnabled s q && !bitOf v 0 then
      let t := foldState (keptOn s q) sendBye s
      wr (setSub t q (linkDown (sub t q))) (subBase q) (netCtrlWord s q v)
    else
      let t := wr s (subBase q) (netCtrlWord s q v)
      if bitOf v 5 then t else unpause q t := by
  have hWord : (if q % 2 = 1 then setField (field v 0 9) 2 1 0
      else if decide (q % 2 = 0) && !subEnabled s q && !subEnabled s (q + 1) then field v 0 9
      else setField (field v 0 9) 2 1 (field (netCtrl s q) 2 1)) = netCtrlWord s q v := by
    split_ifs with hOdd hFree
    · exact (netCtrlWord_odd hOdd).symm
    · simp only [Bool.and_eq_true, decide_eq_true_eq, Bool.not_eq_true'] at hFree
      exact (netCtrlWord_free hFree.1.1 hFree.1.2 hFree.2).symm
    · have hEven : q % 2 = 0 := by omega
      refine (netCtrlWord_fixed hEven ?_).symm
      simpa [hEven, imp_iff_not_or] using hFree
  simp only [writeNetCtrl, hWord, bitOf_netCtrlWord (show 0 < 9 by decide) (show 0 ≠ 2 by decide),
    bitOf_netCtrlWord (show 5 < 9 by decide) (show 5 ≠ 2 by decide)]
  rfl

theorem writeNetCtrl_enable : writeNetCtrl q (setField v 0 1 1) s =
    let t := wr s (subBase q) (netCtrlWord s q (setField v 0 1 1))
    if bitOf v 5 then t else unpause q t := by
  have hBit (j : Nat) : bitOf (setField v 0 1 1) j = if j = 0 then true else bitOf v j := bitOf_setField_bit v 0 j true
  simp [writeNetCtrl_eq, hBit]

theorem writeNetCtrl_disable (hOn : subEnabled s q = true) : writeNetCtrl q (setField v 0 1 0) s =
    let t := foldState (keptOn s q) sendBye s
    wr (setSub t q (linkDown (sub t q))) (subBase q) (netCtrlWord s q (setField v 0 1 0)) := by
  have hBit : bitOf (setField v 0 1 0) 0 = false := bitOf_setField_bit v 0 0 false
  simp [writeNetCtrl_eq, hBit, hOn]

theorem writeNetCtrl_stays_off (hOff : subEnabled s q = false) : writeNetCtrl q (setField v 0 1 0) s =
    let t := wr s (subBase q) (netCtrlWord s q (setField v 0 1 0))
    if bitOf v 5 then t else unpause q t := by
  have hBit : bitOf (setField v 0 1 0) 5 = bitOf v 5 := bitOf_setField_bit v 0 5 false
  simp [writeNetCtrl_eq, hBit, hOff]

end Enable

/-! ### Keys (R308) -/

section Keys
variable {s : State} {q v : Nat}

theorem sub_foldState_wr (os : List Nat) (q : Nat) (s : State) : sub (foldState os (fun o a => wr a o 0) s) q = sub s q :=
  foldState_keeps (P := fun a => sub a q = sub s q) (fun _ _ _ h => h) rfl

theorem rd_foldState_wr (os : List Nat) (k : Nat) (s : State) :
    rd (foldState os (fun o a => wr a o 0) s) k = if k ∈ os then 0 else rd s k := by
  induction os generalizing s with
  | nil => rfl
  | cons o os ih =>
    rw [foldState_cons, ih, rd_wr]
    by_cases hHere : k = o <;> simp [hHere]

/-- A sub-port after an INSTALL of a key under the association number, and for the directions, that the command word names. -/
def installKey (v : Nat) (key : List W32) (x : Sub) : Sub :=
  let an := field v 0 2
  let sent := if bitOf v 2 then mins x.keys an key else x.keys
  { x with
    keys := if bitOf v 3 then mins sent (16 + an) key else sent
    txAn := if bitOf v 2 then some an else x.txAn
    rxAn := if bitOf v 3 && !x.rxAn.contains an then x.rxAn ++ [an] else x.rxAn
    pn := if bitOf v 2 then 0 else x.pn
    pnLow := if bitOf v 2 then false else x.pnLow }

theorem sub_writeSakCmd (hInstall : bitOf v 4 = true) :
    sub (writeSakCmd q v s) q = installKey v ((keyRegs q).map (fun o => BitVec.ofNat 32 (rd s o))) (sub s q) := by
  simp only [writeSakCmd, hInstall, Bool.not_true, Bool.false_eq_true, if_false]
  rw [sub_foldState_wr, sub_setSub, if_pos rfl]
  rfl

theorem rd_writeSakCmd_keyRegs (hInstall : bitOf v 4 = true) {o : Nat} (h : o ∈ keyRegs q) : rd (writeSakCmd q v s) o = 0 := by
  simp only [writeSakCmd, hInstall, Bool.not_true, Bool.false_eq_true, if_false]
  rw [rd_foldState_wr, if_pos h]

theorem writeSakCmd_of_noInstall (hNone : bitOf v 4 = false) : writeSakCmd q v s = wr s (subBase q + 0x50) (field v 0 4) := by
  simp only [writeSakCmd, hNone, Bool.not_false, if_true]

theorem exec_sakInstall {p : Fin 4} {v : W32} (hUp : blockUp s (subBase p + 0x50) = true) :
    exec (.sakInstall p v) s = .next (drainAll (writeSakCmd p v.toNat s)) := by
  change execSakInstall p v s = _
  rw [execSakInstall, regWrite_next hUp]

variable {key : List W32} {x : Sub}

/-- The key for sending keeps its place whether or not it is also one for receiving. -/
theorem mfind_installKey_send (hTx : bitOf v 2 = true) : mfind (installKey v key x).keys (field v 0 2) = some key := by
  simp only [installKey, hTx, if_true]
  split_ifs
  · rw [mfind_mins, if_neg (by omega), mfind_mins_same]
  · rw [mfind_mins_same]

theorem mfind_installKey_receive (hRx : bitOf v 3 = true) : mfind (installKey v key x).keys (16 + field v 0 2) = some key := by
  simp only [installKey, hRx, if_true, mfind_mins_same]

theorem mem_rxAn_installKey (hRx : bitOf v 3 = true) (a : Nat) : a ∈ (installKey v key x).rxAn ↔ a = field v 0 2 ∨ a ∈ x.rxAn := by
  by_cases hThere : field v 0 2 ∈ x.rxAn
  · have hSame : (installKey v key x).rxAn = x.rxAn := if_neg (by simp [hThere])
    rw [hSame]
    exact ⟨.inr, fun h => h.elim (fun hNew => hNew ▸ hThere) id⟩
  · have hAdded : (installKey v key x).rxAn = x.rxAn ++ [field v 0 2] := if_pos (by simp [hRx, hThere])
    rw [hAdded, List.mem_append, List.mem_singleton, or_comm]

end Keys

/-! ### Timers (R297, R298) -/

section Timers
variable {s : State} {id : Nat} {n : Node} (hNode : node? s id = some n) (hUp : n.st = .up) (hUnacked : n.unacked ≠ [])
include hNode hUp hUnacked

theorem retransmit_of_spent (hTries : netRetries s ≤ n.tries) : retransmit id s = loseNode id s := by
  simp [retransmit, hNode, hUp, hUnacked, hTries]

theorem retransmit_of_tries (hTries : n.tries < netRetries s) :
    retransmit id s = foldState n.unacked (fun p a => sendPkt a id p) (setNode s id { n with tries := n.tries + 1 }) := by
  simp [retransmit, hNode, hUp, hUnacked, Nat.not_le.mpr hTries]

end Timers

/-- Settles O32, command by command: a register's write rule once its block answers, and the branch of each event whose conditions hold. -/
theorem portCommands : Obligations.PortCommands := by
  refine ⟨?enableOdd, ?enableFree, ?disable, ?installSend, ?linkUp, fun s p => rfl, ?badFrames, ?pause, ?pauseOther, ?hello, ?timers,
    ?enableFixed, ?staysOff, ?noInstall, ?installReceive⟩
  case enableOdd =>
    intro s p v hUp hOdd
    change execSubportEnable p v s = _
    rw [execSubportEnable, regWrite_next hUp, writeNetCtrl_enable, netCtrlWord_odd hOdd]
  case enableFree =>
    intro s p v hUp hEven hOff hPeerOff
    change execSubportEnable p v s = _
    rw [execSubportEnable, regWrite_next hUp, writeNetCtrl_enable, netCtrlWord_free hEven hOff hPeerOff]
  case enableFixed =>
    intro s p v hUp hEven hOn
    change execSubportEnable p v s = _
    rw [execSubportEnable, regWrite_next hUp, writeNetCtrl_enable, netCtrlWord_fixed hEven hOn]
  case disable =>
    intro s p v hUp hOn
    change execSubportDisable p v s = _
    rw [execSubportDisable, regWrite_next hUp, writeNetCtrl_disable hOn, netCtrlWord, hOn]
    rfl
  case staysOff =>
    intro s p v hUp hOff
    have hBreakout : field (setField v.toNat 0 1 0) 2 1 = field v.toNat 2 1 := by
      rw [field_bit, field_bit, show bitOf (setField v.toNat 0 1 0) 2 = bitOf v.toNat 2 from bitOf_setField_bit v.toNat 0 2 false]
    change execSubportDisable p v s = _
    rw [execSubportDisable, regWrite_next hUp, writeNetCtrl_stays_off hOff, netCtrlWord, hOff, hBreakout]
    rcases Nat.mod_two_eq_zero_or_one p.val with h | h <;> simp [h]
  case installSend =>
    intro s p v hUp hInstall hTx
    refine ⟨writeSakCmd p v.toNat s, exec_sakInstall hUp, ?_⟩
    rw [sub_writeSakCmd hInstall]
    exact ⟨if_pos hTx, if_pos hTx, if_pos hTx, mfind_installKey_send hTx, fun o => rd_writeSakCmd_keyRegs hInstall⟩
  case installReceive =>
    intro s p v hUp hInstall hRx
    refine ⟨writeSakCmd p v.toNat s, exec_sakInstall hUp, ?_⟩
    rw [sub_writeSakCmd hInstall]
    have hMem := mem_rxAn_installKey (key := (keyRegs p).map (fun o => BitVec.ofNat 32 (rd s o))) (x := sub s p) hRx
    refine ⟨(hMem _).mpr (.inl rfl), fun a ha => (hMem a).mpr (.inr ha), fun hTx => ?_, mfind_installKey_receive hRx,
      fun o => rd_writeSakCmd_keyRegs hInstall⟩
    exact ⟨if_neg (by simp [hTx]), if_neg (by simp [hTx]), if_neg (by simp [hTx])⟩
  case noInstall =>
    intro s p v hUp hNone
    rw [exec_sakInstall hUp, writeSakCmd_of_noInstall hNone]
  case linkUp =>
    intro s p hOn hExists hReady hLock hXtal hLatched hBar hSafe
    change execSubportLinkUp p s = _
    rw [execSubportLinkUp, if_pos]
    simp [hOn, hExists, hReady, hLock, hXtal, hLatched, hBar, hSafe]
  case badFrames =>
    intro s p hReceives
    have hRow (why : BadFrame) : exec (.invalidFrameReceived p why) s = execInvalidFrameReceived p why s := rfl
    simp only [hRow, execInvalidFrameReceived, hReceives, Bool.not_true, Bool.false_eq_true, if_false, true_and]
    intro src
    rw [frameViol, if_pos rfl, Nat.add_zero]
  case pause =>
    intro s p pri hReceives hPfc hPri
    have hRow (pause : Bool) : exec (.pfcFrameReceived p ⟨pri, pause⟩) s = execPfcFrameReceived p ⟨pri, pause⟩ s := rfl
    simp only [hRow, execPfcFrameReceived, hReceives, hPfc, hPri, Bool.and_self, beq_self_eq_true, if_true, true_and]
    rfl
  case pauseOther =>
    intro s p pri pause hOther
    change execPfcFrameReceived p ⟨pri, pause⟩ s = _
    rw [execPfcFrameReceived, if_neg]
    rcases hOther with h | h <;> simp [h]
  case hello =>
    intro s hSafe
    change execHelloTimer s = _
    rw [execHelloTimer, hSafe]
    rfl
  case timers =>
    intro s id n hNode hUp hSafe
    have hRow : exec (.retransmissionTimeout id) s = .next (retransmit id.toNat s) := by
      change execRetransmissionTimeout id s = _
      rw [execRetransmissionTimeout, hSafe]
      rfl
    refine ⟨?_, fun hUnacked hTries => ?_, fun hUnacked hTries => ?_⟩
    · change execPeerTimeout id s = _
      simp [execPeerTimeout, hNode, hUp, hSafe]
    · rw [hRow, retransmit_of_spent hNode hUp hUnacked hTries]
    · rw [hRow, retransmit_of_tries hNode hUp hUnacked hTries]

end Sys2Proof.Machine
end

section
/-! SUPPORT. Each command and the parts of the state that it keeps (O46, O48, O49). -/

set_option Elab.async false

namespace Sys2Proof.Machine

variable {s t : State}

/-- The commands that may write the security block: module resets and start-ups, the boot ROM, trips of monitors and comparators, the rows
of the security block, SPDM requests, and a write of any register. -/
def writesSec : Instr → Bool
  | .perstAssert | .perstDeassert .. | .hotReset | .linkDisable | .dlDown | .safeExit | .mainPowerLoss | .mainPowerUp .. | .thermalTrip
  | .dormantExit _ | .bootImageLoaded .. | .feReady => true
  | .xtalTrip | .xtalLpoTrip | .refclkTrip | .iboTrip | .iboReady | .iboStartTimeout | .lockTrip _ | .temperatureMeasurement ..
  | .voltageGlitch | .tamper | .alarmClear .. => true
  | .otpArm _ | .otpGo _ | .otpChangeDone _ | .flashRead _ | .flashProgram _ | .flashErase _ | .flashOpDone | .haboobSeedBurned
  | .doeResponseReady | .registerWrite .. => true
  | _ => false

/-- Every other command goes through its operations alone, whichever of the security block and the safe state is asked to be kept. -/
theorem Kept.execApart {kSec kSafe : Bool} {i : Instr} (hApart : writesSec i = false) (h : Kept ⟨kSec, false, kSafe⟩ s t) :
    KeptBy ⟨kSec, false, kSafe⟩ s (Machine.exec i t) := by
  cases i
  all_goals dsimp only [Machine.exec]
  case perstAssert | perstDeassert | hotReset | linkDisable | dlDown | safeExit | mainPowerLoss | mainPowerUp | thermalTrip | dormantExit |
      bootImageLoaded | feReady | xtalTrip | xtalLpoTrip | refclkTrip | iboTrip | iboReady | iboStartTimeout | lockTrip |
      temperatureMeasurement | voltageGlitch | tamper | alarmClear | otpArm | otpGo | otpChangeDone | flashRead | flashProgram | flashErase
      | flashOpDone | haboobSeedBurned | doeResponseReady | registerWrite =>
    cases hApart
  -- Descriptors of a queue.
  case nop => exact h.descRow fun _ _ _ _ hk => hk.done
  case fenceRegister => exact h.execFenceRegister
  case fenceRelease => exact h.execFenceRelease
  case ctxQuery => exact h.execCtxQuery
  case launch => exact h.execLaunch
  case planLoad => exact h.descRow fun _ _ _ _ hk => .ite hk.failed hk.storePlan
  case planPatch => exact h.execPlanPatch
  case planFree => exact h.execPlanFree
  case planResidency => exact h.execPlanResidency
  case copy => exact h.execCopy
  case fill => exact h.execFill
  case memAlloc => exact h.execMemAlloc
  case memFree => exact h.execMemFree
  case memMap => exact h.execMemMap
  case memUnmap => exact h.execMemUnmap
  case migrate => exact h.execMigrate
  case advise => exact h.execAdvise
  case dispCommit => exact h.execDispCommit
  case commitValidationDone => exact h.execCommitValidationDone
  case mediaDecode => exact h.execMediaDecode
  case mediaEncode => exact h.execMediaEncode
  case nodeSet => exact h.execNodeSet
  case nodeClear => exact h.execNodeClear
  case nodeQuery => exact h.execNodeQuery
  case exportRange => exact h.execExportRange
  case unexportRange => exact h.caravanRow fun _ _ _ _ hk => .ite hk.failed (.done hk.set)
  case qpCreate => exact h.execQpCreate
  case qpDestroy => exact h.execQpDestroy
  case roceSend | roceWrite | roceRead | roceRecv => exact h.roceRow
  case ctxCreate => exact h.execCtxCreate
  case ctxDestroy => exact h.descRow fun _ _ _ _ hk => .ite hk.failed hk.destroyCtx.done
  case queueCreate => exact h.execQueueCreate
  case queueDestroy => exact h.execQueueDestroy
  -- Rings, waits and launches.
  case kick =>
    exact .ite (.next h.putCells) <| .ite (.next h.putCells.logViol) <| .ite (.next (.ite h.putCells.kickQueue h.putCells.logViol)) <|
      .ite (.next h.putCells.kickQueue) (.next h.putCells.logViol)
  case sweep =>
    exact .ite (.next h.putCells) (.next (.set (.fold (h.putCells.fold fun _ _ hk => hk.sweepQueue) fun _ _ hk => hk.readDoorbell)))
  case descriptorRead => exact .next h.readNext
  case descriptorHead => exact .next h.headArrives
  case descriptorRelease => exact h.execDescriptorRelease
  case waitReevaluation => exact .ite (.next h) (.next h.wakeFence)
  case waitTimeout => exact h.execWaitTimeout
  case descriptorComplete => exact .ite (.next h.completeDesc.settleStacks.takeAll) (.next h)
  case irqModerationTimeout => exact h.execIrqModerationTimeout
  case lcStart => exact h.execLcStart
  case beStart => exact .ite (.next h) (.next (.fold (h.fold fun _ _ hk => hk.tryBe) fun _ _ hk => hk.tryDisplace))
  case beSliceExpiry => exact h.execBeSliceExpiry
  case slipPoint => exact h.execSlipPoint
  case saveComplete => exact h.execSaveComplete
  case restore => exact h.execRestore
  case stepEnd => exact h.execStepEnd
  case crossModuleStepStart => exact h.execCrossModuleStepStart
  case stepOverrun => exact h.execStepOverrun
  case hardStop => exact h.execHardStop
  -- Regions and the admin registers.
  case drainRegion => exact h.regWrite fun _ hk => hk.drainRegion
  case forceRegion => exact h.regWrite fun _ hk => hk.forceOut
  case returnRegion => exact h.regWrite fun _ hk => hk.returnRegion
  case regionSelfTestDone =>
    exact .ite (.next h) <| .ite (.next h.setRgnState.barStarted) (.next (.regionFail (.ite (.faultEvent
      (h.fold fun _ _ hk => hk.faultEvent)) (h.fold fun _ _ hk => hk.faultEvent))))
  case regionNap => exact .ite (.next h) (.next (.setMap (.set (.fold (h.rgnFlush.fold fun _ _ hk => hk.set) fun _ _ hk => hk.set))))
  case napExit => exact .ite (.next h) (.next (.setMap h.set))
  case regionGroupsWrite => exact h.regWrite fun _ hk => hk.writeGroups
  case lcEnableWrite => exact h.regWrite fun _ hk => hk.writeAdmCtrl
  case resCtrlWrite => exact h.regWrite fun _ hk => hk.writeResCtrl
  case capWrite => exact h.regWrite fun _ hk => hk.writeCap
  -- Rows of a core.
  case ctrlNop | valuSel | valuShfl | valuBcast | vcvtCvt | vcvtCvtmx => exact h.lgRow
  case ctrlBr => exact h.coreRow fun _ hk => .ite (.ite hk.coreAbort hk.setLg) hk.setLg
  case ctrlBar => exact h.coreRow fun _ hk => .ite hk hk.setLg.set
  case ctrlSlip => exact h.coreRow fun _ hk => hk.setLg
  case ctrlEnd => exact h.coreRow fun _ hk => .set (.setLg hk.closeVertex.set)
  case scalarSmov | scalarSadd | scalarSsub | scalarSmul | scalarSand | scalarSor | scalarSxor | scalarSnot | scalarSshl | scalarSshr |
      scalarSsar | scalarScmp | scalarSucmp =>
    exact h.scalarRow
  case valuFadd | valuFsub | valuFmul | valuFfma | valuFmin | valuFmax | valuFabs | valuFneg | valuHadd2 | valuHmul2 | valuHfma2 |
      valuBadd2 | valuBmul2 | valuBfma2 | valuHmin2 | valuHmax2 | valuIadd4 | valuIsub4 | valuIadds4 | valuIsubs4 | valuIdot4 | valuMov =>
    exact h.valuRow
  case valuFcmp | valuIcmp | valuUcmp => exact h.predRow
  case valuIadd | valuIsub | valuImul | valuImulhi | valuImulhu | valuIadds | valuIsubs | valuShl | valuShr | valuSar | valuAnd | valuOr |
      valuXor | valuNot =>
    exact h.intRow
  case vfuncRcp | vfuncSqrt | vfuncRsq | vfuncExp2 | vfuncLog2 | vfuncSinpi | vfuncCospi | vfuncTanh | vfuncSigm => exact h.vfuncRow
  case tsLd => exact h.execTsLd
  case tsSt => exact h.execTsSt
  case matMma | accClear | accLoad => exact h.coreRow fun _ hk => hk.queueMat
  case accStore => exact h.coreRow fun _ hk => .ite hk (.setLg hk.set)
  case semSig => exact h.coreRow fun _ hk => .ite hk (.ite hk.coreAbort (.serveSem (.setLg hk.set)))
  case semWait => exact h.coreRow fun _ hk => .ite (.setLg hk.set) (.setLg hk.set)
  case semTry => exact h.coreRow fun _ hk => .setLg (.ite hk.set hk)
  case unpLd | unpSt | unpLfill => exact h.unpRow fun _ _ _ _ _ hk => hk.fold fun _ _ hk2 => hk2.makeAcc
  case unpAtomAdd | unpAtomFadd | unpAtomSmin | unpAtomSmax | unpAtomUmin | unpAtomUmax | unpAtomAnd | unpAtomOr | unpAtomXor |
      unpAtomExch | unpAtomCas =>
    exact h.atomRow
  case unpWb => exact h.unpRow fun _ _ _ _ _ hk => hk.fold fun _ _ hk2 => hk2.cleanLine
  case unpInv => exact h.unpRow fun _ _ _ _ _ hk => hk.fold fun _ _ hk2 => hk2.invLine
  case xferStart => exact h.execXferStart
  case xferWait => exact h.coreRow fun _ hk => .ite hk.setLg hk
  case gfxNext => exact h.execGfxNext
  case gfxVout => exact h.itemRow fun _ _ _ _ hk => hk.setGeo.setLg
  case gfxAttr | gfxFout | gfxKill => exact h.itemRow fun _ _ _ _ hk => hk.setLg
  case gfxSample | gfxUsample => exact h.itemRow fun _ _ _ _ hk => hk.sampleLanes
  case gfxTwait => exact h.itemRow fun _ _ _ _ hk => .ite hk.setLg hk.setLg
  -- Events of the cores, the cluster data cache and tile rendering.
  case autoTransferStart => exact h.execAutoTransferStart
  case transferComplete => exact h.execTransferComplete
  case cdcMissComplete => exact h.execCdcMissComplete
  case evictionWriteComplete => exact h.execEvictionWriteComplete
  case passStart => exact .next h.startGeo.startPass
  case binPoolFull => exact h.execBinPoolFull
  case tileStagingDone => exact h.execTileStagingDone
  case fragmentBlended => exact h.execFragmentBlended
  case tileWriteOutDone => exact h.execTileWriteOutDone
  -- Translation and device memory.
  case atsInvalidate => exact .next (.ite (.fold h.set fun _ _ hk => hk.contextWalk) (.set (.fold h.set fun _ _ hk => hk.contextWalk)))
  case pageRequestResponse => exact h.execPageRequestResponse
  case pageRequestTimeout => exact h.execPageRequestTimeout
  case priEnableWrite => exact .next (.ite h.set h.set)
  case frameScrubbed => exact .ite (.next h) (.next (.settleStacks (.countHub (.set h.zeroFrame))))
  case memCorrectedError => exact .ite (.next h) (.next (.faultEvent h.set))
  case memUncorrectableError => exact h.execMemUncorrectableError
  case stackFailure => exact .next (.ite h h.failStack)
  case mirrorRebuildDone => exact .ite (.next h) <| .ite (.next h.set) (.next (.set (h.fold fun _ _ hk => hk.set)))
  -- Faults and accounting.
  case ltaError => exact .next (.ite h.faultEvent h.faultEvent)
  case coreEccError => exact h.execCoreEccError
  case cdcParityError => exact h.execCdcParityError
  case unitHardwareFault => exact h.execUnitHardwareFault
  case faultHandlingEnd => exact h.execFaultHandlingEnd
  case collectorSelfFault => exact .next (.set (.ite h.faultEvent h.enterSafe.signalFault))
  case fltAckWrite => exact h.regWrite fun _ hk => hk.writeFltAck
  case acctModeWrite => exact h.regWrite fun _ hk => hk.writeAcctMode
  case acctClear => exact h.regWrite fun _ hk => hk.set
  case energySample => exact .next (.ite (.capWatch h.set) (.set (.capWatch h.set)))
  -- Resets, start-up and power states.
  case linkTrained => exact .ite (.next h) (.next (.sendTripIrq (.setMap h.set)))
  case stackTrainingDone =>
    exact .ite (.next h) <| .ite (.next (.placeReserved (.setMap h.set))) (.next (.placeReserved (.setMap (.set (.faultEvent h.set)))))
  case unitReady => exact h.execUnitReady
  case vfFlr => exact .ite (.next h) (.next (.flrDone h.resetFns.set))
  case pfFlr => exact .ite (.next h) (.next (.flrDone (h.resetFns.resetFields.fold fun _ _ hk => hk.set)))
  case vfEnableClear => exact .ite (.next h) (.next (.flrDone (.set (h.resetFns.fold fun _ _ hk => hk.set))))
  case d3hotEntry => exact .ite (.next h) (.next (.clearUnitBits (.sleepRest (.cisternSave h.endAllForSleep.sleepRegions.set))))
  case stackReady => exact .ite (.next h) <| .ite (.next (.set (.setMap h.set))) (.next (.faultEvent (.setMap h.set)))
  -- The host link.
  case busMasterEnableSet => exact .ite (.next h) (.next h.resizeBar4.writeCommand.resumeFn)
  case busMasterEnableClear => exact .ite (.next h) (.next h.resizeBar4.writeCommand)
  case msixEnable => exact .ite (.next h) (.next (.firePending h.set))
  case msixTableWrite => exact .ite (.next h) (.next h.writeMsix)
  case aspmL1Entry => exact .ite (.next h.set) (.next h)
  case doeDiscovery | ideKmMessage => exact h.doeRequest
  case doeAbort | subportLinkDown | stackTemperature85c => exact .next h.set
  case getVersion | getCapabilities | negotiateAlgorithms | getDigests | getCertificate | challenge | getMeasurements | keyExchange |
      finish | heartbeat | keyUpdate | endSession =>
    exact h.spdm
  case mctpControlMessage | pldmMonitoringRequest | blowerStall => exact .next (.ite h.set h)
  case malformedTlp | poisonedWrite | unexpectedCompletion => exact .next (.ite h.pcieEvent h)
  case unsupportedRequest => exact .next (.ite h.pcieEvent.set h)
  case poisonedCompletion | errorCompletion | completionTimeout => exact .next (.ite h.readError h)
  case ideCheckFailed => exact .ite (.next h) (.next (.ite (.fold (.logViol h.set) fun _ _ hk => hk.failRead) (.logViol h.set)))
  case unalignedBar0Access => exact .ite (.next h) <| .ite (.next h) (.next (.ite h.badAccess h.badAccess.set))
  case bar4Read => exact h.execBar4Read
  case bar4Write => exact .ite (.next h) (.next h.bar4Put)
  case adminCtrlWrite => exact h.regWrite fun _ hk => hk.writeAdminCtrl
  -- The display.
  case headEnable | headDisable | retrain => exact h.regWrite fun _ hk => hk.writeDispCtrl
  case timingWrite => exact .ite (h.regWrite fun _ hk => hk.writeTiming) (.next h)
  case linkTrainingComplete => exact .ite (.next h) <| .ite (.next h.set) <| .ite (.next h.set) (.next (.sinkEvent h.set))
  case auxRequest => exact h.regWrite fun _ hk => hk.writeAux
  case auxComplete => exact h.execAuxComplete
  case hpdLow | hpdRise => exact .ite (.next h) (.next h.hpdChange)
  case irqHpd => exact .ite (.next h) <| .ite (.next (.sinkEvent h.set)) (.next (.sinkEvent h.set))
  case frameStart => exact .ite (.next h) (.next (.set (.countFetch (.fetchLayers h.set))))
  case vblankStart => exact h.execVblankStart
  case writebackDone => exact h.execWritebackDone
  case signatureLatch => exact h.execSignatureLatch
  -- The caravan.
  case subportEnable => exact h.regWrite fun _ hk => hk.writeNetCtrl.drainAll
  case subportDisable => exact h.regWrite fun _ hk => hk.writeNetCtrl
  case sakInstall => exact h.regWrite fun _ hk => hk.writeSakCmd.drainAll
  case qanatData | qanatReadReq | qanatReadResp | qanatAck | qanatNak | qanatHello | qanatBye => exact h.receiveAs
  case qanatTransit => exact .next (.ite h h.receive)
  case retransmissionTimeout => exact .next (.ite h h.retransmit)
  case helloTimer => exact .next (.ite h (h.fold fun _ _ hk => hk.sendHello))
  case peerTimeout => exact h.execPeerTimeout
  case roceRequestReceived => exact h.execRoceRequestReceived
  case roceResponseReceived => exact h.execRoceResponseReceived
  case roceRetryTimeout => exact h.execRoceRetryTimeout
  case cnpReceived => exact .ite (.next h.badFrame) (.next h)
  -- Clocks.
  case pllRelock => exact .ite (.next h) (.next (.ite (.restartHead h.set) h.set))
  case pllRelockTimeout =>
    exact .ite (.next h) <| .ite (.next (.ite h h.faultEvent.failHead)) <| .ite (.next (.ite h.faultEvent.failPort h)) (.next h)
  case clockSwitch => exact h.regWrite fun _ hk => hk.writeClkSrc
  case coreCtrlWrite => exact h.regWrite fun _ hk => hk.writeCoreCtrl
  case fabCtrlWrite => exact h.regWrite fun _ hk => hk.writeFabCtrl
  case feCtrlWrite => exact h.regWrite fun _ hk => hk.writeFeCtrl
  -- Heat, Oasis and the security block.
  case thermalLimitReached =>
    exact .ite (.next h) <| .ite (.next (.setBlower h.setJunction.set)) (.next (.watchHeat (.lowerDie (.set
      (.setBlower h.setJunction.set)))))
  case thermalLimitCleared => exact .ite (.next h) (.next (.setBlower (.retarget (.set h.setJunction.set))))
  case thermalEmergencyEnd => exact .next h.endEmergency
  case pwrbrkNLow | inputOvercurrent => exact .next (.ite h.engageBrake h)
  case brakeRelease => exact .ite (.next h) (.next (.fold (.endEmergency h.set) fun _ _ hk => hk.retarget))
  case auxBelowThreshold =>
    exact .ite (.next h) (.next (.ite (.setOas (.ite h (.ite (.faultEvent h.setOas) h.setOas))) (.ite h (.ite
      (.faultEvent h.setOas) h.setOas))))
  case lpoCalUpdate => exact .ite (.next h) (.next h.setOas)
  case cmpArm => exact h.regWrite fun _ hk => hk.writeCmpHi
  case compareFire => exact .next (.ite h.checkCmp h)
  case clkTripClear => exact h.regWrite fun _ hk => hk.writeOasEvent
  case padRelease => exact h.regWrite fun _ hk => hk.writePad
  case readyCopyWrite => exact h.regWrite fun _ hk => hk.writeReadyCopy
  case auxPowerUp => exact .next (.ite h h.setOas)
  case xtal25Restart =>
    exact .ite (.next h) <| .ite (.next h.set) (.next (.fold (.fold (.fold h.set fun _ _ hk => hk.set) fun _ _ hk => .ite hk.set hk) fun _
      _ hk => .ite hk (.restartHead hk.set)))
  case matrixOpComplete => exact h.execMatrixOpComplete
  case batchBinned => exact h.execBatchBinned
  case modelLoadComplete => exact h.execModelLoadComplete
  case atsTranslationCompletion => exact h.execAtsTranslationCompletion
  case subportLinkUp => exact .ite (.next (.drainAll h.set)) (.next h)
  case invalidFrameReceived => exact h.execInvalidFrameReceived
  case pfcFrameReceived => exact .ite (.next (.ite h.set h.unpause.drainAll)) (.next h)
  case osfpModuleInsertion => exact .ite (.next h.set) <| .ite (.next (.setMap (.fold h.set fun _ _ hk => hk.set))) (.next (.setMap h.set))
  case uartConsoleInput => exact .ite (.next h) (.next h.set)

end Sys2Proof.Machine
end

section
/-! SUPPORT. Every step keeps the fuse ledger and its seeds, and only a module reset leaves the safe state (O48, O49).

`Guarded` speaks of the whole way from `s` to `t` as `Kept` does, and its lemmas are read the same way: from `h : Guarded kSafe s t` follows
`h.f : Guarded kSafe s (f t)` for each operation `f` that writes the security block. An operation that keeps the security block goes on by
`h.of` and its `Kept` lemma. -/

set_option Elab.async false

namespace Sys2Proof.Machine

/-- From fuses `o` to fuses `p` the ledger stays within its 160 entries and is not shortened, the seed slots stay as many, and a destroyed
seed stays destroyed. -/
structure OtpKept (o p : Otp) : Prop where
  fits : o.ledger.length ≤ 160 → p.ledger.length ≤ 160
  grows : o.ledger.length ≤ p.ledger.length
  slots : p.seeds.length = o.seeds.length
  destroyed : ∀ k : Nat, o.seeds.getD k .empty = .destroyed → p.seeds.getD k .empty = .destroyed

/-- From `s` to `t` the fuses are kept, and with `kSafe` the safe state is not left. -/
structure Guarded (kSafe : Bool) (s t : State) : Prop where
  otp : OtpKept s.sec.otp t.sec.otp
  safe : kSafe = true → s.flt.safe = true → t.flt.safe = true

/-- The state that a meaning answers, where it answers one. -/
def GuardedBy (kSafe : Bool) (s : State) (r : Result) : Prop := ∀ t, r = .next t → Guarded kSafe s t

variable {kSafe : Bool} {s t u : State} {o p q : Otp}

/-! ### Fuses -/

theorem OtpKept.refl (o : Otp) : OtpKept o o := ⟨id, le_rfl, rfl, fun _ => id⟩

theorem OtpKept.trans (h : OtpKept o p) (k : OtpKept p q) : OtpKept o q :=
  ⟨fun x => k.fits (h.fits x), h.grows.trans k.grows, k.slots.trans h.slots, fun n x => k.destroyed n (h.destroyed n x)⟩

theorem OtpKept.of_length (hLedger : p.ledger.length = o.ledger.length) (hSeeds : p.seeds = o.seeds) : OtpKept o p :=
  ⟨fun h => hLedger.trans_le h, hLedger.ge, by rw [hSeeds], fun _ h => hSeeds ▸ h⟩

@[simp] theorem getD_set_seed (xs : List SeedState) (k n : Nat) (x : SeedState) :
    (xs.set k x).getD n .empty = if k = n ∧ n < xs.length then x else xs.getD n .empty := by
  simp only [List.getD_eq_getElem?_getD, List.getElem?_set]
  split_ifs <;> simp_all

/-- A slot is set that is not destroyed, or is set to destroyed. -/
theorem OtpKept.setSeed {k : Nat} {x : SeedState} (h : o.seeds.getD k .empty = .destroyed → x = .destroyed) :
    OtpKept o { o with seeds := o.seeds.set k x } := by
  refine ⟨id, le_rfl, List.length_set, fun n hn => ?_⟩
  rw [getD_set_seed]
  split
  case isTrue hk => exact h (hk.1 ▸ hn)
  case isFalse => exact hn

@[simp] theorem setOtp_ledger (code v : Nat) (s : State) : (setOtp code v s).sec.otp.ledger = s.sec.otp.ledger := by
  unfold setOtp
  dsimp only
  split_ifs <;> rfl

@[simp] theorem setOtp_seeds (code v : Nat) (s : State) : (setOtp code v s).sec.otp.seeds = s.sec.otp.seeds := by
  unfold setOtp
  dsimp only
  split_ifs <;> rfl

/-! ### Going on with an operation -/

theorem Guarded.refl (s : State) : Guarded kSafe s s := ⟨.refl _, fun _ => id⟩

/-- Going on with an operation that keeps the security block and the safe state. -/
theorem Guarded.of (h : Guarded kSafe s t) (k : Kept ⟨true, false, true⟩ t u) : Guarded kSafe s u :=
  ⟨k.sec rfl ▸ h.otp, fun p w => k.safe rfl (h.safe p w)⟩

/-- Going on with an operation that burns fuses. -/
theorem Guarded.burn (h : Guarded kSafe s t) (k : OtpKept t.sec.otp u.sec.otp) (hSafe : u.flt.safe = t.flt.safe := by rfl) :
    Guarded kSafe s u :=
  ⟨h.otp.trans k, fun p w => hSafe.trans (h.safe p w)⟩

/-- Going on with an update that leaves the fuses and the collector. -/
theorem Guarded.same (h : Guarded kSafe s t) (hOtp : u.sec.otp = t.sec.otp := by rfl) (hSafe : u.flt.safe = t.flt.safe := by rfl) :
    Guarded kSafe s u :=
  h.burn (hOtp ▸ .refl _) hSafe

theorem Guarded.ite {c : Prop} {_ : Decidable c} (h : Guarded kSafe s t) (k : Guarded kSafe s u) : Guarded kSafe s (if c then t else u) := by
  split
  · exact h
  · exact k

theorem Guarded.fold {α : Type} {xs : List α} {f : α → State → State} (h : Guarded kSafe s t)
    (hf : ∀ x ∈ xs, ∀ a, Guarded kSafe s a → Guarded kSafe s (f x a)) : Guarded kSafe s (foldState xs f t) :=
  foldState_keeps (fun x hx a ha => hf x hx a ha) h

theorem GuardedBy.next (h : Guarded kSafe s t) : GuardedBy kSafe s (.next t) := by
  intro u e
  injection e with e
  exact e ▸ h

theorem GuardedBy.ite {c : Prop} {_ : Decidable c} {q r : Result} (h : GuardedBy kSafe s q) (k : GuardedBy kSafe s r) :
    GuardedBy kSafe s (if c then q else r) := by
  split
  · exact h
  · exact k

theorem Guarded.regWrite {off : Nat} {eff : State → State} (h : Guarded kSafe s t) (heff : Guarded kSafe s (eff t)) :
    GuardedBy kSafe s (Machine.regWrite off eff t) :=
  .next (.ite heff (h.of (.badAccess (.refl _))))

/-! ### Flash, the fuse ledger and the seeds (R378 to R391) -/

theorem Guarded.setFlash {a : Nat} {bs : List Byte} (h : Guarded kSafe s t) : Guarded kSafe s (Machine.setFlash a bs t) := h.same

theorem Guarded.cutFlash (h : Guarded kSafe s t) : Guarded kSafe s (Machine.cutFlash t) := by
  unfold Machine.cutFlash
  split
  · exact h
  · exact h.same

theorem Guarded.disarm (h : Guarded kSafe s t) : Guarded kSafe s (Machine.disarm t) := h.same

theorem Guarded.writeFlashCmd {v : Nat} (h : Guarded kSafe s t) : Guarded kSafe s (Machine.writeFlashCmd v t) :=
  .ite (.ite (.of h.same (.regRefused (.refl _))) h.same) h.same

theorem Guarded.execFlashOpDone (h : Guarded kSafe s t) : GuardedBy kSafe s (Machine.execFlashOpDone t) := by
  unfold Machine.execFlashOpDone
  split
  · exact .next h
  · exact .ite (.next h.same) <| .ite (.next (.setFlash h.same)) (.next (.setFlash h.same))

theorem Guarded.setOtp {code v : Nat} (h : Guarded kSafe s t) : Guarded kSafe s (Machine.setOtp code v t) :=
  h.burn (.of_length (by rw [setOtp_ledger]) (setOtp_seeds ..))

theorem Guarded.addLedger {e : LedgerEntry} (h : Guarded kSafe s t) : Guarded kSafe s (Machine.addLedger e t) := by
  unfold Machine.addLedger
  split
  next hRoom =>
    refine h.burn ⟨fun _ => ?_, ?_, rfl, fun _ => id⟩
    · simpa using hRoom
    · simp
  · exact h

theorem Guarded.completeEntries (h : Guarded kSafe s t) : Guarded kSafe s (Machine.completeEntries t) :=
  h.burn (.of_length (by simp [Machine.completeEntries]) rfl)

theorem Guarded.onOpenEntry {setting : Nat} {f : LedgerEntry → LedgerEntry} (h : Guarded kSafe s t) :
    Guarded kSafe s (Machine.onOpenEntry setting f t) := by
  unfold Machine.onOpenEntry
  dsimp only
  split
  · exact h.burn (.of_length (List.length_modify ..) rfl)
  · exact h

theorem Guarded.otpDoGo {v : Nat} (h : Guarded kSafe s t) : Guarded kSafe s (Machine.otpDoGo v t) :=
  .ite (.of (.ite h.same h.same) (.logViol (.refl _)))
    (.burn (.addLedger (t := Machine.wr (Machine.disarm t) _ _) h.same) (.of_length rfl rfl))

theorem Guarded.writeOtpCmd {v : Nat} (h : Guarded kSafe s t) : Guarded kSafe s (Machine.writeOtpCmd v t) :=
  .ite h.same <| .ite h.otpDoGo <| .ite h.same h.same

theorem Guarded.execOtpChangeDone {verified : Nat} (h : Guarded kSafe s t) : GuardedBy kSafe s (Machine.execOtpChangeDone verified t) := by
  unfold Machine.execOtpChangeDone
  split
  · exact .next h
  · refine .ite (.next h) ?_
    dsimp only
    split
    · exact .next (.same h.setOtp.onOpenEntry)
    · exact .next (.of (.same h.setOtp.onOpenEntry) (.faultEvent (.refl _)))

theorem Guarded.cutChange (h : Guarded kSafe s t) : Guarded kSafe s (Machine.cutChange t) := by
  unfold Machine.cutChange
  split
  · exact h
  · exact .same (.onOpenEntry (.setOtp (t := t.tickFree) h.same))

theorem Guarded.destroySeed (h : Guarded kSafe s t) : Guarded kSafe s (Machine.destroySeed t) := by
  unfold Machine.destroySeed
  split
  · exact h.burn (.setSeed fun _ => rfl)
  · exact h

theorem Guarded.cutHaboob (h : Guarded kSafe s t) : Guarded kSafe s (Machine.cutHaboob t) :=
  .ite h (.same (.ite h.destroySeed.onOpenEntry h))

theorem Guarded.drawSeed (h : Guarded kSafe s t) : Guarded kSafe s (Machine.drawSeed t) := by
  unfold Machine.drawSeed
  split
  next k hFree =>
    have hEmpty : t.sec.otp.seeds.getD k .empty = .empty := by simpa using List.find?_some hFree
    refine .fold (.addLedger (h.burn (.setSeed fun hDestroyed => ?_))) fun _ _ _ hk => hk.setFlash
    exact nomatch hEmpty.symm.trans hDestroyed
  · exact h

/-! ### Alarms (R393 to R395) -/

theorem Guarded.eraseAll (h : Guarded kSafe s t) : Guarded kSafe s (Machine.eraseAll t) := by
  have hKeys : Guarded kSafe s (Machine.eraseKeys t) :=
    .same (h.of (.fold (xs := (List.range 4).flatMap keyRegs) (f := fun o a => Machine.wr a o 0) (.refl _) fun _ _ hk => hk.wr))
  exact .ite hKeys (hKeys.of (.fold (.refl _) fun _ _ hk => hk.destroyCtx))

theorem Guarded.alarmEvent (h : Guarded kSafe s t) : Guarded kSafe s (Machine.alarmEvent t) := h.of (.alarmEvent (.refl _))

theorem Guarded.setAction {a : Nat} (h : Guarded kSafe s t) : Guarded kSafe s (Machine.setAction a t) := h.same

theorem Guarded.startHaboob (h : Guarded kSafe s t) : Guarded kSafe s (Machine.startHaboob t) := by
  unfold Machine.startHaboob
  dsimp only
  split
  · exact .same h.addLedger
  · exact h.same

theorem Guarded.runAction {bit : Nat} (h : Guarded kSafe s t) : Guarded kSafe s (Machine.runAction bit t) :=
  .ite h.alarmEvent <| .ite h.cutChange.setAction.alarmEvent <| .ite h.cutChange.setAction.eraseAll.alarmEvent
    h.cutChange.setAction.eraseAll.startHaboob

theorem Guarded.raiseAlarm {bit : Nat} (h : Guarded kSafe s t) : Guarded kSafe s (Machine.raiseAlarm bit t) :=
  .ite h.same (.runAction h.same)

/-! ### Resets, start-up and trips (R34, R351, R354, R373, R405) -/

theorem Guarded.moduleReset {lost : Bool} (h : Guarded false s t) : Guarded false s (Machine.moduleReset lost t) :=
  ⟨h.cutFlash.cutChange.cutHaboob.otp, nofun⟩

theorem Guarded.tamperAtStart (h : Guarded kSafe s t) : Guarded kSafe s (Machine.tamperAtStart t) :=
  .ite h <| .ite (.raiseAlarm (t := t.tickFree) h.same) h.same

theorem Guarded.startUp (h : Guarded kSafe s t) : Guarded kSafe s (Machine.startUp t) := by
  have hTamper : Guarded kSafe s (Machine.tamperAtStart (Machine.completeEntries { t with pwr := { t.pwr with dev := .starting } })) :=
    .tamperAtStart (.completeEntries h.same)
  exact .ite (hTamper.of (.setMap (.setMap (.refl _)))) (hTamper.of (.setBlower (.checkSupply (.lockAll (.cisternRestore (.refl _))))))

theorem Guarded.resetStart (h : Guarded false s t) : Guarded false s (Machine.resetStart t) := h.moduleReset.startUp

theorem Guarded.enterOasis (h : Guarded false s t) : Guarded false s (Machine.enterOasis t) := .same (h.moduleReset (lost := true))

theorem Guarded.powerLoss (h : Guarded false s t) : Guarded false s (Machine.powerLoss t) := .ite h.same (.enterOasis h.same)

theorem Guarded.safeExitBit {v : Nat} (h : Guarded false s t) : Guarded false s (Machine.safeExitBit v t) :=
  .ite h.resetStart (h.of (.regRefused (.refl _)))

theorem Guarded.tripLatch {bit : Nat} (h : Guarded kSafe s t) : Guarded kSafe s (Machine.tripLatch bit t) := h.same

theorem Guarded.tripRecord {unit : Nat} {severe : Bool} (h : Guarded kSafe s t) : Guarded kSafe s (Machine.tripRecord unit severe t) :=
  .ite (.raiseAlarm (h.of (.faultEvent (.refl _)))) (h.of (.faultEvent (.refl _)))

/-- A trip of PCIE_CLK alone is answered by a module reset. -/
theorem Guarded.answerTrip {a : TripAnswer} (hKind : kSafe = true → a.kind ≠ .pcie) (h : Guarded kSafe s t) :
    Guarded kSafe s (Machine.answerTrip a t) := by
  unfold Machine.answerTrip
  dsimp only
  split
  · exact h.tripRecord.of (.beginEmergency (.refl _))
  · exact h.tripRecord.of (.stopAllUnits (.beginEmergency (.refl _)))
  next hPcie =>
    obtain rfl : kSafe = false := Bool.eq_false_iff.mpr fun hk => hKind hk hPcie
    exact h.tripRecord.resetStart

theorem Guarded.oasisSafe (h : Guarded kSafe s t) : Guarded kSafe s (Machine.oasisSafe t) := by
  have hSafe : Guarded kSafe s (if t.flt.safe then t else { Machine.enterSafe t with clk := { (Machine.enterSafe t).clk with owed := true } }) :=
    .ite h (.same (h.of (.enterSafe (.refl _))))
  have hRecords : Guarded kSafe s (Machine.faultEvent (foldState t.clk.answers (fun a b => Machine.tripRecord a.unit a.severe b)
      { t with clk := { t.clk with answers := [] } }) 3 8 t.clk.waitUnit 2 noCtx 0) :=
    .of (.fold h.same fun _ _ _ hk => hk.tripRecord) (.faultEvent (.refl _))
  exact .ite (.same (.ite hSafe hRecords)) (.ite hSafe hRecords)

theorem Guarded.fallBack {a : TripAnswer} (hKind : kSafe = true → a.kind ≠ .pcie) (h : Guarded kSafe s t) :
    Guarded kSafe s (Machine.fallBack a t) := by
  have hStopped (ds : List Nat) : Guarded kSafe s (foldState ds Machine.stopDomain { t with
      oas := { t.oas with iboStarting := true }
      clk := { t.clk with waitUnit := a.unit, answers := t.clk.answers ++ [a] } }) :=
    .fold h.same fun _ _ _ hk => hk.of (.stopDomain (.refl _))
  exact .ite (h.answerTrip hKind) <| .ite (.answerTrip hKind (.fold h fun _ _ _ hk => hk.of (.setSrc (.refl _)))) <|
    .ite (hStopped _).oasisSafe (hStopped _)

theorem Guarded.sendTripIrq (h : Guarded kSafe s t) : Guarded kSafe s (Machine.sendTripIrq t) := h.of (.sendTripIrq (.refl _))

theorem Guarded.trip {bit : Nat} {a : TripAnswer} (hKind : kSafe = true → a.kind ≠ .pcie) (h : Guarded kSafe s t) :
    Guarded kSafe s (Machine.trip bit a t) :=
  (h.tripLatch.fallBack hKind).sendTripIrq

theorem Guarded.execBootImageLoaded {readErrA readErrB : Bool} (h : Guarded kSafe s t) :
    GuardedBy kSafe s (Machine.execBootImageLoaded readErrA readErrB t) := by
  unfold Machine.execBootImageLoaded
  split
  · exact .next h
  · dsimp only
    split
    · exact .next (.of h.same (.setMap (.setMap (.bootLog (.refl _)))))
    · exact .next (.of h.same (.bootLog (.refl _)))

theorem Guarded.execDoeResponseReady (h : Guarded kSafe s t) : GuardedBy kSafe s (Machine.execDoeResponseReady t) := by
  unfold Machine.execDoeResponseReady
  split
  · exact .next h
  next r _ =>
    refine .ite (.next h) ?_
    have hAct : Guarded kSafe s (Machine.doeAct r t) := by
      unfold Machine.doeAct
      split
      · exact h
      · exact h.same
      · exact .ite (h.of (.ideKm (.refl _))) h
    exact .next (.ite (.of hAct.same (.raiseIrq (.refl _))) hAct.same)

/-! ### Register writes (R6 to R8, R405, R422) -/

theorem Guarded.writeSecReg {off v : Nat} (h : Guarded kSafe s t) : Guarded kSafe s (Machine.writeSecReg off v t) :=
  .ite h.writeOtpCmd <| .ite h.same <| .ite h.writeFlashCmd <| .ite h.same (h.disarm.of (.writeOther (.refl _)))

/-- A write with SAFE_EXIT, bit 16 of FLT_CTRL, alone may reset the module. -/
theorem Guarded.writeReg {off v : Nat} (hExit : kSafe = true → off = 0x050000 → bitOf v 16 = false) (h : Guarded kSafe s t) :
    Guarded kSafe s (Machine.writeReg off v t) := by
  unfold Machine.writeReg
  split
  · exact h.of (.writeHeadReg (.refl _))
  · exact h.of (.writeSubReg (.refl _))
  · refine .ite (h.of (.writeHif (.refl _))) <| .ite (h.of (.writeFe (.refl _))) <| .ite (h.of (.writeClkReg (.refl _))) <|
      .ite (h.of (.writeCap (.refl _))) <| .ite (h.of (.writeThermal (.refl _))) ?_
    split
    next hOff =>
      unfold Machine.writeFltCtrl
      dsimp only
      split
      next hBit =>
        obtain rfl : kSafe = false := Bool.eq_false_iff.mpr fun hk => by simp [hExit hk hOff] at hBit
        exact .safeExitBit h.same
      · exact h.same
    · exact .ite (h.of (.writeFltAck (.refl _))) <| .ite h.writeSecReg <| .ite (h.of (.writeOasReg (.refl _))) <|
        .ite (h.of (.writeAcctMode (.refl _))) <| .ite (.ite h.same h) (h.of (.writeOther (.refl _)))

end Sys2Proof.Machine
end

section
/-! SUPPORT. The invariants of every command and every step (O46, O48, O49). -/

set_option Elab.async false

namespace Sys2Proof.Machine

variable {kSafe : Bool} {s t : State}

/-- The commands that write the security block, those that may reset the module only where the safe state is not asked to be kept. -/
theorem Guarded.execSec {i : Instr} (hSec : writesSec i = true) (hReset : kSafe = true → mayReset i = false) (h : Guarded kSafe s t) :
    GuardedBy kSafe s (Machine.exec i t) := by
  have hUnasked (hMay : mayReset i = true) : kSafe = false := by
    cases kSafe with
    | false => rfl
    | true => exact nomatch hMay.symm.trans (hReset rfl)
  cases i
  -- Module resets and the safe state.
  case perstAssert =>
    obtain rfl := hUnasked rfl
    exact .ite (.next h.same) <| .ite (.next (.enterOasis h.same)) (.next (.moduleReset h.same))
  case hotReset | linkDisable | dlDown =>
    obtain rfl := hUnasked rfl
    exact .next (.ite h.resetStart h)
  case safeExit =>
    obtain rfl := hUnasked rfl
    exact h.regWrite h.safeExitBit
  case mainPowerLoss =>
    obtain rfl := hUnasked rfl
    exact .next h.powerLoss
  case thermalTrip =>
    obtain rfl := hUnasked rfl
    exact .next (.ite h.powerLoss h)
  -- Start-up and the end of DORMANT.
  case perstDeassert =>
    refine .ite (.next h) <| .ite (.next h.same) (.next (.startUp (.of ?_ (.cisternUpset (.set (.refl _))))))
    exact .ite h.same h.same
  case mainPowerUp => exact .ite (.next h) <| .ite (.next h.same) (.next (.startUp (.of h.same (.cisternUpset (.set (.refl _))))))
  case dormantExit w =>
    have hAwake : Guarded kSafe s (resetPage (setWake w.cause (setDev .up { t with
      link := { t.link with d3hot := false }, clk := { t.clk with mon := 0 } }))) := h.same
    refine .ite (.next h) (.next (hAwake.of ?_))
    exact .sendTripIrq (.fold (.set (.setBlower (.restoreFailed (.fold (.cisternRestore (.cisternUpset (.set (.wakeClocks (.refl _)))))
      fun _ _ hk => hk.retarget)))) fun _ _ hk => hk.resumeFn)
  case bootImageLoaded =>
    dsimp only [Machine.exec]
    exact h.execBootImageLoaded
  case feReady =>
    dsimp only [Machine.exec]
    have hSeed : Guarded kSafe s (if t.sec.provisioning then Machine.drawSeed t else t) := .ite h.drawSeed h
    unfold execFeReady
    generalize (if t.sec.provisioning then Machine.drawSeed t else t) = u at hSeed ⊢
    exact .ite (.next h) (.next (.of (hSeed.same (u := setDev .up (attestStart u))) (.sendTripIrq (.startAdmin (.setMap (.setMap (.refl _)))))))
  -- Trips of the clock monitors (R350 to R354).
  case xtalTrip => exact .ite (.next h) (.next (.trip nofun h.same))
  case xtalLpoTrip =>
    exact .ite (.next h) <| .ite (.next (.tripRecord (.tripLatch h.same))) (.next (.trip nofun h.same))
  case refclkTrip =>
    obtain rfl := hUnasked rfl
    exact .ite (.next h) <| .ite (.next (.answerTrip nofun (.tripLatch h.same))) <| .ite (.next (.trip nofun h.same)) (.next h)
  case iboTrip => exact .ite (.next h) (.next (.same h.tripLatch.tripRecord.sendTripIrq))
  case iboReady =>
    obtain rfl := hUnasked rfl
    refine .ite (.next h) (.next (.of ?_ (.sendTripIrq (.enterOwed (.refl _)))))
    exact .fold (.fold h.same fun _ _ _ hk => hk.of (.setSrc (.refl _))) fun _ _ _ hk => hk.answerTrip nofun
  case iboStartTimeout => exact .ite (.next h) (.next h.oasisSafe)
  case lockTrip pll =>
    dsimp only [Machine.exec]
    unfold execLockTrip
    refine .ite (.next h) ?_
    dsimp only
    split
    next hPcie =>
      obtain rfl := hUnasked (by simp [mayReset, hPcie])
      exact .next (.trip nofun h.same)
    · exact .ite (.next (.trip nofun h.same)) <|
        .ite (.next (.of h.same (.stopPort (.faultEvent (.refl _))))) (.next (.of h.same (.stopHead (.faultEvent (.refl _)))))
  -- Alarms and the comparators.
  case temperatureMeasurement i now =>
    have hTrip (x : TempCmp) : Guarded kSafe s (if x.wake then wakeAction (setTemp i { x with trip := true } t)
        else setTemp i { x with trip := true } t) :=
      .ite (.of h.same (.wakeAction (.refl _))) h.same
    exact .ite (.next h) <| .ite (.next h.same) (.next (.ite (.raiseAlarm (hTrip _)) (hTrip _)))
  case voltageGlitch => exact .next (.ite h.raiseAlarm h)
  case tamper => exact .next (.ite h.raiseAlarm h.same)
  case alarmClear => exact h.regWrite h.same
  case haboobSeedBurned => exact .ite (.next h) (.next (.of (.same h.destroySeed.onOpenEntry) (.faultEvent (.refl _))))
  -- Fuses, flash and SPDM.
  case otpArm | otpGo => exact h.regWrite h.writeOtpCmd
  case otpChangeDone => exact h.execOtpChangeDone
  case flashRead | flashProgram | flashErase => exact h.regWrite h.writeFlashCmd
  case flashOpDone => exact h.execFlashOpDone
  case doeResponseReady => exact h.execDoeResponseReady
  case registerWrite f off v =>
    dsimp only [Machine.exec]
    unfold execRegisterWrite
    refine .ite (.next h) <| .ite (.next (h.of (.badAccess (.refl _)))) <| .ite (.next (h.of (.writeMsix (.refl _)))) ?_
    split
    next hPf =>
      refine h.regWrite ?_
      split
      · exact h
      · refine h.writeReg fun hk hOff => ?_
        simpa [mayReset, hPf, hOff] using hReset hk
    · exact .next (h.of (.writeVf (.refl _)))
  -- Every other command keeps the security block.
  all_goals exact nomatch hSec

/-- Every command keeps the fuses in form, and outside the commands that may reset the module it keeps the safe state. -/
theorem guarded_exec {i : Instr} (hReset : kSafe = true → mayReset i = false) : GuardedBy kSafe s (Machine.exec i s) := by
  cases hSec : writesSec i with
  | true => exact (Guarded.refl s).execSec hSec hReset
  | false => exact fun t ht => (Guarded.refl s).of ((Kept.refl s).execApart hSec t ht)

/-- Settles O48: a step is a command on the state without it, or a tick, which keeps the security block. -/
theorem ledgerAndSeedsHold : Obligations.LedgerAndSeedsHold := by
  intro s t hForm hStep
  have hKept : OtpKept s.sec.otp t.sec.otp := by
    rw [step] at hStep
    split at hStep
    · exact (KeptBy.next (P := ⟨true, false, false⟩) (Kept.refl s).tick t hStep).sec rfl ▸ .refl _
    next i rest _ => exact (guarded_exec (kSafe := false) (s := { s with pending := rest }) nofun t hStep).otp
  exact ⟨⟨hKept.fits hForm.1, hKept.slots.trans hForm.2⟩, hKept.grows, fun k _ => hKept.destroyed k⟩

/-- Settles O49: no command but one that may reset the module clears the safe state. -/
theorem safeStateHolds : Obligations.SafeStateHolds := by
  intro i s t hSafe hReset hExec
  exact (guarded_exec (kSafe := true) (fun _ => hReset) t hExec).safe rfl hSafe

/-- Settles O46: every command keeps the waiting commands, whatever it does to the rest. -/
theorem commandsLeaveTheQueue : Obligations.CommandsLeaveTheQueue := fun _ s t hExec => ((Kept.refl s).exec t hExec).pending

end Sys2Proof.Machine
end


section
/-! SUPPORT. Proofs about the step itself (O1) and the tick of an empty queue (O44). -/

namespace Sys2Proof.Machine

variable {s t u : State}

/-- Settles O1: the front command of the queue is the one the step takes. -/
theorem stepRunsFront : Obligations.StepRunsFront := by
  intro c rest s hPending
  rw [step, hPending]

/-- From `s` to `t` only the counts of time have moved. -/
def CountsOnly (s t : State) : Prop := t = { s with rgns := t.rgns, acct := t.acct, oas := t.oas }

theorem CountsOnly.refl (s : State) : CountsOnly s s := rfl

theorem CountsOnly.trans (h : CountsOnly s t) (k : CountsOnly t u) : CountsOnly s u := by
  unfold CountsOnly at h k ⊢
  rw [k, h]

theorem tickRegion_countsOnly (r n : Nat) (s : State) : CountsOnly s (tickRegion r n s) := by
  unfold tickRegion
  dsimp only
  split_ifs <;> rfl

theorem tickOas_countsOnly (n : Nat) (s : State) : CountsOnly s (tickOas n s) := by
  unfold tickOas
  split <;> rfl

/-- The tick of a clock that stands, and of one that runs (R347). -/
theorem tick_of_stopped (h : feStep s = 0) : tick s = tickOas 1 s := by rw [tick, if_pos h]

theorem tick_of_running (h : 0 < feStep s) : tick s = { tickOas (lpoAt (s.now + feStep s) - lpoAt s.now)
    (foldState (List.range 16) (fun r a => tickRegion r (coreCyclesIn s (r / 8) s.now (s.now + feStep s)) a) s) with
      now := (s.now + feStep s) % 2 ^ 64 } := by
  rw [tick, if_neg h.ne']

/-- Settles O44: regions and Oasis count, and the clock advances by its step. -/
theorem idleStepIsATick : Obligations.IdleStepIsATick := by
  intro s hIdle
  refine ⟨tick s, by rw [step, hIdle], ?_⟩
  rcases Nat.eq_zero_or_pos (feStep s) with hStands | hRuns
  · have hCounts := tickOas_countsOnly 1 s
    rw [tick_of_stopped hStands]
    unfold CountsOnly at hCounts
    rw [hCounts]
    exact ⟨rfl, fun h => absurd hStands h.ne', fun _ => rfl⟩
  · have hCounts : CountsOnly s (tickOas (lpoAt (s.now + feStep s) - lpoAt s.now)
        (foldState (List.range 16) (fun r a => tickRegion r (coreCyclesIn s (r / 8) s.now (s.now + feStep s)) a) s)) :=
      .trans (foldState_keeps (fun r _ _ h => h.trans (tickRegion_countsOnly r _ _)) (.refl s)) (tickOas_countsOnly _ _)
    rw [tick_of_running hRuns]
    unfold CountsOnly at hCounts
    rw [hCounts]
    exact ⟨rfl, fun _ => rfl, fun h => absurd h hRuns.ne'⟩

end Sys2Proof.Machine
end

section
/-! SUPPORT. Proof about the fetch budget of a head (O56). -/

namespace Sys2Proof.Machine

/-- Twice the bytes that a commit fetches a frame, as `check0C06` sums them. -/
def fetchTwice (s : State) (h : Nat) (c : Commit) : Nat :=
  ((layersOn c).map (fun l => lBox c l 2 * lBox c l 3 * fetch2 (lFmt c l))).sum + (if wbEn c then headHactive s h * headVactive s h * 8 else 0)

theorem check0C06_iff (s : State) (h : Nat) (c : Commit) :
    check0C06 s h c = true ↔ fetchTwice s h c * headRate s h * 1000 ≤ 2 * 96000000000 * (headHtotal s h * headVtotal s h) :=
  decide_eq_true_iff

theorem fetchBytes_eq (s : State) (h : Nat) (c : Commit) : fetchBytes s h c = fetchTwice s h c / 2 := by
  have hLayers (ls : List Nat) : (ls.map (fun l => (lBox c l 2 : ℚ) * lBox c l 3 * (fetch2 (lFmt c l) / 2))).sum
      = ((ls.map (fun l => lBox c l 2 * lBox c l 3 * fetch2 (lFmt c l))).sum : Nat) / 2 := by
    induction ls with
    | nil => simp
    | cons l ls ih =>
      simp only [List.map_cons, List.sum_cons, ih]
      push_cast
      ring
  rw [fetchBytes, fetchTwice, hLayers]
  split
  · push_cast
    ring
  · simp

/-- Settles O56: the check multiplies the budget out by the line and frame lengths, which are not 0. -/
theorem fetchBudgetOfAHead : Obligations.FetchBudgetOfAHead := by
  intro s h c hLine hFrame
  have hCells : (0 : ℚ) < headHtotal s h * headVtotal s h := by positivity
  rw [check0C06_iff, fetchBytes_eq, ← mul_div_assoc, div_le_iff₀ hCells, ← Nat.cast_le (α := ℚ)]
  push_cast
  constructor <;> intro hFits <;> linarith

end Sys2Proof.Machine
end

section
/-! SUPPORT. Proof about class C events (O59). -/

namespace Sys2Proof.Machine

variable {s : State} {f : Flt} {source unit code : Nat} {r : FltRec}

/-! ### Signals of an event (R397) leave the collector -/

@[simp] theorem fireVec_flt (s : State) (v : Nat) : (fireVec s v).flt = s.flt := by
  unfold fireVec
  split_ifs <;> rfl

@[simp] theorem raiseIrq_flt (s : State) (fn k : Nat) : (raiseIrq s fn k).flt = s.flt := by
  unfold raiseIrq raiseVec
  dsimp only
  split_ifs <;> simp

theorem signalFault_classC (s : State) (ctx : Nat) : signalFault s 0 ctx = if irqFor s 0 then raiseIrq s 0 0 else s := rfl

@[simp] theorem signalFault_classC_flt (s : State) (ctx : Nat) : (signalFault s 0 ctx).flt = s.flt := by
  rw [signalFault_classC]
  split
  · exact raiseIrq_flt s 0 0
  · rfl

/-! ### The record that an event folds into (R400) -/

/-- A record that a class C event may fold into. -/
def Folds (f : Flt) (source unit code : Nat) (r : FltRec) : Prop :=
  r.source = source ∧ r.unit = unit ∧ r.code = code ∧ unacked f r = true

/-- Of two records the one that is not newer than the other: the comparison wraps around. -/
theorem diff32_not_pos {a b : Nat} (h : 0 < diff32 a b) : ¬ 0 < diff32 b a := by
  unfold diff32 signed at *
  simp only at *
  push_cast at *
  split_ifs at * <;> omega

/-- One record's turn in the search for the newest that an event folds into. -/
def foldStep (f : Flt) (source unit code : Nat) (best : Option FltRec) (p : Nat × FltRec) : Option FltRec :=
  if p.2.source == source && p.2.unit == unit && p.2.code == code && unacked f p.2
      && (match best with
        | none => true
        | some b => decide (diff32 p.2.seq b.seq > 0)) then some p.2 else best

theorem foldTarget_eq_foldl : foldTarget f source unit code = f.hist.foldl (foldStep f source unit code) none := rfl

/-- A record takes the place of the best one so far when it matches and is newer. -/
theorem foldStep_eq (best : Option FltRec) (p : Nat × FltRec) : (foldStep f source unit code best p = best
      ∧ (Folds f source unit code p.2 → ∃ b, best = some b ∧ ¬ 0 < diff32 p.2.seq b.seq))
    ∨ (foldStep f source unit code best p = some p.2 ∧ Folds f source unit code p.2
      ∧ ∀ b, best = some b → 0 < diff32 p.2.seq b.seq) := by
  have hCond : (p.2.source == source && p.2.unit == unit && p.2.code == code && unacked f p.2) = true ↔ Folds f source unit code p.2 := by
    simp [Folds, and_assoc]
  unfold foldStep
  by_cases hMatch : Folds f source unit code p.2
  · rw [hCond.mpr hMatch]
    cases best with
    | none => exact .inr ⟨rfl, hMatch, nofun⟩
    | some b =>
      by_cases hNew : 0 < diff32 p.2.seq b.seq
      · exact .inr ⟨by simp [hNew], hMatch, fun _ e => Option.some.inj e ▸ hNew⟩
      · exact .inl ⟨by simp [hNew], fun _ => ⟨b, rfl, hNew⟩⟩
  · rw [Bool.eq_false_iff.mpr (mt hCond.mp hMatch)]
    exact .inl ⟨rfl, fun h => absurd h hMatch⟩

/-- `r` is kept or met, and every other record that matches is older. -/
theorem foldl_foldStep_of_newest {xs : List (Nat × FltRec)} {best : Option FltRec} (hFolds : Folds f source unit code r)
    (hXs : ∀ p ∈ xs, Folds f source unit code p.2 → p.2 = r ∨ 0 < diff32 r.seq p.2.seq)
    (hBest : ∀ b, best = some b → b = r ∨ 0 < diff32 r.seq b.seq) (hMet : best = some r ∨ ∃ p ∈ xs, p.2 = r) :
    xs.foldl (foldStep f source unit code) best = some r := by
  induction xs generalizing best with
  | nil => simpa using hMet
  | cons p xs ih =>
    have hRest := ih (best := foldStep f source unit code best p) fun q hq => hXs q (List.mem_cons_of_mem _ hq)
    have hHere := hXs p List.mem_cons_self
    rw [List.foldl_cons]
    rcases foldStep_eq (f := f) (source := source) (unit := unit) (code := code) best p with ⟨hStays, hOld⟩ | ⟨hTakes, hMatch, hNew⟩
    · rw [hStays] at hRest ⊢
      refine hRest hBest (hMet.elim .inl fun ⟨q, hq, hr⟩ => ?_)
      rcases List.mem_cons.mp hq with rfl | hq
      · obtain ⟨b, hb, hNotNewer⟩ := hOld (hr ▸ hFolds)
        exact .inl ((hBest b hb).elim (fun e => e ▸ hb) fun h => absurd (hr ▸ h) hNotNewer)
      · exact .inr ⟨q, hq, hr⟩
    · rw [hTakes] at hRest ⊢
      refine hRest (fun b hb => Option.some.inj hb ▸ hHere hMatch) (hMet.elim (fun hb => ?_) fun ⟨q, hq, hr⟩ => ?_)
      · exact .inl ((hHere hMatch).elim (congrArg some) fun h => absurd h (diff32_not_pos (hNew r hb)))
      · rcases List.mem_cons.mp hq with rfl | hq
        · exact .inl (congrArg some hr)
        · exact .inr ⟨q, hq, hr⟩

theorem foldTarget_of_none (hNone : ∀ p ∈ f.hist, ¬ Folds f source unit code p.2) : foldTarget f source unit code = none := by
  rw [foldTarget_eq_foldl]
  refine List.foldlRecOn (motive := (· = none)) f.hist _ rfl fun best hBest p hp => ?_
  rcases foldStep_eq (f := f) (source := source) (unit := unit) (code := code) best p with ⟨hStays, _⟩ | ⟨_, hMatch, _⟩
  · exact hStays.trans hBest
  · exact absurd hMatch (hNone p hp)

/-! ### The event -/

theorem faultEvent_classC_folds {ctx info : Nat} (hTarget : foldTarget s.flt source unit code = some r) :
    (faultEvent s 0 source unit code ctx info).flt =
      { s.flt with hist := mins s.flt.hist (r.seq % 32) { r with count := satInc32 r.count }, last := lastUp s.flt 0 r.seq } := by
  simp only [faultEvent, if_pos, hTarget, signalFault_classC_flt]

theorem faultEvent_classC_opens {ctx info : Nat} (hTarget : foldTarget s.flt source unit code = none) :
    (faultEvent s 0 source unit code ctx info).flt = (newRecord s 0 false source unit code ctx info).flt := by
  simp only [faultEvent, if_pos, hTarget, signalFault_classC_flt]

/-- Settles O59: the search gives the newest record that matches, or none, and the event goes into it or into a new one. -/
theorem classCEventsFold : Obligations.ClassCEventsFold := by
  refine ⟨?folds, ?opens⟩
  case folds =>
    intro s source unit code ctx info k r hSafe hRecord hKey hSource hUnit hCode hUnacked hNewest
    have hTarget : foldTarget s.flt source unit code = some r :=
      foldTarget_eq_foldl.trans (foldl_foldStep_of_newest ⟨hSource, hUnit, hCode, hUnacked⟩
        (fun p hp ⟨h1, h2, h3, h4⟩ => hNewest p hp h1 h2 h3 h4) nofun (.inr ⟨(k, r), mem_of_mfind hRecord, rfl⟩))
    dsimp only
    rw [faultEvent_classC_folds hTarget, ← hKey]
    exact ⟨rfl, hSafe, mfind_mins_same .., fun j hj => (mfind_mins ..).trans (if_neg hj)⟩
  case opens =>
    intro s source unit code ctx info hSafe hNone
    dsimp only
    rw [faultEvent_classC_opens (foldTarget_of_none hNone)]
    exact ⟨rfl, hSafe, mfind_mins_same ..⟩

end Sys2Proof.Machine
end

section
/-! SUPPORT. Proofs about fuse changes and flash operations (O16, O57). -/

namespace Sys2Proof.Machine

variable {s : State}

/-! ### The open entry of a setting (R386) -/

theorem find?_reverse_range {p : Nat → Bool} {n i : Nat} (hi : i < n) (hp : p i = true) (hLater : ∀ j, i < j → j < n → p j = false) :
    (List.range n).reverse.find? p = some i := by
  induction n with
  | zero => exact absurd hi (Nat.not_lt_zero i)
  | succ n ih =>
    rw [List.range_succ, List.reverse_append, List.reverse_singleton, List.singleton_append, List.find?_cons]
    rcases Nat.lt_succ_iff_lt_or_eq.mp hi with hLt | rfl
    · rw [hLater n hLt n.lt_succ_self]
      exact ih hLt fun j hj hn => hLater j hj (hn.trans n.lt_succ_self)
    · rw [hp]

/-- The last entry of a setting, which is open, is the one that changes. -/
theorem onOpenEntry_ledger {setting i : Nat} {e : LedgerEntry} (f : LedgerEntry → LedgerEntry) (hEntry : s.sec.otp.ledger[i]? = some e)
    (hOpen : e.complete = false) (hSetting : e.setting = setting)
    (hLater : ∀ (j : Nat) e', i < j → s.sec.otp.ledger[j]? = some e' → e'.setting = setting → e'.complete = true) :
    (onOpenEntry setting f s).sec.otp.ledger = s.sec.otp.ledger.modify i f := by
  have hFound : (List.range s.sec.otp.ledger.length).reverse.find? (fun k => (s.sec.otp.ledger[k]?).any (fun e =>
      e.setting == setting && !e.complete)) = some i := by
    refine find?_reverse_range (List.getElem?_eq_some_iff.mp hEntry).1 (by simp [hEntry, hSetting, hOpen]) fun j hj hn => ?_
    have hIsSome : s.sec.otp.ledger[j]? = some s.sec.otp.ledger[j] := List.getElem?_eq_getElem hn
    have hComplete := hLater j _ hj hIsSome
    rw [hIsSome, Option.any_some]
    by_cases hOther : s.sec.otp.ledger[j].setting = setting
    · simp [hComplete hOther]
    · simp [hOther]
  simp only [onOpenEntry, hFound]

/-- A change of the ledger changes nothing else, so every setting keeps its value. -/
theorem otpValue_onOpenEntry (setting : Nat) (f : LedgerEntry → LedgerEntry) (s : State) (code : Nat) :
    otpValue (onOpenEntry setting f s).sec.otp code = otpValue s.sec.otp code := by
  unfold onOpenEntry
  dsimp only
  split <;> rfl

theorem otpValue_setOtp {code v : Nat} (hMin : 1 ≤ code) (hMax : code ≤ 6) (hWord : v < 2 ^ 32) (s : State) :
    otpValue (setOtp code v s).sec.otp code = v := by
  interval_cases code <;> simp [otpValue, setOtp, rollbackOf, show v < 4294967296 from hWord]

/-! ### The end of a change (R385 to R387) -/

/-- The state of a change that ends with a fuse whose verification failed, before its event. -/
def failedChange (c : Change) (v : Nat) (s : State) : State :=
  let t := ledgerFail c.setting v (setOtp c.setting v s)
  { t with sec := { t.sec with change := none, status := 6 } }

theorem exec_otpChangeDone_failed {c : Change} {v : Nat} (hChange : s.sec.change = some c) (hReachable : otpReachable c v = true)
    (hFailed : v ≠ c.goal) : exec (.otpChangeDone v) s = .next (faultEvent (failedChange c v s) 0 0xC 0 3 0xFFFF 0) := by
  change execOtpChangeDone v s = _
  simp only [execOtpChangeDone, hChange, hReachable, Bool.not_true, Bool.false_eq_true, if_false, if_neg hFailed]
  rfl

theorem exec_otpChangeDone_verified {c : Change} (hChange : s.sec.change = some c) : exec (.otpChangeDone c.goal) s =
    let t := ledgerComplete c.setting c.goal (setOtp c.setting c.goal s)
    .next { t with sec := { t.sec with change := none, status := 2 } } := by
  change execOtpChangeDone c.goal s = _
  have hReachable : otpReachable c c.goal = true := by simp [otpReachable]
  simp only [execOtpChangeDone, hChange, hReachable, Bool.not_true, Bool.false_eq_true, if_false, if_true]

/-- Settles O57: the setting is set, and its newest entry, which is the open one, takes the value. -/
theorem fuseVerificationFailure : Obligations.FuseVerificationFailure := by
  intro s c v hChange hMin hMax hReachable hFailed hWord
  refine ⟨failedChange c v s, exec_otpChangeDone_failed hChange hReachable hFailed, rfl, rfl, ?_, ?_⟩
  · exact (otpValue_onOpenEntry ..).trans (otpValue_setOtp hMin hMax hWord s)
  · intro i e hEntry hOpen hSetting hLater
    have hLedger := onOpenEntry_ledger (s := setOtp c.setting v s) (fun e => { e with to_ := v, reached := v })
      (by rwa [setOtp_ledger]) hOpen hSetting (by rwa [setOtp_ledger])
    change (onOpenEntry c.setting _ (setOtp c.setting v s)).sec.otp.ledger[i]? = _
    rw [hLedger, setOtp_ledger, List.getElem?_modify_eq, hEntry]
    rfl

/-! ### Words of the command registers (R380, R383) -/

theorem field_setField_op {v op : Nat} (hOp : op < 4) : field (setField (setField v 0 2 op) 8 1 1) 0 2 = op := by
  simp only [field, setField]
  omega

theorem bitOf_setField_go (v : Nat) : bitOf (setField v 8 1 1) 8 = true :=
  (bitOf_setField_bit v 8 8 true).trans (if_pos rfl)

theorem bitOf_setField_arm {v k : Nat} (hK : k < 4) : bitOf (setField v 8 2 k) 8 = bitOf k 0 ∧ bitOf (setField v 8 2 k) 9 = bitOf k 1 := by
  simp only [bitOf, setField, field]
  constructor <;> congr 1 <;> omega

theorem field_setField_setting {v k : Nat} : field (setField v 8 2 k) 0 4 = v % 16 := by
  simp only [field, setField]
  omega

/-! ### Flash operations (R380, R381) -/

/-- The first byte of a flash operation: a program's page, an erase's sector. -/
def flashStart (s : State) (op : Nat) : Nat :=
  let a := field (rd s 0x060040) 0 26
  if op = 1 then a / 256 * 256 else if op = 2 then a / 65536 * 65536 else a

/-- A write of SEC_FLASH_CMD with GO and an operation. -/
theorem writeFlashCmd_go {v op : Nat} (hOp : op < 3) : writeFlashCmd (setField (setField v 0 2 op) 8 1 1) s =
    if s.sec.flashOp.isSome || (op != 0 && flashBarred s (flashStart s op)) then
      regRefused { wr (disarm s) 0x060044 op with sec := { (disarm s).sec with flashStatus := 3 } } 0 0x060044
        (setField (setField v 0 2 op) 8 1 1)
    else { wr (disarm s) 0x060044 op with sec := { (disarm s).sec with flashStatus := 1, flashOp := some ⟨op, flashStart s op, none⟩ } } := by
  have hAddr : rd (wr (disarm s) 0x060044 op) 0x060040 = rd s 0x060040 := by rw [rd_wr]; rfl
  have hKnown : decide (op = 3) = false := decide_eq_false (by omega)
  unfold writeFlashCmd flashGo
  simp only [bitOf_setField_go, field_setField_op (v := v) (op := op) (by omega), if_true, hAddr, flashStart, hKnown, Bool.or_false]
  rfl

theorem writeFlashCmd_starts {v op : Nat} (hOp : op < 3) (hIdle : s.sec.flashOp = none)
    (hAllowed : op = 0 ∨ flashBarred s (flashStart s op) = false) : writeFlashCmd (setField (setField v 0 2 op) 8 1 1) s =
      { wr (disarm s) 0x060044 op with sec := { (disarm s).sec with flashStatus := 1, flashOp := some ⟨op, flashStart s op, none⟩ } } := by
  rw [writeFlashCmd_go hOp, if_neg]
  rcases hAllowed with rfl | hAllowed <;> simp [*]

theorem writeFlashCmd_refused {v op : Nat} (hOp : op < 3)
    (hBarred : s.sec.flashOp ≠ none ∨ (op ≠ 0 ∧ flashBarred s (flashStart s op) = true)) :
    writeFlashCmd (setField (setField v 0 2 op) 8 1 1) s =
      regRefused { wr (disarm s) 0x060044 op with sec := { (disarm s).sec with flashStatus := 3 } } 0 0x060044
        (setField (setField v 0 2 op) 8 1 1) := by
  rw [writeFlashCmd_go hOp, if_pos]
  rcases hBarred with hBusy | ⟨hWrites, hBarred⟩
  · simp [Option.isSome_iff_ne_none.mpr hBusy]
  · simp [hWrites, hBarred]

theorem exec_flashOpDone {f : FlashOp} (hOp : s.sec.flashOp = some f) : exec .flashOpDone s =
    let t := { s with sec := { s.sec with flashOp := none, flashStatus := 2 } }
    .next (if f.op = 0 then { t with sec := { t.sec with page := (flashBytes s f.addr 256).zipIdx.foldl (fun m e => mset m 0 e.2 e.1) [] } }
      else if f.op = 1 then setFlash f.addr (f.data.getD (pageBytes s)) t
      else setFlash f.addr (List.replicate 65536 0xFF#8) t) := by
  change execFlashOpDone s = _
  unfold execFlashOpDone
  simp only [hOp]
  split_ifs <;> rfl

/-! ### ARM and GO (R382, R383) -/

/-- SEC_OTP_CMD with GO or with ARM, while SEC is ready. -/
theorem writeOtpCmd_go {v : Nat} (hReady : isReady s 2 = true) : writeOtpCmd (setField v 8 2 2) s = otpDoGo (setField v 8 2 2) s := by
  rw [writeOtpCmd, hReady, (bitOf_setField_arm (by omega)).2]
  rfl

theorem writeOtpCmd_arm {v : Nat} (hReady : isReady s 2 = true) : writeOtpCmd (setField v 8 2 1) s = otpDoArm (setField v 8 2 1) s := by
  rw [writeOtpCmd, hReady, (bitOf_setField_arm (by omega)).2, (bitOf_setField_arm (by omega)).1]
  rfl

/-- Settles O16: the GO bit and the operation or setting of each command give the branch of its register's rule. -/
theorem flashAndFuseCommands : Obligations.FlashAndFuseCommands := by
  refine ⟨?read, ?program, ?erase, ?refused, ?flashDone, ?arm, ?go, ?goRefused, ?verified, ?failed⟩
  case read => exact fun s v hUp hIdle => regWrite_eq_next hUp (writeFlashCmd_starts (by omega) hIdle (.inl rfl))
  case program => exact fun s v hUp hIdle hAllowed => regWrite_eq_next hUp (writeFlashCmd_starts (by omega) hIdle (.inr hAllowed))
  case erase => exact fun s v hUp hIdle hAllowed => regWrite_eq_next hUp (writeFlashCmd_starts (by omega) hIdle (.inr hAllowed))
  case refused =>
    exact fun s v hUp => ⟨fun hBusy => regWrite_eq_next hUp (writeFlashCmd_refused (by omega) (.inl hBusy)),
      fun h => regWrite_eq_next hUp (writeFlashCmd_refused (by omega) (h.imp_right fun h => ⟨by decide, h⟩)),
      fun h => regWrite_eq_next hUp (writeFlashCmd_refused (by omega) (h.imp_right fun h => ⟨by decide, h⟩))⟩
  case flashDone => exact fun s f hOp => exec_flashOpDone hOp
  case arm =>
    intro s v hUp hReady
    refine regWrite_eq_next hUp ?_
    rw [writeOtpCmd_arm hReady, otpDoArm, field_setField_setting]
    rfl
  case go =>
    intro s v hUp hReady hAccepted
    refine regWrite_eq_next hUp ?_
    rw [writeOtpCmd_go hReady, otpDoGo, field_setField_setting]
    dsimp only
    rw [hAccepted]
    rfl
  case goRefused =>
    intro s v hUp hReady hRefused
    refine regWrite_eq_next hUp ?_
    rw [writeOtpCmd_go hReady, otpDoGo, field_setField_setting]
    dsimp only
    rw [if_pos hRefused]
  case verified => exact fun s c hChange => exec_otpChangeDone_verified hChange
  case failed => exact fun s c v hChange hReachable hFailed => exec_otpChangeDone_failed hChange hReachable hFailed

end Sys2Proof.Machine
end

section
/-! SUPPORT. Proofs about the Oasis domain (O15) and its supply comparator (O58). -/

namespace Sys2Proof.Machine

variable {s : State}

/-! ### Wakes, compare channels and the counter (R365, R366) -/

theorem wakeAction_eq (s : State) : wakeAction s = match s.pwr.dev with
    | .dormant => s.send { kind := .pme }
    | .oasis => { s.send { kind := .wake } with oas := { s.oas with wakePin := true } }
    | _ => s := by
  unfold wakeAction
  cases s.pwr.dev <;> rfl

theorem exec_auxPowerUp (hOff : s.oas.powered = false) : exec .auxPowerUp s = .next { s with oas := {} } := by
  change execAuxPowerUp s = _
  simp [execAuxPowerUp, hOff]

theorem exec_lpoCalUpdate (cal : BitVec 20) (hOn : s.oas.powered = true) (hXtal : s.clk.xtalGone = false) (hDev : s.pwr.dev ≠ .oasis) :
    exec (.lpoCalUpdate cal) s = .next { s with oas := { s.oas with lpoCal := cal.toNat } } := by
  change execLpoCalUpdate cal s = _
  simp [execLpoCalUpdate, hOn, hXtal, hDev]

/-- An enabled channel has passed its armed value within half of the counter's range (R366). -/
theorem cmpPassed_iff {c : Cmp} {v : BitVec 48} (hArmed : c.armed = some v) (hEn : c.en = true) :
    cmpPassed s c = true ↔ (s.oas.count + 2 ^ 48 - v.toNat) % 2 ^ 48 < 2 ^ 47 := by
  simp only [cmpPassed, hArmed, hEn, Bool.true_and, decide_eq_true_eq]

theorem exec_compareFire (n : Fin 4) (hOn : s.oas.powered = true) : exec (.compareFire n) s = .next (checkCmp n s) := by
  change execCompareFire n s = _
  rw [execCompareFire, if_pos hOn]

/-! ### Temperature comparators (R367) -/

theorem exec_temperatureMeasurement_within (t : Fin 2) (now : Byte) (hOn : s.oas.powered = true)
    (hWithin : tempTrips { tempCmp s t with now := now } = false) : exec (.temperatureMeasurement t now) s =
      .next { setTemp t { tempCmp s t with now := now } s with sec := { s.sec with
        tripping := setField s.sec.tripping 1 1 (b2n (tempTrips (tempCmp s (1 - t.val)))) } } := by
  change execTemperatureMeasurement t now s = _
  simp only [execTemperatureMeasurement, hOn, hWithin, Bool.not_true, Bool.not_false, Bool.false_eq_true, if_false, if_true]

theorem exec_temperatureMeasurement_trips (t : Fin 2) (now : Byte) (hOn : s.oas.powered = true)
    (hTrips : tempTrips { tempCmp s t with now := now } = true) : exec (.temperatureMeasurement t now) s =
      let u := setTemp t { tempCmp s t with now := now, trip := true } s
      let v := if (tempCmp s t).wake then wakeAction u else u
      .next (if latchesAlarms v then raiseAlarm 1 v else v) := by
  change execTemperatureMeasurement t now s = _
  simp only [execTemperatureMeasurement, hOn, hTrips, Bool.not_true, Bool.false_eq_true, if_false]

/-! ### The supply comparator (R368) -/

/-- What a supply under THRESH does before any reset of Oasis. -/
def belowThresh (s : State) : State :=
  let t := { s with oas := { s.oas with below := true } }
  if bar0Up s then faultEvent t 0 0xC 0 5 0xFFFF 0 else t

/-- Oasis in reset (R34). -/
def resetOasis (s : State) : State := { s with oas := { powered := false } }

theorem exec_auxBelowThreshold {mv : Nat} (hOn : s.oas.powered = true) : exec (.auxBelowThreshold mv) s =
    .next (if mv < 2700 then resetOasis (if s.oas.thresh ≤ mv then s else belowThresh s)
      else if s.oas.thresh ≤ mv then s else belowThresh s) := by
  change execAuxBelowThreshold mv s = _
  rw [execAuxBelowThreshold, if_neg (by simp [hOn])]
  rfl

theorem exec_auxBelowThreshold_above {mv : Nat} (hThresh : s.oas.thresh ≤ mv) (hMin : 2700 ≤ mv) :
    exec (.auxBelowThreshold mv) s = .next s := by
  cases hOn : s.oas.powered with
  | true =>
    rw [exec_auxBelowThreshold hOn, if_neg hMin.not_gt, if_pos hThresh]
  | false =>
    change execAuxBelowThreshold mv s = _
    rw [execAuxBelowThreshold, hOn]
    rfl

theorem belowThresh_keeps (s : State) : Keeps { s with oas := { s.oas with below := true } } (belowThresh s) := by
  unfold belowThresh
  dsimp only
  split
  · exact faultEvent_keeps ..
  · exact .refl _

theorem belowThresh_up (hUp : bar0Up s = true) : belowThresh s = faultEvent { s with oas := { s.oas with below := true } } 0 0xC 0 5 0xFFFF 0 :=
  if_pos hUp

theorem belowThresh_down (hDown : bar0Up s = false) : belowThresh s = { s with oas := { s.oas with below := true } } := by
  simp only [belowThresh, hDown, Bool.false_eq_true, if_false]

/-- Settles O58: the comparator acts under THRESH, and Oasis is reset under 2.70 V, each whatever the other does. -/
theorem auxComparator : Obligations.AuxComparator := by
  refine ⟨?below, ?belowAndReset, ?above, ?reset⟩
  case below =>
    intro s mv hOn hThresh hMin
    refine ⟨belowThresh s, ?_, (belowThresh_keeps s).oas, belowThresh_up, belowThresh_down⟩
    rw [exec_auxBelowThreshold hOn, if_neg hThresh.not_ge, if_neg hMin.not_gt]
  case belowAndReset =>
    intro s mv hOn hThresh hMin
    refine ⟨resetOasis (belowThresh s), ?_, rfl, (belowThresh_keeps s).sec, fun hUp => ?_⟩
    · rw [exec_auxBelowThreshold hOn, if_neg hThresh.not_ge, if_pos hMin]
    · rw [belowThresh_up hUp]
      rfl
  case above => exact fun s mv hThresh hMin => exec_auxBelowThreshold_above hThresh hMin
  case reset =>
    intro s mv hOn hThresh hMin
    rw [exec_auxBelowThreshold hOn, if_pos hThresh, if_pos hMin]
    rfl

/-- Settles O15, clause by clause from the lemma about each command. -/
theorem oasisCommands : Obligations.OasisCommands := by
  refine ⟨?power, ?calibration, ?arm, ?fire, ?within, ?trips, ?below, ?pads, wakeAction_eq⟩
  case power => exact fun s hOff => exec_auxPowerUp hOff
  case calibration => exact fun s cal hOn hXtal hDev => exec_lpoCalUpdate cal hOn hXtal hDev
  case arm => exact fun s n hi hUp => regWrite_next hUp
  case fire =>
    intro s n v hOn hArmed hEn
    rw [exec_compareFire n hOn, checkCmp]
    exact ⟨fun hPassed => by rw [if_pos ((cmpPassed_iff hArmed hEn).mpr hPassed)],
      fun hAhead => by rw [if_neg ((cmpPassed_iff hArmed hEn).not.mpr hAhead.not_gt)]⟩
  case within => exact fun s t now hOn hWithin => exec_temperatureMeasurement_within t now hOn hWithin
  case trips => exact fun s t now hOn hTrips => exec_temperatureMeasurement_trips t now hOn hTrips
  case below =>
    intro s mv hOn hThresh hMin hUp
    rw [exec_auxBelowThreshold hOn, if_neg hThresh.not_ge, if_neg hMin.not_gt, belowThresh_up hUp]
  case pads =>
    intro s hUp hLatched
    refine regWrite_eq_next hUp (if_pos ?_)
    rw [hLatched]
    rfl

end Sys2Proof.Machine
end

section
/-! SUPPORT. Proofs about alarms and the start of the firmware (O17). -/

namespace Sys2Proof.Machine

variable {s : State}

/-! ### Alarm sources (R393, R395) -/

theorem raiseAlarm_of_clear {bit : Nat} (hClear : bitOf s.sec.alarms bit = false) : raiseAlarm bit s =
    runAction bit { s with sec := { s.sec with
      tripping := setField s.sec.tripping bit 1 1, alarms := setField s.sec.alarms bit 1 1 } } := by
  simp only [raiseAlarm, hClear, Bool.false_eq_true, if_false]

theorem raiseAlarm_of_set {bit : Nat} (hSet : bitOf s.sec.alarms bit = true) : raiseAlarm bit s =
    { s with sec := { s.sec with tripping := setField s.sec.tripping bit 1 1 } } := by
  simp only [raiseAlarm, hSet, if_true]

theorem exec_voltageGlitch (s : State) : exec .voltageGlitch s = .next (if latchesAlarms s then raiseAlarm 0 s else s) := rfl

theorem exec_tamper (s : State) : exec .tamper s = .next (if latchesAlarms s then raiseAlarm 3 s else
    { s with sec := { s.sec with tripping := setField s.sec.tripping 3 1 1 } }) := rfl

/-! ### Clearing an alarm (R395) -/

theorem bitOf_clearIf (a j k : Nat) (c : Bool) :
    bitOf (if c = true then setField a j 1 0 else a) k = (bitOf a k && !(decide (k = j) && c)) := by
  cases c with
  | false => simp
  | true =>
    rw [if_pos rfl, show setField a j 1 0 = setField a j 1 (b2n false) from rfl, bitOf_setField_bit]
    by_cases hk : k = j <;> simp [hk]

/-- A sweep that clears the bits a test selects. -/
theorem bitOf_foldl_clearIf (c : Nat → Bool) (ks : List Nat) (a k : Nat) :
    bitOf (ks.foldl (fun a k => if c k = true then setField a k 1 0 else a) a) k = (bitOf a k && !(decide (k ∈ ks) && c k)) := by
  induction ks generalizing a with
  | nil => simp
  | cons j ks ih =>
    rw [List.foldl_cons, ih, bitOf_clearIf]
    by_cases hk : k = j
    · subst hk
      cases c k <;> simp
    · simp [hk]

theorem exec_alarmClear {v : W32} {tripping : BitVec 4} (hUp : blockUp s 0x060030 = true) :
    exec (.alarmClear v tripping) s = .next (writeAlarm v.toNat tripping.toNat s) :=
  regWrite_next hUp

/-! ### Haboob (R394) -/

theorem exec_haboobSeedBurned (hBurning : s.sec.haboob = true) : exec .haboobSeedBurned s =
    let t := ledgerComplete 0x10 0 (destroySeed s)
    .next (faultEvent { t with sec := { t.sec with haboob := false } } 3 0xC 0 2 0xFFFF 0) := by
  change execHaboobSeedBurned s = _
  rw [execHaboobSeedBurned, if_neg (by simp [hBurning])]
  rfl

/-! ### The boot ROM (R378 to R380) -/

/-- What the boot ROM finds in the two banks: their results, and the bank that loaded. -/
def bootResult (ea eb : Bool) (s : State) : (Nat × Nat) × Option Nat :=
  tryBanks s (fun b => if b = 0 then ea else eb) (bootOrder s) (headerCode s.sec.otp (headerOf s 0), headerCode s.sec.otp (headerOf s 1))

/-- The image of a bank, loaded. -/
def loadBank (b : Nat) (s : State) : State :=
  { s with sec := { s.sec with
    feImage := flashBytes s (bankBase b + 0x1000) (hField (headerOf s b) 16 4)
    feEntry := hField (headerOf s b) 20 4
    fw := hField (headerOf s b) 8 4
    svn := hField (headerOf s b) 12 4
    keySlot := field (hField (headerOf s b) 5 1) 0 2
    provisioning := bitOf (hField (headerOf s b) 5 1) 2
    bank := b
    fallback := (bootOrder s).head? != some b
    imageLoaded := true } }

/-- The state the boot ROM leaves, from the two results and the bank that loaded. -/
def bootEnds (s : State) : (Nat × Nat) × Option Nat → State
  | ((ra, rb), none) => setMap 2 2 (setMap 1 2 (bootLog { s with sec := { s.sec with resA := ra, resB := rb } }))
  | ((ra, rb), some b) => bootLog (loadBank b { s with sec := { s.sec with resA := ra, resB := rb } })

theorem exec_bootImageLoaded {ea eb : Bool} (hStarting : s.pwr.dev = .starting) (hImage : s.sec.imageLoaded = false)
    (hFe : isFailed s 1 = false) (hSafe : s.flt.safe = false) :
    exec (.bootImageLoaded ea eb) s = .next (bootEnds s (bootResult ea eb s)) := by
  dsimp only [exec]
  rw [execBootImageLoaded, if_neg (by simp [hStarting, hImage, hFe, hSafe])]
  dsimp only
  unfold bootResult
  generalize tryBanks s _ _ _ = r
  obtain ⟨⟨ra, rb⟩, _ | b⟩ := r <;> rfl

@[simp] theorem bootLog_sec (s : State) : (bootLog s).sec = s.sec := by
  unfold bootLog
  split <;> rfl

theorem busWrite_boot (s : State) (a : Nat) (bs : List Byte) : (busWrite s a bs).boot = s.boot := by
  rcases busWrite_cases s a bs with h | h <;> rw [h]
  rw [writePhys_only]

theorem copyReady_failed (s : State) : (copyReady s).boot.failed = s.boot.failed := by
  unfold copyReady
  split
  · rfl
  · rw [busWrite_boot, busWrite_boot]

theorem setMap_failed (i v : Nat) (s : State) : (setMap i v s).boot.failed = setField s.boot.failed i 1 (b2n (v == 2)) := by
  dsimp only [setMap]
  split
  · next h => simp only [Bool.and_eq_true, decide_eq_true_eq] at h; exact h.2.symm
  · rw [copyReady_failed]

theorem isFailed_setMap (i v j : Nat) (s : State) : isFailed (setMap i v s) j = if j = i then v == 2 else isFailed s j := by
  rw [isFailed, setMap_failed, bitOf_setField_bit]
  rfl

/-- What the statement says of a start that ends with result `r`. -/
def BootEnds (s t : State) (r : (Nat × Nat) × Option Nat) : Prop :=
  t.sec.resA = r.1.1 ∧ t.sec.resB = r.1.2 ∧
    match r.2 with
    | none => t.sec.imageLoaded = false ∧ isFailed t 1 = true ∧ isFailed t 2 = true
    | some b => t.sec.imageLoaded = true ∧ t.sec.bank = b ∧ t.sec.svn = hField (headerOf s b) 12 4 ∧
        t.sec.fw = hField (headerOf s b) 8 4 ∧ t.sec.fallback = ((bootOrder s).head? != some b)

/-- The boot ROM's results are not in the flash. -/
theorem headerOf_results (ra rb b : Nat) : headerOf { s with sec := { s.sec with resA := ra, resB := rb } } b = headerOf s b := by
  simp only [headerOf, flashBytes, flashByte]

theorem bootOrder_results (ra rb : Nat) : bootOrder { s with sec := { s.sec with resA := ra, resB := rb } } = bootOrder s := by
  simp only [bootOrder, headerOf_results]

theorem bootEnds_none (ra rb : Nat) : bootEnds s ((ra, rb), none) =
    setMap 2 2 (setMap 1 2 (bootLog { s with sec := { s.sec with resA := ra, resB := rb } })) := rfl

theorem bootEnds_some (ra rb b : Nat) : bootEnds s ((ra, rb), some b) =
    bootLog (loadBank b { s with sec := { s.sec with resA := ra, resB := rb } }) := rfl

theorem bootEnds_spec (hImage : s.sec.imageLoaded = false) (r : (Nat × Nat) × Option Nat) : BootEnds s (bootEnds s r) r := by
  obtain ⟨⟨ra, rb⟩, _ | b⟩ := r
  · rw [bootEnds_none]
    have hSec := ((setMap_keeps 2 2 _).sec.trans (setMap_keeps 1 2 _).sec)
      |>.trans (bootLog_sec { s with sec := { s.sec with resA := ra, resB := rb } })
    refine ⟨by rw [hSec], by rw [hSec], by rw [hSec]; exact hImage, ?_, ?_⟩ <;> simp [isFailed_setMap]
  · rw [bootEnds_some]
    simp [loadBank, headerOf_results, bootOrder_results, BootEnds]

/-! ### The console (R384) -/

theorem exec_uartConsoleInput {m : List Byte} (hLevel : s.sec.otp.debug < 2) (hPads : s.oas.latched = false) (hUp : s.pwr.dev = .up) :
    exec (.uartConsoleInput m) s = .next (s.send {
      kind := .uart
      bytes := Config.protocolReply (if s.sec.otp.debug = 0 then 0x103 else 0x102) m (bytesKey (consoleView s)) }) := by
  change execUartConsoleInput m s = _
  have hCode : 0x102 + b2n (consoleWrites s) = if s.sec.otp.debug = 0 then 0x103 else 0x102 := by
    by_cases h : s.sec.otp.debug = 0 <;> simp [consoleWrites, b2n, h]
  rw [execUartConsoleInput, if_neg (by simp [consoleReads, hLevel, hPads, hUp]), hCode]

theorem exec_uartConsoleInput_closed {m : List Byte} (hLevel : 2 ≤ s.sec.otp.debug) : exec (.uartConsoleInput m) s = .next s := by
  change execUartConsoleInput m s = _
  rw [execUartConsoleInput, if_pos (by simp [consoleReads, Nat.not_lt.mpr hLevel])]

/-- Settles O17, clause by clause from the lemma about each command. -/
theorem alarmCommands : Obligations.AlarmCommands := by
  refine ⟨?glitch, ?tamper, ?clear, ?haboob, ?boot, ?console, ?closed, ?tamperAgain, ?glitchAgain, ?unlatched⟩
  case glitch => exact fun s hLatches hClear => by rw [exec_voltageGlitch, if_pos hLatches, raiseAlarm_of_clear hClear]
  case tamper => exact fun s hLatches hClear => by rw [exec_tamper, if_pos hLatches, raiseAlarm_of_clear hClear]
  case clear =>
    intro s v tripping hUp
    refine ⟨_, exec_alarmClear hUp, rfl, fun k hk => ?_⟩
    change bitOf (List.foldl (fun a k => if (bitOf v.toNat k && !bitOf tripping.toNat k) = true then setField a k 1 0 else a) _ _) k = _
    rw [bitOf_foldl_clearIf]
    simp [hk]
  case haboob => exact fun s hBurning => exec_haboobSeedBurned hBurning
  case boot =>
    intro s ea eb hStarting hImage hFe hSafe r
    have hResult : bootResult ea eb s = r := rfl
    refine ⟨_, exec_bootImageLoaded hStarting hImage hFe hSafe, ?_⟩
    rw [hResult]
    clear_value r
    exact bootEnds_spec hImage r
  case console => exact fun s m hLevel hPads hUp => exec_uartConsoleInput hLevel hPads hUp
  case closed => exact fun s m hLevel => exec_uartConsoleInput_closed hLevel
  case tamperAgain => exact fun s hLatches hSet => by rw [exec_tamper, if_pos hLatches, raiseAlarm_of_set hSet]
  case glitchAgain => exact fun s hLatches hSet => by rw [exec_voltageGlitch, if_pos hLatches, raiseAlarm_of_set hSet]
  case unlatched =>
    exact fun s hQuiet => ⟨by rw [exec_voltageGlitch, if_neg (by simp [hQuiet])], by rw [exec_tamper, if_neg (by simp [hQuiet])]⟩

end Sys2Proof.Machine
end

section
/-! SUPPORT. Proofs about the fault collector and accounting (O12). -/

namespace Sys2Proof.Machine

variable {s : State}

/-! ### The collector's records (R402, R403) -/

theorem exec_faultHandlingEnd_present {seq : Nat} {r : FltRec} (hFound : mfind s.flt.hist (seq % 32) = some r) (hSeq : r.seq = seq) :
    exec (.faultHandlingEnd seq) s =
      .next { s with flt := { s.flt with hist := mins s.flt.hist (seq % 32) { r with handling := false } } } := by
  change execFaultHandlingEnd seq s = _
  simp only [execFaultHandlingEnd, hFound, hSeq, if_true]

theorem exec_faultHandlingEnd_absent {seq : Nat} (hOther : ∀ r, mfind s.flt.hist (seq % 32) = some r → r.seq ≠ seq) :
    exec (.faultHandlingEnd seq) s = .next s := by
  change execFaultHandlingEnd seq s = _
  cases hFound : mfind s.flt.hist (seq % 32) with
  | none => simp only [execFaultHandlingEnd, hFound]
  | some r => simp only [execFaultHandlingEnd, hFound, if_neg (hOther r hFound)]

/-- FLT_ACK moves forward, to a record that exists. -/
theorem writeFltAck_forward {v : Nat} (hForward : 0 ≤ diff32 v s.flt.ack) (hExists : diff32 v s.flt.seq ≤ 0) :
    writeFltAck v s = { s with flt := { s.flt with ack := v } } :=
  if_neg (by simp [hForward, hExists])

theorem writeFltAck_refused {v : Nat} (hBad : diff32 v s.flt.ack < 0 ∨ 0 < diff32 v s.flt.seq) :
    writeFltAck v s = logViol s 2 0 0 0x05000C v :=
  if_pos (by simpa using hBad)

/-! ### Accounting (R409) -/

theorem writeAcctMode_set {v : Nat} (hMode : v % 4 ≠ 0) : writeAcctMode v s = { s with acct := { s.acct with mode := v % 4 } } :=
  if_neg hMode

theorem writeAcctMode_refused {v : Nat} (hMode : v % 4 = 0) : writeAcctMode v s = logViol s 2 0 0 0x0B0000 v :=
  if_pos hMode

/-- Settles O12, clause by clause: the registers' rules through `regWrite_eq_next`, the other commands by their own definitions. -/
theorem collectorCommands : Obligations.CollectorCommands :=
  ⟨fun _ _ _ hFound hSeq => exec_faultHandlingEnd_present hFound hSeq,
    fun _ _ _ => rfl,
    fun _ _ hUp hForward hExists => regWrite_eq_next hUp (writeFltAck_forward hForward hExists),
    fun _ _ hUp hMode => regWrite_eq_next hUp (writeAcctMode_set hMode),
    fun _ hUp => regWrite_next hUp,
    fun _ _ => rfl,
    fun _ _ hUp hBad => regWrite_eq_next hUp (writeFltAck_refused hBad),
    fun _ _ hUp hMode => regWrite_eq_next hUp (writeAcctMode_refused hMode),
    fun _ _ hOther => exec_faultHandlingEnd_absent hOther⟩

end Sys2Proof.Machine
end

section
/-! SUPPORT. Proofs about clock trips and clocks that return (O13). -/

namespace Sys2Proof.Machine

variable {s : State}

theorem latchesAlarms_of_bar0Up (hBar : bar0Up s = true) : latchesAlarms s = true := by
  rcases (by simpa [bar0Up] using hBar : s.pwr.dev = .up ∨ s.pwr.dev = .starting) with h | h <;> simp [latchesAlarms, h]

theorem not_dormant_of_bar0Up (hBar : bar0Up s = true) : (s.pwr.dev == .dormant) = false := by
  rcases (by simpa [bar0Up] using hBar : s.pwr.dev = .up ∨ s.pwr.dev = .starting) with h | h <;> rw [h] <;> rfl

theorem not_oasis_of_bar0Up (hBar : bar0Up s = true) : (s.pwr.dev == .oasis) = false := by
  rcases (by simpa [bar0Up] using hBar : s.pwr.dev = .up ∨ s.pwr.dev = .starting) with h | h <;> rw [h] <;> rfl

/-! ### The monitors (R350, R351) -/

section Monitors
variable (hBar : bar0Up s = true)
include hBar

theorem exec_xtalTrip (hOk : s.clk.xtalOk = true) (hIbo : s.clk.iboReady = true) :
    exec .xtalTrip s = .next (trip 0 ⟨0, true, .xtal⟩ (loseXtal s)) := by
  change execXtalTrip s = _
  rw [execXtalTrip, if_neg (by simp [hBar, hOk, hIbo])]

theorem exec_xtalLpoTrip (hHere : s.clk.xtalGone = false) (hIbo : s.clk.iboReady = false) :
    exec .xtalLpoTrip s = .next (trip 1 ⟨1, true, .xtal⟩ (loseXtal s)) := by
  change execXtalLpoTrip s = _
  rw [execXtalLpoTrip, if_neg (by simp [latchesAlarms_of_bar0Up hBar, hHere, hIbo]), if_neg (by simp [not_dormant_of_bar0Up hBar])]

theorem exec_refclkTrip (hRef : s.clk.refclkOk = true) (hOk : s.clk.xtalOk = true) :
    exec .refclkTrip s = .next (trip 2 ⟨2, true, .pcie⟩ { s with clk := { s.clk with refclkOk := false } }) := by
  change execRefclkTrip s = _
  dsimp only [execRefclkTrip]
  rw [if_neg (by simp [hRef, hOk]), if_neg (by simp [not_dormant_of_bar0Up hBar]), if_pos hBar]

theorem exec_iboTrip (hIbo : s.clk.iboReady = true) : exec .iboTrip s =
    let t := sendTripIrq (tripRecord 3 false (tripLatch 3 s))
    .next { t with clk := { t.clk with iboReady := false, iboFault := t.clk.iboTrips != 0, iboTrips := t.clk.iboTrips + 1 } } := by
  change execIboTrip s = _
  rw [execIboTrip, if_neg (by simp [hBar, hIbo])]

theorem exec_lockTrip {pll : Fin 15} (hLock : bitOf s.clk.locks pll = true) : exec (.lockTrip pll) s = .next (
    let t := setLock pll false s
    if pll.val = 6 then trip 4 ⟨10, false, .pcie⟩ t
    else if pll.val ≤ 8 then trip 4 ⟨4 + pll, false, .xtalSet⟩ t
    else if pll.val ≤ 10 then stopPort (pll - 9) (faultEvent t 0 8 (4 + pll) 1 0xFFFF 0)
    else stopHead (pll - 11) (if s.clk.xtalOk then .training else .linkFailed) (faultEvent t 0 8 (4 + pll) 1 0xFFFF 0)) := by
  change execLockTrip pll s = _
  rw [execLockTrip, if_neg (by simp [hBar, hLock])]
  dsimp only
  simp only [apply_ite Host.Outcome.next]
  rfl

end Monitors

theorem exec_iboMonitors_idle (hIbo : s.clk.iboReady = false) : exec .xtalTrip s = .next s ∧ exec .iboTrip s = .next s :=
  ⟨if_pos (by simp [hIbo]), if_pos (by simp [hIbo])⟩

theorem exec_xtalLpoTrip_idle (hIbo : s.clk.iboReady = true) : exec .xtalLpoTrip s = .next s := if_pos (by simp [hIbo])

theorem exec_refclkTrip_idle (hOk : s.clk.xtalOk = false) : exec .refclkTrip s = .next s := if_pos (by simp [hOk])

/-! ### IBO (R354) -/

theorem exec_iboReady (hBar : bar0Up s = true) (hIbo : s.clk.iboReady = false) (hFault : s.clk.iboFault = false) :
    exec .iboReady s = .next (sendTripIrq (enterOwed (foldState s.clk.answers answerTrip (foldState s.clk.stopped (setSrc 1)
      { s with clk := { s.clk with iboReady := true, answers := [] } })))) := by
  change execIboReady s = _
  rw [execIboReady, if_neg (by simp [hBar, hIbo, hFault])]

theorem exec_iboStartTimeout (hStopped : s.clk.stopped ≠ []) (hIbo : s.clk.iboReady = false) (hSafe : s.flt.safe = false) :
    exec .iboStartTimeout s = .next (oasisSafe s) := by
  change execIboStartTimeout s = _
  rw [execIboStartTimeout, if_neg (by simp [hStopped, hIbo, hSafe])]

/-! ### PLLs and references that come back (R351, R352, R427) -/

theorem exec_pllRelock {pll : Fin 15} (hBar : bar0Up s = true) (hRef : (if pll.val = 6 then s.clk.refclkOk else s.clk.xtalOk) = true) :
    exec (.pllRelock pll) s = .next (if 11 ≤ pll.val then restartHead (pll - 11) (setLock pll true s) else setLock pll true s) := by
  change execPllRelock pll s = _
  dsimp only [execPllRelock]
  rw [if_neg (by rw [hBar, hRef]; simp)]

theorem exec_pllRelockTimeout {pll : Fin 15} (hBar : bar0Up s = true) (hOk : s.clk.xtalOk = true) (hLock : bitOf s.clk.locks pll = false)
    (hSafe : s.flt.safe = false) (hPort : 9 ≤ pll.val ∧ pll.val ≤ 10 → isReady s (36 + (pll.val - 9)) = true)
    (hHead : 11 ≤ pll.val → (head s (pll.val - 11)).st ≠ .off) (hLow : 9 ≤ pll.val) :
    exec (.pllRelockTimeout pll) s = .next (
      if 11 ≤ pll.val then failHead (pll - 11) (faultEvent s 2 0xA (pll - 11) 2 0xFFFF (head s (pll.val - 11)).frame)
      else failPort (pll - 9) (faultEvent s 2 9 (pll - 9) 1 0xFFFF 0)) := by
  change execPllRelockTimeout pll s = _
  rw [execPllRelockTimeout, if_neg (by simp [hBar, hOk, hLock, hSafe])]
  by_cases h : 11 ≤ pll.val
  · rw [if_pos h, if_pos h]
    exact congrArg Host.Outcome.next (if_neg (by simpa using hHead h))
  · rw [if_neg h, if_neg h, if_pos hLow]
    exact congrArg Host.Outcome.next (if_pos (hPort ⟨hLow, by omega⟩))

theorem exec_xtal25Restart (hGone : s.clk.xtalGone = true) (hBar : bar0Up s = true) : exec .xtal25Restart s =
    let s1 := foldState [0, 1, 2, 3, 4, 5, 7, 8] (fun p a => setLock p true a) { s with clk := { s.clk with xtalGone := false, xtalOk := true } }
    let s2 := foldState [0, 1] (fun b a => if isReady a (36 + b) then setLock (9 + b) true a else a) s1
    .next (foldState (List.range 4) (fun h a => if (head a h).st == .off then a else restartHead h (setLock (11 + h) true a)) s2) := by
  change execXtal25Restart s = _
  rw [execXtal25Restart, if_neg (by simp [hGone, not_oasis_of_bar0Up hBar])]
  exact if_neg (by simpa using hBar)

/-- Settles O13, clause by clause from the lemma about each command. -/
theorem clockTripsAndReturns : Obligations.ClockTripsAndReturns :=
  ⟨fun _ hBar hOk hIbo => exec_xtalTrip hBar hOk hIbo,
    fun _ hBar hHere hIbo => exec_xtalLpoTrip hBar hHere hIbo,
    fun _ hBar hRef hOk => exec_refclkTrip hBar hRef hOk,
    fun _ hBar hIbo => exec_iboTrip hBar hIbo,
    fun _ _ => ⟨exec_iboMonitors_idle, exec_xtalLpoTrip_idle, exec_refclkTrip_idle⟩,
    fun _ _ hBar hLock => exec_lockTrip hBar hLock,
    fun _ hBar hIbo hFault => exec_iboReady hBar hIbo hFault,
    fun _ hStopped hIbo hSafe => exec_iboStartTimeout hStopped hIbo hSafe,
    fun _ _ hBar hRef => exec_pllRelock hBar hRef,
    fun _ _ hBar hOk hLock hSafe hPort hHead hLow => exec_pllRelockTimeout hBar hOk hLock hSafe hPort hHead hLow,
    fun _ hGone hBar => exec_xtal25Restart hGone hBar,
    fun _ hUp => regWrite_next hUp⟩

end Sys2Proof.Machine
end

section
/-! SUPPORT. Proofs about heat, the brake and the blower (O14). -/

namespace Sys2Proof.Machine

variable {s : State} {die : Fin 2} {temp : Byte}

/-! ### What the thermal operations leave unchanged -/

theorem setBlower_clk (s : State) : (setBlower s).clk = s.clk := by
  unfold setBlower
  split <;> rfl

theorem setBlower_beStall (s : State) : (setBlower s).pwr.beStall = s.pwr.beStall := by
  unfold setBlower
  split <;> rfl

theorem setJunction_clk (d n : Nat) (s : State) : (setJunction d n s).clk = s.clk := by
  unfold setJunction
  split <;> rfl

theorem limitC_setJunction (d n : Nat) (s : State) : limitC (setJunction d n s) = limitC s := by
  unfold setJunction
  split <;> rfl

theorem le_hottest_setJunction (d n : Nat) (s : State) : n ≤ hottest (setJunction d n s) := by
  unfold setJunction
  split
  · exact Nat.le_max_left ..
  · exact Nat.le_max_right ..

theorem setMhz_pwr (d v : Nat) (s : State) : (setMhz d v s).pwr = s.pwr := by
  unfold setMhz
  split <;> rfl

theorem lowerDie_pwr (mhz d : Nat) (s : State) : (lowerDie mhz d s).pwr = s.pwr := by
  unfold lowerDie
  split
  · exact setMhz_pwr ..
  · rfl

theorem coreMhz_setMhz_self {d : Nat} (hDie : d < 2) (v : Nat) (s : State) : coreMhz (setMhz d v s) d = v := by
  obtain rfl | rfl : d = 0 ∨ d = 1 := by omega
  · rfl
  · rfl

theorem coreMhz_setMhz_other {d e : Nat} (hDie : d < 2) (hOther : d ≠ e) (hTarget : e < 2) (v : Nat) (s : State) :
    coreMhz (setMhz e v s) d = coreMhz s d := by
  obtain ⟨rfl, rfl⟩ | ⟨rfl, rfl⟩ : d = 0 ∧ e = 1 ∨ d = 1 ∧ e = 0 := by omega
  · rfl
  · rfl

/-- A die's clock is lowered, never raised. -/
theorem coreMhz_lowerDie_le {d e : Nat} (hDie : d < 2) (hTarget : e < 2) (mhz : Nat) (s : State) :
    coreMhz (lowerDie mhz e s) d ≤ coreMhz s d := by
  unfold lowerDie
  split
  · by_cases hSame : d = e
    · subst hSame
      rw [coreMhz_setMhz_self hDie]
      exact Nat.min_le_left ..
    · rw [coreMhz_setMhz_other hDie hSame hTarget]
  · exact Nat.le_refl _

theorem coreMhz_lowerDie_other {d e : Nat} (hDie : d < 2) (hOther : d ≠ e) (hTarget : e < 2) (mhz : Nat) (s : State) :
    coreMhz (lowerDie mhz e s) d = coreMhz s d := by
  unfold lowerDie
  split
  · exact coreMhz_setMhz_other hDie hOther hTarget ..
  · rfl

/-- The watch of LC work only records emergencies and touches launches. -/
theorem watchHeat_keeps_clocks (s : State) : (watchHeat s).clk = s.clk ∧ (watchHeat s).pwr.beStall = s.pwr.beStall := by
  refine foldState_keeps (P := fun t => t.clk = s.clk ∧ t.pwr.beStall = s.pwr.beStall) (fun d _ t ht => ?_) ⟨rfl, rfl⟩
  split
  · exact ht
  · exact ht

theorem coreMhz_of_clk {s t : State} (h : t.clk = s.clk) (d : Nat) : coreMhz t d = coreMhz s d := by
  rw [coreMhz, coreMhz, h]

theorem beStalled_of_beStall (h : s.pwr.beStall = true) : beStalled s = true := by
  simp [beStalled, h]

/-! ### Limits reached and cleared (R348, R371) -/

/-- A die at the limit: its junction is kept, BE issue stalls and the blower follows. -/
def limitReached (die : Fin 2) (temp : Byte) (s : State) : State := setBlower (heatStall (setJunction die temp.toNat s))

theorem limitReached_clk (die : Fin 2) (temp : Byte) (s : State) : (limitReached die temp s).clk = s.clk := by
  rw [limitReached, setBlower_clk]
  exact setJunction_clk ..

theorem limitReached_beStall (hLimit : limitC s ≤ temp.toNat) : (limitReached die temp s).pwr.beStall = true := by
  rw [limitReached, setBlower_beStall]
  refine decide_eq_true ?_
  rw [limitC_setJunction]
  exact hLimit.trans (le_hottest_setJunction ..)

/-- The die joins those whose clock is held down by heat. -/
def markHot (die : Fin 2) (s : State) : State :=
  { s with pwr := { s.pwr with hot := if s.pwr.hot.contains die.val then s.pwr.hot else s.pwr.hot ++ [die.val] } }

theorem exec_thermalLimitReached_slow {mhz : Nat} (hBar : bar0Up s = true) (hSlow : limitC s + 3 ≤ temp.toNat) :
    exec (.thermalLimitReached die temp mhz) s = .next (watchHeat (lowerDie mhz die (markHot die (limitReached die temp s)))) := by
  change execThermalLimitReached die temp mhz s = _
  rw [execThermalLimitReached, if_neg (by simp [hBar]; omega)]
  exact if_neg (by omega)

theorem exec_thermalLimitReached_stall {mhz : Nat} (hBar : bar0Up s = true) (hLimit : limitC s ≤ temp.toNat)
    (hBelow : temp.toNat < limitC s + 3) : exec (.thermalLimitReached die temp mhz) s = .next (limitReached die temp s) := by
  change execThermalLimitReached die temp mhz s = _
  rw [execThermalLimitReached, if_neg (by simp [hBar, hLimit])]
  exact if_pos hBelow

/-- A die that reports the limit stalls BE issue; only its own clock may move, 3 °C above the limit, and only down. -/
theorem thermalLimitReached_effect {mhz : Nat} {t : State} (hBar : bar0Up s = true) (hLimit : limitC s ≤ temp.toNat)
    (hExec : exec (.thermalLimitReached die temp mhz) s = .next t) :
    beStalled t = true
      ∧ ∀ d < 2, coreMhz t d ≤ coreMhz s d ∧ (d ≠ die.val ∨ temp.toNat < limitC s + 3 → coreMhz t d = coreMhz s d) := by
  have hStall := limitReached_beStall (die := die) hLimit
  have hClk (d : Nat) : coreMhz (limitReached die temp s) d = coreMhz s d := coreMhz_of_clk (limitReached_clk ..) d
  by_cases hBelow : temp.toNat < limitC s + 3
  · rw [exec_thermalLimitReached_stall hBar hLimit hBelow] at hExec
    cases hExec
    exact ⟨beStalled_of_beStall hStall, fun d _ => ⟨(hClk d).le, fun _ => hClk d⟩⟩
  · rw [exec_thermalLimitReached_slow hBar (by omega)] at hExec
    cases hExec
    obtain ⟨hWatchClk, hWatchStall⟩ := watchHeat_keeps_clocks (lowerDie mhz die (markHot die (limitReached die temp s)))
    refine ⟨beStalled_of_beStall (hWatchStall.trans ((congrArg _ (lowerDie_pwr ..)).trans hStall)), fun d hd => ?_⟩
    have hMark : coreMhz (markHot die (limitReached die temp s)) d = coreMhz s d := hClk d
    rw [coreMhz_of_clk hWatchClk]
    refine ⟨(coreMhz_lowerDie_le hd die.isLt ..).trans hMark.le, fun hOther => ?_⟩
    rw [coreMhz_lowerDie_other hd (hOther.resolve_right hBelow) die.isLt, hMark]

theorem exec_thermalLimitCleared {s : State} (hBar : bar0Up s = true) (hCool : temp.toNat < limitC s + 3) :
    exec (.thermalLimitCleared die temp) s =
      let t := heatStall (setJunction die temp.toNat s)
      .next (setBlower (retarget die { t with pwr := { t.pwr with hot := t.pwr.hot.filter (· != die.val) } })) := by
  change execThermalLimitCleared die temp s = _
  rw [execThermalLimitCleared, if_neg (by simp [hBar, hCool])]

/-! ### The brake and the blower (R415, R418) -/

theorem engageBrake_of_released {cause mhz : Nat} (hBrake : s.pwr.brake = false) :
    engageBrake cause mhz s = foldState [0, 1] (lowerDie mhz) (beginEmergency 2 (fun _ => true)
      { s with pwr := { s.pwr with brake := true, brakeCause := cause, brakeCount := min 255 (s.pwr.brakeCount + 1) } }) :=
  if_neg (by simp [hBrake])

theorem exec_brake {mhz : Nat} (hBar : bar0Up s = true) :
    exec (.pwrbrkNLow mhz) s = .next (engageBrake 0 mhz s) ∧ exec (.inputOvercurrent mhz) s = .next (engageBrake 1 mhz s) :=
  ⟨congrArg Host.Outcome.next (if_pos hBar), congrArg Host.Outcome.next (if_pos hBar)⟩

theorem exec_brake_again {mhz : Nat} (hBrake : s.pwr.brake = true) :
    exec (.pwrbrkNLow mhz) s = .next s ∧ exec (.inputOvercurrent mhz) s = .next s := by
  have hEngage (cause : Nat) : (if bar0Up s = true then engageBrake cause mhz s else s) = s := by
    rw [engageBrake, if_pos hBrake, ite_self]
  exact ⟨congrArg Host.Outcome.next (hEngage 0), congrArg Host.Outcome.next (hEngage 1)⟩

theorem exec_brakeRelease (hBrake : s.pwr.brake = true) :
    exec .brakeRelease s = .next (foldState [0, 1] retarget (endEmergency 2 { s with pwr := { s.pwr with brake := false } })) :=
  if_neg (by simp [hBrake])

theorem exec_brakeRelease_idle (hBrake : s.pwr.brake = false) : exec .brakeRelease s = .next s := if_pos (by simp [hBrake])

theorem exec_blowerStall {rpm : BitVec 16} (hBar : bar0Up s = true) : exec (.blowerStall rpm) s =
    .next (if Config.strapVariant = 0#2 then { s with pwr := { s.pwr with stalled := true, rpm := rpm.toNat } } else s) := by
  refine congrArg Host.Outcome.next ?_
  rw [hBar, Bool.and_true]
  simp only [decide_eq_true_eq]

/-- Settles O14, clause by clause from the lemma about each command. -/
theorem heatAndBrake : Obligations.HeatAndBrake := by
  refine ⟨?slow, ?stall, ?quiet, ?effect, ?hot, ?cleared, ?emergencyEnd, ?brake, ?brakeAgain, ?release, ?releaseIdle, ?trip, ?blower⟩
  case slow => exact fun s die temp mhz hBar hSlow => exec_thermalLimitReached_slow hBar hSlow
  case stall => exact fun s die temp mhz hBar hLimit hBelow => exec_thermalLimitReached_stall hBar hLimit hBelow
  case quiet => exact fun s die temp mhz hBelow => if_pos (by simp [hBelow])
  case effect => exact fun s die temp mhz t hBar hLimit hExec => thermalLimitReached_effect hBar hLimit hExec
  case hot => exact fun s die temp hHot => if_pos (by simp [hHot])
  case cleared => exact fun s die temp hBar hCool => exec_thermalLimitCleared hBar hCool
  case emergencyEnd => exact fun s => rfl
  case brake =>
    intro s mhz hBar hBrake
    obtain ⟨hLow, hCurrent⟩ := exec_brake (mhz := mhz) hBar
    rw [engageBrake_of_released hBrake] at hLow hCurrent
    exact ⟨hLow, hCurrent⟩
  case brakeAgain => exact fun s mhz hBrake => exec_brake_again hBrake
  case release => exact fun s hBrake => exec_brakeRelease hBrake
  case releaseIdle => exact fun s hBrake => exec_brakeRelease_idle hBrake
  case trip => exact fun s hMain hDev => by rw [exec_thermalTrip s hMain, powerLoss_of_ne_oasis s hDev]
  case blower => exact fun s rpm hBar => exec_blowerStall hBar

end Sys2Proof.Machine
end

section
/-! SUPPORT. Proofs about display heads: DISP_CTRL, timing, training, HPD and AUX (O26). -/

namespace Sys2Proof.Machine

variable {s : State} {h v : Nat}

/-! ### Words of DISP_CTRL (R331) -/

theorem setField_own (n lo len : Nat) : setField n lo len (field n lo len) = n := by
  have hField : field n lo len % 2 ^ len = field n lo len := Nat.mod_mod _ _
  have hLe : field n lo len * 2 ^ lo ≤ n := (Nat.mul_le_mul_right _ (Nat.mod_le _ _)).trans (Nat.div_mul_le_self ..)
  rw [setField, hField, Nat.sub_add_cancel hLe]

/-- A bit set before or after the upper bits are dropped. -/
theorem field_setField_low {l len : Nat} (hLow : l < len) (n : Nat) (b : Bool) :
    field (setField n l 1 (b2n b)) 0 len = setField (field n 0 len) l 1 (b2n b) := by
  refine Nat.eq_of_testBit_eq fun j => ?_
  simp only [field, testBit_setField_one, Nat.testBit_mod_two_pow, pow_zero, Nat.div_one]
  by_cases hj : j = l
  · simp [hj, hLow]
  · simp [hj]

/-- The word that a write leaves in DISP_CTRL of a head that is OFF, with ENABLE `b`; RETRAIN reads 0. -/
def ctrlWord (v : Nat) (b : Bool) : Nat := setField (setField (field v 0 14) 0 1 (b2n b)) 1 1 0

theorem ctrlWord_eq (v : Nat) (b : Bool) : setField (field (setField v 0 1 (b2n b)) 0 14) 1 1 0 = ctrlWord v b := by
  rw [field_setField_low (by decide), ctrlWord]

/-- The same for a head that is not OFF, which keeps BPC, DSC_EN and the polarities (R315). -/
def keptWord (s : State) (h w : Nat) : Nat := setField w 2 5 (field (dispCtrl s h) 2 5)

/-- DISP_CTRL of a head that is not OFF after a write of `v`; a write that would change what stays is logged. -/
def keepCtrl (h w v : Nat) (s : State) : State :=
  wr (if keptWord s h w = w then s else logViol s 2 0 0 (headBase h) v) (headBase h) (keptWord s h w)

theorem retrainHead_of_ne (hState : (head s h).st ≠ .linkFailed) : retrainHead h s = s := if_neg (by simpa using hState)

theorem head_enableHead_st (hOff : (head s h).st = .off) : (head (enableHead h s) h).st ≠ .linkFailed := by
  dsimp only [enableHead]
  split
  · simp
  · simp [hOff]

theorem head_disableHead_st (s : State) : (head (disableHead h s) h).st ≠ .linkFailed := by
  simp [disableHead]

section Write
variable {b : Bool}

theorem bitOf_retrain (v : Nat) (b : Bool) : bitOf (setField v 0 1 (b2n b)) 1 = bitOf v 1 := bitOf_setField_bit v 0 1 b

theorem bitOf_enable (v : Nat) (b : Bool) : bitOf (setField v 0 1 (b2n b)) 0 = b := (bitOf_setField_bit v 0 0 b).trans (if_pos rfl)

/-- A write of DISP_CTRL to a head that is OFF: its word, ENABLE acted on, and RETRAIN without effect. -/
theorem writeDispCtrl_off (hOff : (head s h).st = .off) (hFailed : ((head s h).failed && b) = false) :
    writeDispCtrl h (setField v 0 1 (b2n b)) s =
      if b then enableHead h (wr s (headBase h) (ctrlWord v b)) else wr s (headBase h) (ctrlWord v b) := by
  have hWrHead : (head (wr s (headBase h) (ctrlWord v b)) h).st = .off := hOff
  simp only [writeDispCtrl, bitOf_enable, bitOf_retrain, hFailed, hOff, ctrlWord_eq,
    Bool.false_eq_true, if_false, beq_self_eq_true, bne_self_eq_false, Bool.and_true, Bool.and_false, if_true]
  cases b with
  | true => simp only [if_true, retrainHead_of_ne (head_enableHead_st hWrHead), ite_self]
  | false => simp only [Bool.false_eq_true, if_false, retrainHead_of_ne (hWrHead.trans_ne (by decide)), ite_self]

/-- A write of DISP_CTRL to a head that is not OFF. -/
theorem writeDispCtrl_on (hOn : (head s h).st ≠ .off) (hFailed : ((head s h).failed && b) = false) :
    writeDispCtrl h (setField v 0 1 (b2n b)) s =
      if b then
        let t := keepCtrl h (ctrlWord v b) (setField v 0 1 (b2n b)) s
        if bitOf v 1 then retrainHead h t else t
      else disableHead h (keepCtrl h (ctrlWord v b) (setField v 0 1 (b2n b)) s) := by
  have hBeq : ((head s h).st == .off) = false := by simpa using hOn
  have hBne : ((head s h).st != .off) = true := by simpa using hOn
  simp only [writeDispCtrl, bitOf_enable, bitOf_retrain, hFailed, hBeq, hBne, ctrlWord_eq,
    Bool.false_eq_true, if_false, Bool.and_true, Bool.and_false]
  cases b with
  | true => rfl
  | false =>
    simp only [Bool.not_false, Bool.false_eq_true, if_false, if_true, retrainHead_of_ne (head_disableHead_st _), ite_self]
    rfl

end Write

theorem writeDispCtrl_failed (hFailed : (head s h).failed = true) :
    writeDispCtrl h (setField v 0 1 1) s = logViol s 2 0 0 (headBase h) (setField v 0 1 1) :=
  if_pos (by rw [hFailed, show setField v 0 1 1 = setField v 0 1 (b2n true) from rfl, bitOf_enable]; rfl)

theorem testBit_field (n lo len i : Nat) : (field n lo len).testBit i = (decide (i < len) && n.testBit (lo + i)) := by
  rw [field, Nat.testBit_mod_two_pow, Nat.testBit_div_two_pow, Nat.add_comm]

/-- The word of a write that sets RETRAIN beside the fields as they stand. -/
theorem ctrlWord_retrain (hEnable : bitOf v 0 = true) : ctrlWord (setField v 1 1 1) true = setField (field v 0 14) 1 1 0 := by
  have hOne : setField v 1 1 1 = setField v 1 1 (b2n true) := rfl
  have hZero (n : Nat) : setField n 1 1 0 = setField n 1 1 (b2n false) := rfl
  refine Nat.eq_of_testBit_eq fun j => ?_
  rw [bitOf_eq_testBit] at hEnable
  simp only [ctrlWord, hOne, hZero, testBit_setField_one, testBit_field, Nat.zero_add]
  split_ifs with h1 h0
  · rfl
  · rw [h0, hEnable]
    rfl
  · rfl

/-- Such a write changes nothing of what stays. -/
theorem keptWord_retrain (s : State) (h : Nat) :
    keptWord s h (setField (field (dispCtrl s h) 0 14) 1 1 0) = setField (field (dispCtrl s h) 0 14) 1 1 0 := by
  have hField : field (setField (field (dispCtrl s h) 0 14) 1 1 (b2n false)) 2 5 = field (dispCtrl s h) 2 5 := by
    refine Nat.eq_of_testBit_eq fun j => ?_
    simp only [testBit_field, testBit_setField_one, Nat.zero_add]
    by_cases hj : j < 5
    · rw [if_neg (by omega), decide_eq_true (show 2 + j < 14 by omega), Bool.true_and]
    · simp [hj]
  rw [keptWord, ← hField]
  exact setField_own ..

/-- RETRAIN beside the fields as they stand takes a head out of LINK_FAILED. -/
theorem writeDispCtrl_retrain (hOn : (head s h).st ≠ .off) (hFailed : (head s h).failed = false) (hEnable : bitOf (dispCtrl s h) 0 = true) :
    writeDispCtrl h (setField (dispCtrl s h) 1 1 1) s =
      retrainHead h (wr s (headBase h) (setField (field (dispCtrl s h) 0 14) 1 1 0)) := by
  have hOne : setField (dispCtrl s h) 1 1 1 = setField (dispCtrl s h) 1 1 (b2n true) := rfl
  have hBit0 : bitOf (setField (dispCtrl s h) 1 1 1) 0 = true := by rw [hOne, bitOf_setField_bit, if_neg (by decide), hEnable]
  have hBit1 : bitOf (setField (dispCtrl s h) 1 1 1) 1 = true := by rw [hOne, bitOf_setField_bit, if_pos rfl]
  have hOwn := setField_own_bit (setField (dispCtrl s h) 1 1 1) 0
  rw [hBit0] at hOwn
  have hWrite := writeDispCtrl_on (v := setField (dispCtrl s h) 1 1 1) (b := true) hOn (by simp [hFailed])
  simp only [hOwn, if_true, hBit1, ctrlWord_retrain hEnable, keepCtrl, keptWord_retrain] at hWrite
  exact hWrite

/-! ### Timing, training and the sink (R315, R317, R318) -/

theorem exec_timingWrite {h : Fin 4} {k : Nat} {v : W32} (hReg : k < 7) (hUp : blockUp s (headBase h + (4 + 4 * k)) = true) :
    exec (.timingWrite h (4 + 4 * k) v) s = .next (writeTiming h (4 + 4 * k) v.toNat s) := by
  change execTimingWrite h (4 + 4 * k) v s = _
  rw [execTimingWrite, if_pos (by simp; omega), regWrite_next hUp]

theorem exec_linkTrainingComplete {h : Fin 4} {ok : Bool} (hCan : canTrain s h = true) : exec (.linkTrainingComplete h ok) s = .next (
    if ok then setHead s h { head s h with st := .active, fails := 0 }
    else if (head s h).fails < 2 then setHead s h { head s h with fails := (head s h).fails + 1 }
    else sinkEvent h 2 (setHead s h { head s h with st := .linkFailed, fails := 0 })) := by
  change execLinkTrainingComplete h ok s = _
  rw [execLinkTrainingComplete, if_neg (by simp [hCan])]
  simp only [apply_ite Host.Outcome.next]

theorem exec_irqHpd {h : Fin 4} (hRuns : timingRuns s h = true) (hHpd : (head s h).hpd = true) (hActive : (head s h).st = .active) :
    exec (.irqHpd h) s =
      let x := head s h
      let recent := (x.retrains.filter (fun t => decide (s.now < t + 1600000000))) ++ [s.now]
      .next (if 8 < recent.length then sinkEvent h 2 (setHead s h { x with st := .linkFailed, retrains := [] })
        else sinkEvent h 1 (setHead s h { x with st := .training, retrains := recent })) := by
  change execIrqHpd h s = _
  dsimp only [execIrqHpd]
  rw [if_neg (by simp [hRuns, hHpd, hActive]), apply_ite Host.Outcome.next]
  rfl

theorem exec_hpdLow {h : Fin 4} (hUp : headUp s h = true) (hHpd : (head s h).hpd = true) : exec (.hpdLow h) s = .next (hpdChange h
    { head s h with hpd := false, st := if (head s h).st == .active then .training else (head s h).st } s) :=
  if_neg (by simp [hUp, hHpd])

theorem exec_hpdRise {h : Fin 4} (hUp : headUp s h = true) (hHpd : (head s h).hpd = false) :
    exec (.hpdRise h) s = .next (hpdChange h { head s h with hpd := true } s) :=
  if_neg (by simp [hUp, hHpd])

/-! ### AUX (R318, R331) -/

theorem writeAux_eq : writeAux h v s =
    let t := wr s (headBase h + 0x080) (field v 0 28)
    if bitOf v 31 = true ∧ (head s h).auxStatus ≠ 1 then auxSend h (setHead t h { head s h with auxStatus := 1, auxTries := 0 }) else t := by
  dsimp only [writeAux]
  simp only [Bool.and_eq_true, bne_iff_ne]

/-- What the reply to an AUX request does to the head that sent it. -/
def auxReplied (s : State) (h : Nat) (data : List Byte) : AuxReply → State
  | .ack => setHead (putAuxData h 0 data s) h { head s h with auxStatus := 2 }
  | .nak => sinkEvent h 3 (setHead s h { head s h with auxStatus := 3 })
  | .defer =>
    if (head s h).auxTries < 7 then auxSend h (setHead s h { head s h with auxTries := (head s h).auxTries + 1 })
    else setHead s h { head s h with auxStatus := 4 }
  | .none => sinkEvent h 4 (setHead s h { head s h with auxStatus := 5 })

theorem exec_auxComplete {h : Fin 4} {reply : AuxReply} {data : List Byte} (hUp : headUp s h = true) (hBusy : (head s h).auxStatus = 1) :
    exec (.auxComplete h reply data) s = .next (auxReplied s h data reply) := by
  change execAuxComplete h reply data s = _
  dsimp only [execAuxComplete]
  rw [if_neg (by simp [hUp, hBusy])]
  cases reply with
  | defer => exact (apply_ite Host.Outcome.next ..).symm
  | ack => rfl
  | nak => rfl
  | none => rfl

/-- Settles O26, clause by clause: the writes of DISP_CTRL by the head's state, the other commands from the lemma about each. -/
theorem headCommands : Obligations.HeadCommands := by
  refine ⟨?enable, ?enableFailed, ?enableOn, ?disable, ?disableOff, ?timing, ?retrain, ?training, ?irq, ?low, ?rise, ?aux, ?reply⟩
  case enable => exact fun s h v hUp hOff hFailed => regWrite_eq_next hUp (writeDispCtrl_off (b := true) hOff (by simp [hFailed]))
  case enableFailed => exact fun s h v hUp hFailed => regWrite_eq_next hUp (writeDispCtrl_failed hFailed)
  case enableOn => exact fun s h v hUp hOn hFailed => regWrite_eq_next hUp (writeDispCtrl_on (b := true) hOn (by simp [hFailed]))
  case disable => exact fun s h v hUp hOn => regWrite_eq_next hUp (writeDispCtrl_on (b := false) hOn (by simp))
  case disableOff => exact fun s h v hUp hOff => regWrite_eq_next hUp (writeDispCtrl_off (b := false) hOff (by simp))
  case timing =>
    intro s h k v hReg hUp
    rw [exec_timingWrite hReg hUp]
    exact ⟨fun hOff => congrArg Host.Outcome.next (if_pos (by simpa using hOff)),
      fun hOn => congrArg Host.Outcome.next (if_neg (by simpa using hOn))⟩
  case retrain =>
    intro s h hUp hOn hFailed hEnable
    refine regWrite_eq_next hUp ((writeDispCtrl_retrain hOn hFailed hEnable).trans ?_)
    simp only [retrainHead, beq_iff_eq]
    rfl
  case training =>
    intro s h hCan
    simp only [exec_linkTrainingComplete hCan, if_true, Bool.false_eq_true, if_false, true_and]
    exact ⟨fun hFew => congrArg Host.Outcome.next (if_pos hFew), fun hMany => congrArg Host.Outcome.next (if_neg (by omega))⟩
  case irq => exact fun s h hRuns hHpd hActive => exec_irqHpd hRuns hHpd hActive
  case low => exact fun s h hUp hHpd => exec_hpdLow hUp hHpd
  case rise => exact fun s h hUp hHpd => exec_hpdRise hUp hHpd
  case aux => exact fun s h v hUp => regWrite_eq_next hUp writeAux_eq
  case reply =>
    exact fun s h data hUp hBusy =>
      ⟨exec_auxComplete hUp hBusy, exec_auxComplete hUp hBusy, exec_auxComplete hUp hBusy, exec_auxComplete hUp hBusy⟩

end Sys2Proof.Machine
end

section
/-! SUPPORT. Proofs about frames, commits, writeback and signatures (O27). -/

namespace Sys2Proof.Machine

variable {s : State} {h : Fin 4}

theorem exec_frameStart (hRuns : timingRuns s h = true) : exec (.frameStart h) s =
    let t := countFetch h (fetchLayers h (setHead s h { head s h with
      frame := ((head s h).frame + 1) % 2 ^ 64, startStamp := some s.now, line := 0, lineStamp := s.now }))
    .next (setHead t h { head t h with shown := composeFrame t h }) :=
  if_neg (by simp [hRuns])

/-! ### Validation of the oldest commit (R321) -/

section Validation
variable {c : Commit} (hRuns : feRuns s = true) (hFailed : (head s h).failed = false)
  (hOldest : (waitingCommits s h).find? (fun c => !c.ok) = some c)
include hRuns hFailed hOldest

theorem exec_commitValidationDone_refused {e : Nat} (hCheck : commitCheck s h c = some e) : exec (.commitValidationDone h) s =
    .next (refuse c.q c.i 0x0E e (setHead s h { head s h with next := (waitingCommits s h).filter (· != c) })) := by
  change execCommitValidationDone h s = _
  simp only [execCommitValidationDone, hOldest, hRuns, hFailed, hCheck, Bool.not_true, Bool.or_self, Bool.false_eq_true, if_false]

theorem exec_commitValidationDone_unread {va st e : Nat} (hCheck : commitCheck s h c = none)
    (hCoefs : readCoefs s c (layersOn c) [] = .error (va, st, e)) : exec (.commitValidationDone h) s =
    .next (refuseAt c.q c.i c.ctx va c.tag st e (setHead s h { head s h with next := (waitingCommits s h).filter (· != c) })) := by
  change execCommitValidationDone h s = _
  simp only [execCommitValidationDone, hOldest, hRuns, hFailed, hCheck, hCoefs, Bool.not_true, Bool.or_self, Bool.false_eq_true, if_false]

theorem exec_commitValidationDone_kept {m : Map (List Byte)} (hCheck : commitCheck s h c = none)
    (hCoefs : readCoefs s c (layersOn c) [] = .ok m) : exec (.commitValidationDone h) s = .next (setHead s h { head s h with
      next := (waitingCommits s h).map (fun y => if y = c then { c with ok := true, coefs := m } else y) }) := by
  change execCommitValidationDone h s = _
  simp only [execCommitValidationDone, hOldest, hRuns, hFailed, hCheck, hCoefs, Bool.not_true, Bool.or_self, Bool.false_eq_true, if_false]

end Validation

/-! ### Vertical blank (R326 to R328) -/

/-- The state at a vertical blank, with the frame's writeback on its way and what a lost context left disabled. -/
def atBlank (h : Nat) (s : State) : State := dropGone h (captureFrame h s)

/-- The head at a vertical blank of `s`, before a commit is applied. -/
def blankHead (s : State) (h : Nat) : Head :=
  { head (atBlank h s) h with line := headVactive s h, lineStamp := s.now, next := waitingCommits (atBlank h s) h }

/-- The oldest commit at a vertical blank that its frame does not hold back: it is applied if it is validated and was released 800 cycles
ago, and is counted as a repeat otherwise (R327). -/
def commitAtBlank (s : State) (h : Nat) (c : Commit) (rest : List Commit) : Option Desc → State
  | none => setHead (atBlank h s) h (blankHead s h)
  | some d =>
    let x := blankHead s h
    let t := setHead (atBlank h s) h x
    let u := setHead t h { x with repeats := satInc32 x.repeats, inRun := true }
    if c.ok = true ∧ d.phase = .released ∧ d.stamp + 800 ≤ s.now
    then done c.q c.i ((x.frame + 1) % 2 ^ 64) (setHead t h
      { x with active := some c, next := rest, dead := [], faulted := false, inRun := false })
    else if x.inRun then u else faultEvent u 0 0x0A h 1 c.ctx x.frame

section Blank
variable (hRuns : timingRuns s h = true)
include hRuns

theorem exec_vblankStart_empty (hNone : waitingCommits (atBlank h s) h = []) : exec (.vblankStart h) s =
    .next (setHead (setHead (atBlank h s) h (blankHead s h)) h { blankHead s h with inRun := false }) := by
  change execVblankStart h s = _
  rw [execVblankStart, if_neg (by simp [hRuns])]
  dsimp only
  rw [show waitingCommits (dropGone h (captureFrame h s)) h = [] from hNone]
  rw [blankHead, hNone]
  rfl

variable {c : Commit} {rest : List Commit} (hNext : waitingCommits (atBlank h s) h = c :: rest) (hFe : feRuns s = true)
include hNext hFe

/-- The oldest commit waits for its frame, or is due (R326). -/
theorem exec_vblankStart_first : exec (.vblankStart h) s = .next (
    if (bitOf (cField c 0 1) 2 && decide (diff32 ((blankHead s h).frame + 1) (cField c 4 4) < 0)) = true
    then setHead (atBlank h s) h (blankHead s h)
    else commitAtBlank s h c rest ((atBlank h s).desc? c.q c.i)) := by
  change execVblankStart h s = _
  rw [execVblankStart, if_neg (by simp [hRuns])]
  dsimp only
  rw [show waitingCommits (dropGone h (captureFrame h s)) h = c :: rest from hNext, apply_ite Host.Outcome.next]
  dsimp only
  rw [if_neg (by simp [hFe]), blankHead, hNext]
  refine ite_congr rfl (fun _ => rfl) fun _ => ?_
  change (match (atBlank h s).desc? c.q c.i with
    | none => _
    | some d => _) = _
  cases (atBlank h s).desc? c.q c.i with
  | none => rw [commitAtBlank, blankHead, hNext]; rfl
  | some d =>
    dsimp only [commitAtBlank]
    rw [blankHead, hNext]
    have hIf : (c.ok && d.phase == .released && decide (d.stamp + 800 ≤ s.now)) = true ↔
        c.ok = true ∧ d.phase = .released ∧ d.stamp + 800 ≤ s.now := by simp [and_assoc]
    exact (ite_congr (propext hIf) (fun _ => rfl) fun _ => rfl).trans (apply_ite Host.Outcome.next ..).symm

end Blank

/-! ### Writeback and signatures (R329, R330) -/

/-- A row of a writeback lands, or fills the context's fault record where its page does not translate. -/
def landRow (w : WbWork) (c : Ctx) (r : List Byte × Nat) (a : State) : State :=
  let k := walkVa a c false 0 (w.va + w.pitch * r.2) r.1.length true
  match k.stop with
  | none => countHub r.1.length (writePieces a k.pieces r.1)
  | some (.bad st d) => fillFault a w.ctx ⟨w.va + w.pitch * r.2, 0, st, d, 2, 255, w.tag, 0⟩
  | some _ => a

theorem exec_writebackDone {w : WbWork} {c : Ctx} (hWb : (head s h).wb = some w) (hSafe : s.flt.safe = false)
    (hFailed : (head s h).failed = false) (hCtx : s.ctx? w.ctx = some c) (hPage : recordPage s w.ctx w.fence = none) :
    exec (.writebackDone h) s = .next (applySignal
      (foldState w.rows.zipIdx (landRow w c) (setHead s h { head s h with wb := none })) w.q w.ctx w.fence w.frame w.tag).1 := by
  have hCtx0 : (setHead s h { head s h with wb := none }).ctx? w.ctx = some c := hCtx
  change execWritebackDone h s = _
  simp only [execWritebackDone, hWb]
  rw [if_neg (by simp [hSafe, hFailed]), hPage]
  dsimp only
  rw [hCtx0]
  rfl

theorem exec_signatureLatch {r : Fin 16} {f : Shown} (hShown : (head s h).shown = some f) (hRuns : timingRuns s h = true)
    (hSafe : s.flt.safe = false) (hCount : r.val < sigCount f.commit) : exec (.signatureLatch h r) s =
    let crc := crc32c ((List.range (sigField f.commit r 6 2)).flatMap (fun y => (List.range (sigField f.commit r 4 2)).flatMap
      (fun x => leBytes 4 (shownPixel (head s h) (sigField f.commit r 0 2 + x) (sigField f.commit r 2 2 + y)))))
    let bad := bitOf (sigField f.commit r 12 1) 0 && crc.toNat != sigField f.commit r 8 4
    let t := setHead s h { head s h with
      crc := mset (head s h).crc 0 r crc
      mismatch := if bad then setField (head s h).mismatch r 1 1 else (head s h).mismatch }
    .next (if bad && bitOf (dispCtrl s h) 7 then headIrq h t else t) := by
  have hBarred : (!timingRuns s h || s.flt.safe || decide (sigCount f.commit ≤ r.val)) = false := by simp [hRuns, hSafe, hCount]
  change execSignatureLatch h r s = _
  simp only [execSignatureLatch, hShown]
  rw [if_neg (by simp [hBarred])]

/-- Settles O27, clause by clause: a vertical blank by what its queue of commits holds, the other commands from the lemma about each. -/
theorem frameCommands : Obligations.FrameCommands := by
  refine ⟨?start, ?validation, ?blank, ?writeback, ?signature⟩
  case start => exact fun s h hRuns => exec_frameStart hRuns
  case validation =>
    exact fun s h c hRuns hFailed hOldest =>
      ⟨fun e hCheck => exec_commitValidationDone_refused hRuns hFailed hOldest hCheck,
        fun va st e hCheck hCoefs => exec_commitValidationDone_unread hRuns hFailed hOldest hCheck hCoefs,
        fun m hCheck hCoefs => exec_commitValidationDone_kept hRuns hFailed hOldest hCheck hCoefs⟩
  case blank =>
    refine fun s h hRuns => ⟨fun hNone => exec_vblankStart_empty hRuns hNone, fun c rest hNext hFe => ?_⟩
    have hFirst := exec_vblankStart_first hRuns hNext hFe
    refine ⟨fun hTimed hEarly => ?_, fun d hDesc hDue => ?_⟩
    · have hEarly : diff32 ((blankHead s h).frame + 1) (cField c 4 4) < 0 := hEarly
      rwa [if_pos (by simp [hTimed, hEarly])] at hFirst
    · have hNotEarly : ¬(bitOf (cField c 0 1) 2 && decide (diff32 ((blankHead s h).frame + 1) (cField c 4 4) < 0)) = true := by
        rintro hHeld
        obtain ⟨hTimed, hEarly⟩ := Bool.and_eq_true_iff.mp hHeld
        rcases hDue with hUntimed | hLate
        · simp [hUntimed] at hTimed
        · exact absurd (of_decide_eq_true hEarly) (not_lt.mpr hLate)
      rw [if_neg hNotEarly, show (atBlank h s).desc? c.q c.i = some d from hDesc] at hFirst
      refine ⟨fun hOk hPhase hStamp => ?_, fun hNot => ?_⟩
      · exact hFirst.trans (congrArg Host.Outcome.next (if_pos ⟨hOk, hPhase, hStamp⟩))
      · refine hFirst.trans (congrArg Host.Outcome.next (if_neg ?_))
        rintro ⟨hOk, hPhase, hStamp⟩
        rcases hNot with h' | h' | h'
        · simp [hOk] at h'
        · exact h' hPhase
        · omega
  case writeback => exact fun s h w c hWb hSafe hFailed hCtx hPage => exec_writebackDone hWb hSafe hFailed hCtx hPage
  case signature => exact fun s h r f hShown hRuns hSafe hCount => exec_signatureLatch hShown hRuns hSafe hCount

end Sys2Proof.Machine
end

section
/-! SUPPORT. Proofs about media decode and encode (O28). -/

namespace Sys2Proof.Machine

variable {s : State} {q i : Nat} {y : Queue} {c : Ctx} {d : Desc} {e r : Nat}

/-! ### A media descriptor that its engine serves (R333) -/

theorem mediaRow_next {op : Nat} {bad : Nat → Bool} {serve : Queue → Ctx → Desc → Nat → Nat → State → State}
    (hServes : MediaServes s q i op bad y c d e r) : mediaRow op bad serve q i s = .next (takeAll (serve y c d e r s)) := by
  obtain ⟨hRow, hGone, hEngine, hUp, hCtx, hSize, hLocal, hRecord, hGood, hFree⟩ := hServes
  refine descRow_eq_next hRow (congrArg takeAll ?_)
  simp only [hGone, hEngine, hCtx, hUp, hSize, hLocal, hRecord, hGood, hFree, ne_eq, not_true_eq_false, decide_false, Bool.not_true,
    Bool.or_self, Bool.false_eq_true, if_false]

theorem keepStream_of_translates {va n : Nat} {args : List Nat} {t : Stream} {k : State → State}
    (hStop : (walkVa s c false (userDesc q i) va n true).stop = none) : keepStream q i y c d va n args t k s =
      k (setStream (writePieces s (walkVa s c false (userDesc q i) va n true).pieces (codecOut (2 :: args) n)) t) := by
  simp only [keepStream, hStop]

/-! ### Decode (R335, R336) -/

section Decode
variable {x : DecodeReport} (hServes : MediaServes s q i 0x400 decodeBad y c d e r)
  (hRanges : mediaRanges s y.ctx (decodeRanges r) = none)
include hServes hRanges

/-- A flush gives the picture that waits. -/
theorem exec_mediaDecode_flush (hStop : (walkVa s c false (userDesc q i) (rField r 16 8) (2 ^ 18) true).stop = none)
    (hFlush : bitOf r 2 = true) :
    exec (.mediaDecode q i x) s =
      let old := decodeStream s y.ctx r
      let n := nextOut x old
      .next (takeAll (done q i (0xFF + 256 * n.1 + 2 ^ 32 * n.2.1) (setStream (writePieces s
        (walkVa s c false (userDesc q i) (rField r 16 8) (2 ^ 18) true).pieces (codecOut (2 :: r :: old.history) (2 ^ 18))) n.2.2))) := by
  change execMediaDecode q i x s = _
  simp only [execMediaDecode, mediaRow_next hServes, hRanges, hFlush, if_true]
  exact congrArg (fun t => Host.Outcome.next (takeAll t)) (keepStream_of_translates hStop)

variable (hFlush : bitOf r 2 = false)
include hFlush

theorem exec_mediaDecode_unsupported (hOk : pictureOk r x = false) :
    exec (.mediaDecode q i x) s = .next (takeAll (failed q i 2 0x0D02 s)) := by
  change execMediaDecode q i x s = _
  simp only [execMediaDecode, mediaRow_next hServes, hRanges, hFlush, hOk, Bool.not_false, Bool.false_eq_true, if_false, if_true]

variable (hOk : pictureOk r x = true)
include hOk

theorem exec_mediaDecode_full (hFull : freeSlot r (d.hold.getD (rField r 48 4)) (refSlots (decodeStream s y.ctx r) x.refs) = none) :
    exec (.mediaDecode q i x) s = .next (takeAll (failed q i 1 0x0D03 s)) := by
  change execMediaDecode q i x s = _
  simp only [execMediaDecode, mediaRow_next hServes, hRanges, hFlush, hOk, hFull, Bool.not_true, Bool.false_eq_true, if_false]

theorem exec_mediaDecode_slot {k : Nat}
    (hSlot : freeSlot r (d.hold.getD (rField r 48 4)) (refSlots (decodeStream s y.ctx r) x.refs) = some k) :
    exec (.mediaDecode q i x) s =
      .next (takeAll (decodePicture q i x y c d e r k (refSlots (decodeStream s y.ctx r) x.refs) s)) := by
  change execMediaDecode q i x s = _
  simp only [execMediaDecode, mediaRow_next hServes, hRanges, hFlush, hOk, hSlot, Bool.not_true, Bool.false_eq_true, if_false]

end Decode

/-- A picture whose bits, rows and reference translate is written to its slot. -/
theorem decodePicture_written {x : DecodeReport} {k : Nat} {refs : List Nat} {ps rs : List (Nat × Nat)}
    (hBits : (walkVa s c false (userDesc q i) (rField r 8 8) (rField r 4 4) false).stop = none)
    (hRows : rowWalks s c (userDesc q i) true (slotRows r k x.width.toNat x.height.toNat) = .ok ps)
    (hRef : rowWalks s c (userDesc q i) false
      ((nearestRef x refs).toList.flatMap fun j => slotRows r j x.width.toNat x.height.toNat) = .ok rs)
    (hStop : (walkVa s c false (userDesc q i) (rField r 16 8) (2 ^ 18) true).stop = none) :
    decodePicture q i x y c d e r k refs s =
      let old := decodeStream s y.ctx r
      let bs := readPieces s (walkVa s c false (userDesc q i) (rField r 8 8) (rField r 4 4) false).pieces
      let args := decodeArgs s c r old refs bs
      let img := pictureBytes x (rField r 37 1) ((nearestRef x refs).map (fun _ => readPieces s rs)) args
      let n := nextOut x (decodedInto old k bs)
      let kept := setStream (writePieces s (walkVa s c false (userDesc q i) (rField r 16 8) (2 ^ 18) true).pieces
        (codecOut (2 :: args) (2 ^ 18))) n.2.2
      let t := countHub (bs.length + img.length) (countPicture e (writePieces kept ps img))
      if x.syntaxError then finishDesc t q i 0x10 0x0D01 (decodeResult k n) true else done q i (decodeResult k n) t := by
  simp only [decodePicture, hBits, hRows, hRef]
  exact keepStream_of_translates hStop

theorem pictureOk_iff (w : Nat) (x : DecodeReport) : pictureOk w x = true ↔ x.unsupported = false ∧ (x.depth = 8 ∨ x.depth = 10)
    ∧ (∃ row ∈ codecTable, row.codec = field w 0 2 ∧ x.profile ∈ row.profiles ∧ x.chroma ∈ row.chroma ∧ x.level ≤ row.decode)
    ∧ x.width.toNat ≤ rField w 40 2 ∧ x.height.toNat ≤ rField w 42 2 ∧ fitsFormat (rField w 37 1) x = true := by
  simp only [pictureOk, decodeSupported, Bool.and_eq_true, Bool.or_eq_true, Bool.not_eq_true', beq_iff_eq, decide_eq_true_eq,
    List.any_eq_true, List.contains_iff_mem, and_assoc]

/-! ### Encode (R337, R338) -/

section Encode
variable {ps : List (Nat × Nat)} (hServes : MediaServes s q i 0x401 encodeBad y c d e r)
  (hRanges : mediaRanges s y.ctx (encodeRanges r) = none)
include hServes hRanges

theorem exec_mediaEncode_unsupported (hLevel : encodeSupported r = false) :
    exec (.mediaEncode q i) s = .next (takeAll (failed q i 2 0x0D02 s)) := by
  change execMediaEncode q i s = _
  simp only [execMediaEncode, mediaRow_next hServes, hRanges, hLevel, Bool.not_false, if_true]

variable (hRows : rowWalks s c (userDesc q i) false (sourceRows r) = .ok ps) (hLevel : encodeSupported r = true)
include hRows hLevel

theorem exec_mediaEncode_tooLong
    (hLong : rField r 56 4 < (encodeBytes (field r 0 2) (encodeKey s y.ctx r) (encodeArgs s y.ctx r (readPieces s ps))).length) :
    exec (.mediaEncode q i) s = .next (takeAll (failed q i 1 0x0D01 s)) := by
  change execMediaEncode q i s = _
  simp only [execMediaEncode, mediaRow_next hServes, hRanges, hLevel, hRows, hLong, Bool.not_true, Bool.false_eq_true, if_false, if_true]

theorem exec_mediaEncode_written {img bs : List Byte} {args : List Nat} {key : Bool} (hImg : readPieces s ps = img)
    (hArgs : encodeArgs s y.ctx r img = args) (hKey : encodeKey s y.ctx r = key) (hBytes : encodeBytes (field r 0 2) key args = bs)
    (hFits : bs.length ≤ rField r 56 4) (hOut : (walkVa s c false (userDesc q i) (rField r 48 8) bs.length true).stop = none)
    (hState : (walkVa s c false (userDesc q i) (rField r 40 8) (2 ^ 25) true).stop = none) :
    exec (.mediaEncode q i) s =
      let old := encodeStream s y.ctx r
      let t := setStream (writePieces s (walkVa s c false (userDesc q i) (rField r 40 8) (2 ^ 25) true).pieces (codecOut (2 :: args) (2 ^ 25)))
        { old with
          count := old.count + 1
          sinceKey := if key then 1 else old.sinceKey + 1
          history := old.history ++ [r, b2n key, bytesKey img] }
      .next (takeAll (done q i (bs.length + 2 ^ 32 * b2n key) (countHub (img.length + bs.length)
        (countPicture e (writePieces t (walkVa s c false (userDesc q i) (rField r 48 8) bs.length true).pieces bs))))) := by
  subst hImg hArgs hKey hBytes
  change execMediaEncode q i s = _
  simp only [execMediaEncode, mediaRow_next hServes, hRanges, hLevel, hRows, if_neg (Nat.not_lt.mpr hFits), hOut,
    Bool.not_true, Bool.false_eq_true, if_false]
  exact congrArg (fun t => Host.Outcome.next (takeAll t)) (keepStream_of_translates hState)

end Encode

/-- Settles O28, clause by clause from the lemma about each end of a media descriptor. -/
theorem mediaCommands : Obligations.MediaCommands := by
  refine ⟨?decode, ?refused, ?ok, ?encode⟩
  case decode =>
    intro s q i x y c d e r hServes hRanges old o keep hStop
    refine ⟨exec_mediaDecode_flush hServes hRanges hStop, ?_⟩
    intro k ps rs hFlush hOk hSlot refs rows bits hBits hRows hRef
    refine (exec_mediaDecode_slot hServes hRanges hFlush hOk hSlot).trans ?_
    exact congrArg (fun t => Host.Outcome.next (takeAll t)) (decodePicture_written hBits hRows hRef hStop)
  case refused =>
    exact fun s q i x y c d e r hServes hRanges hFlush =>
      ⟨exec_mediaDecode_unsupported hServes hRanges hFlush, exec_mediaDecode_full hServes hRanges hFlush⟩
  case ok => exact pictureOk_iff
  case encode =>
    intro s q i y c d e r ps hServes hRanges hRows img args old key bs o v
    exact ⟨exec_mediaEncode_unsupported hServes hRanges, exec_mediaEncode_tooLong hServes hRanges hRows,
      fun hLevel hFits hOut hState => exec_mediaEncode_written hServes hRanges hRows hLevel rfl rfl rfl rfl hFits hOut hState⟩

end Sys2Proof.Machine
end
